-- ==== Sys2Proof/Word.lean ====
section
/-! DEFINITION. The word types of the model and the plainest arithmetic on them. -/

namespace Sys2Proof

/-- One byte (R6). -/
abbrev Byte := BitVec 8

/-- One 32-bit word: a register of the device window or of a Colmus engine. -/
abbrev Word := BitVec 32

/-- A tick of the 2 ns sample clock on which every device timer resolves (R16, R65). -/
abbrev Tick := Nat

/-- Sample ticks in one microsecond, one millisecond, one second and one operating hour. -/
abbrev ticksPerUs : Nat := 500
abbrev ticksPerMs : Nat := 500000
abbrev ticksPerS : Nat := 500000000
abbrev ticksPerHour : Nat := 1800000000000

end Sys2Proof
end

