-- ==== Sys2Proof/Syntax.lean ====
section
/-! DEFINITION. The commands of the FJS-6440: one constructor per row of the table of operations and
events, with the operands the rows' rules name. A command that is an event of the device's own clock
carries the 2 ns tick `t` in which it lands. -/

namespace Sys2Proof

/-- A PCIe port (R15). -/
inductive Port where
  | a | b
  deriving DecidableEq, Repr

/-- One PCIe function: a tenant exposed on a port (R69). -/
structure Fn where
  tenant : Nat
  port : Port
  deriving DecidableEq, Repr

/-- One NAND die: its channel and its position on the channel (R116, R119). -/
structure DieId where
  ch : Nat
  pos : Nat
  deriving DecidableEq, Repr

/-- A mailbox endpoint (R395, R440): a function, or an MCTP endpoint of a binding. -/
inductive Endpoint where
  | fn (f : Fn)
  | mctp (binding : Nat) (port : Nat) (eid : Nat)
  deriving DecidableEq, Repr

/-- How a mailbox request travels (R435 to R439). -/
inductive Path where
  | bar2 | tunnel | mctp
  deriving DecidableEq, Repr

/-- The header of a mailbox request (Table 11.1), the length delivered with it, and whether a
reserved field of its body that no operand of the row carries is not zero (R430). -/
structure Rq where
  ep : Endpoint
  path : Path
  flags : Nat
  tag : Nat
  tenant : Nat
  delivered : Nat
  length : Nat
  seq : Nat
  bodyReserved : Bool
  deriving DecidableEq, Repr

/-- The data pointer of an NVMe command, as the checks 3 and 8 to 11 of Table 3.8 see it. -/
structure DataPtr where
  psdt : Nat
  prpOffsetBad : Bool
  sglKeyedOrBitBucket : Bool
  sglTypeBad : Bool
  sglMalformed : Bool
  sglLength : Option Nat
  deriving DecidableEq, Repr

/-- A window of a Firn plan (Table 2.5). -/
inductive WType where
  | still | work | maint
  deriving DecidableEq, Repr

structure Window where
  start : Nat
  type : WType
  deriving DecidableEq, Repr

/-- The Firn plan (Tables 2.4 and 2.5). `source` is 0 internal, 1 CYC_IN, 2 host epoch. -/
structure Plan where
  source : Nat
  periodNs : Nat
  fallingEdge : Bool
  cycout : Nat
  cycoutWidth : Nat
  cycinFilter : Nat
  epochFn : Nat
  telemPhase : Nat
  powerPhase : Nat
  ovrInterval : Nat
  windows : List Window
  deriving DecidableEq, Repr

/-- The device record of the settings set (Table 11.9). -/
structure DevRec where
  stillDiePositions : Nat
  telemMask : Nat
  computeRes : Nat
  idleMs : List Nat
  plan : Plan
  deriving DecidableEq, Repr

/-- A tenant record of the settings set (Table 11.9). Credentials stand as the SHA-384 of their bulk form. -/
structure TenRec where
  tenant : Nat
  ports : Nat
  hostAdmin : Nat
  urgentOk : Bool
  fetchWeight : Nat
  mediaShare : Nat
  unitShare : Nat
  ioqQuota : Nat
  slotQuota : Nat
  opQuota : Nat
  imageQuota : Nat
  engineQuota : Nat
  holeLog2 : Nat
  keyQuota : Nat
  twillSlots : Nat
  slmSize : Nat
  sramPart : List Nat
  tenantCred : List Byte
  progCred : List Byte
  deriving DecidableEq, Repr

/-- One record of a settings set: part 0 is the device record, part 1 + t that of tenant t. -/
inductive SetRec where
  | dev (r : DevRec)
  | ten (r : TenRec)
  deriving DecidableEq, Repr

/-- The board descriptor (Table 5.1). -/
structure BoardDesc where
  format : Nat
  huAddr : Nat
  huCmd : Nat
  huIsolate : Nat
  huRestore : Nat
  huPage : Nat
  vminMv : Nat
  vnomMv : Nat
  eRatedMj : Nat
  deriving DecidableEq, Repr

/-- A field of Table 9.1's policy word that a request may carry (R361, R446). -/
structure KeyPolicy where
  owner : Nat
  persist : Bool
  size : Nat
  uMedia : Bool
  uEnc : Bool
  uDec : Bool
  uHmac : Bool
  uKdf : Bool
  exportable : Bool
  /-- VALID, ORIGIN or GENERATION is not zero, or a reserved bit is set. -/
  reservedSet : Bool
  deriving DecidableEq, Repr

/-- A key blob (Table 9.4). -/
structure KeyBlob where
  magic : Nat
  format : Nat
  keyLen : Nat
  policy : KeyPolicy
  label : List Byte
  nonce : List Byte
  reserved : Nat
  key : List Byte
  tag : List Byte
  deriving DecidableEq, Repr

/-- The SGL or PRP free body of an NVMe command as it stands in a submission queue entry.
Field encodings are those of NVMe Base 2.1, the Computational Programs and the Subsystem Local Memory
command sets, which the spec refers to and does not repeat; the operands are the fields its rules name. -/
inductive Body where
  | read (slba nlb : Nat) (fua : Bool)
  | write (slba nlb : Nat) (fua : Bool)
  | writeZeroes (slba nlb : Nat)
  | dsm (deallocate : Bool) (ranges : List (Nat × Nat))
  | compare (slba nlb : Nat)
  | verify (slba nlb : Nat)
  | flush
  | resvRegister (action : Nat) (key newKey : Nat)
  | resvAcquire (action rtype : Nat) (key preKey : Nat)
  | resvRelease (action rtype : Nat) (key : Nat)
  | resvReport
  | abort (sqid cid : Nat)
  | aer
  | createSq (qid size cqid prio : Nat)
  | createCq (qid size vector : Nat)
  | deleteSq (qid : Nat)
  | deleteCq (qid : Nat)
  | setQueues (nsq ncq : Nat)
  | setArb (ab lpw mpw hpw : Nat) (save : Bool)
  | setWce (wce : Bool)
  | setPm (ps workloadHint : Nat)
  | setApst (apste : Bool)
  | setCoal (thr time : Nat)
  | getFeatures (fid sel : Nat)
  | identify (cns csi : Nat)
  | getLog (lid offset len : Nat)
  | nsCreate (nsze ncap lbaf : Nat)
  | nsDelete
  | nsAttach (attach : Bool) (cntlids : List Nat)
  | format (lbaf : Nat)
  | sanitize (action : Nat)
  | fwDownload (offset : Nat) (data : List Byte)
  | fwCommit (slot ca : Nat)
  | selfTest (code : Nat)
  | miSend
  | miReceive
  | virtMgmt (action resource : Nat)
  | mailbox (len cdw12 cdw13 : Nat)
  | loadProgram (vendorType : Bool) (image : List Byte)
  | unloadProgram (index : Nat)
  | activate (index : Nat) (activate : Bool)
  | execute (index : Nat) (args : List Byte) (hostData : List (List Byte))
  | rangeSetCreate (ranges : List (Nat × Nat))
  | rangeSetDelete (id : Nat)
  | slmRead (offset length : Nat)
  | slmWrite (offset : Nat) (data : List Byte)
  | slmFill (offset length : Nat) (pattern : List Byte)
  | slmCopy (src dst length : Nat)
  | unsupported (opcode : Nat)
  deriving DecidableEq, Repr

/-- One submission queue entry as the device fetches it (R86, R110). -/
structure Sqe where
  cid : Nat
  nsid : Nat
  fused : Bool
  asksRefused : Bool
  reservedSet : Bool
  dptr : DataPtr
  body : Body
  deriving DecidableEq, Repr

/-- The fields of the R format of a Colmus word (Table 7.8); `rsv` is bits [7:0]. -/
structure RFmt where
  d : BitVec 4
  s : BitVec 4
  t : BitVec 4
  rsv : BitVec 8
  deriving DecidableEq, Repr

/-- The I format. -/
structure IFmt where
  d : BitVec 4
  s : BitVec 4
  imm : BitVec 18
  deriving DecidableEq, Repr

/-- The W format. -/
structure WFmt where
  d : BitVec 4
  imm : BitVec 22
  deriving DecidableEq, Repr

/-- The M format. -/
structure MFmt where
  r : BitVec 4
  a : BitVec 4
  mode : BitVec 3
  size : BitVec 2
  sx : BitVec 1
  imm : BitVec 12
  deriving DecidableEq, Repr

/-- The D format. -/
structure DFmt where
  acc : BitVec 2
  sub : BitVec 1
  uns : BitVec 1
  size : BitVec 2
  ax : BitVec 2
  ay : BitVec 2
  mx : BitVec 2
  my : BitVec 2
  rsv : BitVec 12
  deriving DecidableEq, Repr

/-- The B format. -/
structure BFmt where
  cond : BitVec 4
  imm : BitVec 22
  deriving DecidableEq, Repr

/-- The C format. -/
structure CFmt where
  mask : BitVec 16
  target : BitVec 4
  rsv : BitVec 6
  deriving DecidableEq, Repr

/-- The L format. -/
structure LFmt where
  count : BitVec 4
  len : BitVec 14
  rsv : BitVec 8
  deriving DecidableEq, Repr

/-- A user of DRAM that meets an uncorrectable line (Table 12.1). `nsid` and `page` name a map page;
`addr` an SLM line. -/
inductive DramUser where
  | mapPageClean (nsid page : Nat)
  | mapPageDirty (nsid page : Nat)
  | readCache
  | shelfTag (nsid page : Nat)
  | slm (tenant addr : Nat)
  | wrappedContext (unit : Nat) (asn node replica : Nat)
  | heldTwice (otherCopyGood : Bool)
  deriving DecidableEq, Repr

/-- A party that can be fenced (R487), with its index. -/
inductive Party where
  | engine (p : Nat)
  | lane (i : Nat)
  | digest (i : Nat)
  | felt (i : Nat)
  | sieve (i : Nat)
  | twill
  | function (f : Fn)
  | channel (c : Nat)
  | pair (i : Nat)
  deriving DecidableEq, Repr

/-- The stages of a start (Table 5.7) whose end is an event of its own. -/
inductive StartStage where
  | romVerify (active : Bool) (other : Bool) (reason : Nat)
  | settingsRead
  | dramTrain (known : Bool) (trained : List Bool)
  | keysRestored
  | directoryRead
  | journalReplayed
  deriving DecidableEq, Repr

/-- A level change on CYCIN: the new level, and for how many ticks it holds (R28, R34). -/
structure CycLevel where
  falling : Bool
  held : Nat
  deriving DecidableEq, Repr

/-- What a page read gives: whether it decodes, and whether a codeword corrected more than 60 % of the bits that
hard-decision decode can (R147, R160). -/
structure PageOutcome where
  decoded : Bool
  weak : Bool
  deriving DecidableEq, Repr

/-- What selecting each die of a channel in turn finds, by position: the dies that do not answer, and those that drive the
bus when they should not (R166). -/
structure BusFound where
  silent : List Nat
  driven : List Nat
  deriving DecidableEq, Repr

/-- A bus that stays driven: its channel, and what selecting its dies finds (R166). -/
structure BusFault where
  ch : Nat
  found : BusFound
  deriving DecidableEq, Repr

/-- The compressor that took a grain, and whether its own check of what it made held (R313 to R315). -/
structure Compressor where
  inst : Nat
  verified : Bool
  deriving DecidableEq, Repr

/-- A command: one constructor per row of the table of operations and events. -/
inductive Instr where
  -- power, reset and start
  | pwrgdRise (t : Tick) (bootsel portcfg : Nat)
  | pwrgdFall (t : Tick)
  | sysclkFault (t : Tick)
  | deviceReady (t : Tick)
  | pfailAssert (t : Tick)
  | pfailDeassert (t : Tick)
  | pfailResume (t : Tick)
  | holdupOkChange (t : Tick) (level : Bool)
  | holdupOkStable (t : Tick)
  | holdupProofLapse (t : Tick)
  | holdupTestDue (t : Tick)
  | holdupTestComplete (t : Tick)
  | deviceShutdown (t : Tick)
  | liveSettingsBankWrite (t : Tick)
  -- Firn
  | cycinEdge (t : Tick) (level : CycLevel)
  | cycinFilterDecision (t : Tick) (first : Tick) (falling confirmed : Bool)
  | epochEdge (t : Tick)
  | epochSeriesSwitch (t : Tick)
  | firnEpochGo (t : Tick) (f : Fn) (count rest : Nat)
  | firnBeatLoRead (t : Tick) (f : Fn)
  | ptmDialogue (t : Tick) (p : Port) (answer : Option Nat)
  | ptmContextLapse (t : Tick) (p : Port)
  | beatLoss (t : Tick)
  | holdoverExpire (t : Tick)
  | beatBoundary (t : Tick)
  | windowStart (t : Tick) (i : Nat)
  | maintOverrideAnnounce (t : Tick) (task : Nat) (beat : Nat)
  | maintOverrideEnd (t : Tick)
  | stillSuspendPoint (t : Tick) (i : Nat)
  | dieSuspended (t : Tick) (d : DieId)
  | suspendTimeout (t : Tick) (d : DieId)
  | stillTailEnd (t : Tick)
  | telemetrySnapshot (t : Tick)
  | powerStateDecision (t : Tick)
  -- links and controllers
  | perstAssert (t : Tick) (p : Port)
  | perstDeassert (t : Tick) (p : Port)
  | linkDown (t : Tick) (p : Port)
  | functionLevelReset (t : Tick) (f : Fn)
  | controllerEnable (t : Tick) (f : Fn) (css : Nat)
  | controllerDisable (t : Tick) (f : Fn)
  | controllerShutdown (t : Tick) (f : Fn)
  | sqDoorbell (t : Tick) (f : Fn) (qid tail : Nat)
  | cqDoorbell (t : Tick) (f : Fn) (qid head : Nat)
  | commandFetch (t : Tick) (e : Sqe)
  | asnSpanLimit (t : Tick) (slot : Nat)
  -- NVMe I/O commands
  | read (t : Tick) (slot : Nat)
  | write (t : Tick) (slot : Nat)
  | writeZeroes (t : Tick) (slot : Nat)
  | datasetManagement (t : Tick) (slot : Nat)
  | compare (t : Tick) (slot : Nat) (data : List (List Byte))
  | verify (t : Tick) (slot : Nat)
  | flush (t : Tick) (slot : Nat)
  | reservationRegister (t : Tick) (slot : Nat)
  | reservationAcquire (t : Tick) (slot : Nat)
  | reservationRelease (t : Tick) (slot : Nat)
  | reservationReport (t : Tick) (slot : Nat)
  | writeDataArrival (t : Tick) (slot : Nat) (piece : Nat) (data : List (List Byte))
  | stagingRoomGrant (t : Tick)
  | dataFetchFault (t : Tick) (slot : Nat) (piece : Nat)
  | readWaitRelease (t : Tick) (slot : Nat)
  | abort (t : Tick) (slot : Nat)
  | abortTimerExpiry (t : Tick) (slot : Nat)
  | asynchronousEventRequest (t : Tick) (slot : Nat)
  -- NVMe admin commands
  | createIoSq (t : Tick) (slot : Nat)
  | createIoCq (t : Tick) (slot : Nat)
  | deleteIoSq (t : Tick) (slot : Nat)
  | deleteIoCq (t : Tick) (slot : Nat)
  | setFeaturesNumberOfQueues (t : Tick) (slot : Nat)
  | setFeaturesArbitration (t : Tick) (slot : Nat)
  | setFeaturesVolatileWriteCache (t : Tick) (slot : Nat)
  | setFeaturesPowerManagement (t : Tick) (slot : Nat)
  | setFeaturesApst (t : Tick) (slot : Nat)
  | setFeaturesInterruptCoalescing (t : Tick) (slot : Nat)
  | getFeatures (t : Tick) (slot : Nat)
  | identify (t : Tick) (slot : Nat)
  | getLogPage (t : Tick) (slot : Nat)
  | namespaceManagement (t : Tick) (slot : Nat)
  | namespaceAttachment (t : Tick) (slot : Nat)
  | formatNvm (t : Tick) (slot : Nat)
  | sanitize (t : Tick) (slot : Nat)
  | firmwareImageDownload (t : Tick) (slot : Nat)
  | firmwareCommit (t : Tick) (slot : Nat)
  | deviceSelfTest (t : Tick) (slot : Nat)
  | nvmeMiSend (t : Tick) (slot : Nat)
  | nvmeMiReceive (t : Tick) (slot : Nat)
  | virtualizationManagement (t : Tick) (slot : Nat)
  -- compute command sets
  | loadProgram (t : Tick) (slot : Nat)
  | programUnload (t : Tick) (slot : Nat)
  | programActivationManagement (t : Tick) (slot : Nat)
  | executeProgram (t : Tick) (slot : Nat)
  | memoryRangeSetManagement (t : Tick) (slot : Nat)
  | memoryRead (t : Tick) (slot : Nat)
  | memoryWrite (t : Tick) (slot : Nat)
  | memoryFill (t : Tick) (slot : Nat)
  | memoryCopy (t : Tick) (slot : Nat)
  -- runs, nodes and units
  | runRelease (t : Tick) (asn : Nat)
  | engineDispatch (t : Tick) (pos : Nat) (scrubOk : Bool)
  | creditReturn (t : Tick) (asn edge lane : Nat)
  | nodeEnd (t : Tick) (asn node replica : Nat) (status detail : Nat)
  | nodeWatchdog (t : Tick) (asn node replica : Nat)
  | tenantStopGraceExpiry (t : Tick) (tenant : Nat)
  | tenantDrainComplete (t : Tick) (tenant : Nat)
  | sieveChunk (t : Tick) (unit asn node replica : Nat)
  | feltPackChunk (t : Tick) (inst asn node replica : Nat) (verified : Bool)
  | feltUnpackChunk (t : Tick) (inst asn node replica : Nat)
  | grainInflate (t : Tick) (nsid grain : Nat) (ok : Bool)
  | cipherUnit (t : Tick) (lane : Nat)
  | digestBlock (t : Tick) (engine : Nat)
  | jobResume (t : Tick) (unit : Nat) (asn node replica : Nat) (tagOk : Bool)
  -- Twill
  | twillGet (t : Tick) (asn node : Nat)
  | twillFloor (t : Tick) (asn node : Nat)
  | twillCeil (t : Tick) (asn node : Nat)
  | twillNext (t : Tick) (asn node : Nat)
  | twillScan (t : Tick) (asn node : Nat)
  | twillInsert (t : Tick) (asn node : Nat)
  | twillPut (t : Tick) (asn node : Nat)
  | twillReplace (t : Tick) (asn node : Nat)
  | twillDelete (t : Tick) (asn node : Nat)
  | twillBulkEntry (t : Tick) (asn node : Nat)
  | twillBackgroundScan (t : Tick) (bad : List Nat)
  -- Colmus: integer
  | add (e : Nat) (f : RFmt)
  | sub (e : Nat) (f : RFmt)
  | and (e : Nat) (f : RFmt)
  | or (e : Nat) (f : RFmt)
  | xor (e : Nat) (f : RFmt)
  | andn (e : Nat) (f : RFmt)
  | shl (e : Nat) (f : RFmt)
  | shr (e : Nat) (f : RFmt)
  | sar (e : Nat) (f : RFmt)
  | ror (e : Nat) (f : RFmt)
  | min (e : Nat) (f : RFmt)
  | max (e : Nat) (f : RFmt)
  | minu (e : Nat) (f : RFmt)
  | maxu (e : Nat) (f : RFmt)
  | abs (e : Nat) (f : RFmt)
  | sexth (e : Nat) (f : RFmt)
  | sextb (e : Nat) (f : RFmt)
  | zexth (e : Nat) (f : RFmt)
  | zextb (e : Nat) (f : RFmt)
  | mov (e : Nat) (f : RFmt)
  | clz (e : Nat) (f : RFmt)
  | popc (e : Nat) (f : RFmt)
  | addi (e : Nat) (f : IFmt)
  | andi (e : Nat) (f : IFmt)
  | ori (e : Nat) (f : IFmt)
  | xori (e : Nat) (f : IFmt)
  | shi (e : Nat) (f : IFmt)
  | movi (e : Nat) (f : WFmt)
  | movhi (e : Nat) (f : WFmt)
  | cmp (e : Nat) (f : RFmt)
  | tst (e : Nat) (f : RFmt)
  | cmpi (e : Nat) (f : IFmt)
  | tsti (e : Nat) (f : IFmt)
  | adda (e : Nat) (f : RFmt)
  | suba (e : Nat) (f : RFmt)
  | movaa (e : Nat) (f : RFmt)
  | movad (e : Nat) (f : RFmt)
  | movda (e : Nat) (f : RFmt)
  | cmpa (e : Nat) (f : RFmt)
  | addai (e : Nat) (f : IFmt)
  | movai (e : Nat) (f : WFmt)
  | movahi (e : Nat) (f : WFmt)
  -- Colmus: memory and ports
  | ld (e : Nat) (f : MFmt)
  | st (e : Nat) (f : MFmt)
  | lda (e : Nat) (f : MFmt)
  | sta (e : Nat) (f : MFmt)
  | inDataPop (e : Nat) (f : MFmt)
  | inStatRead (e : Nat) (f : MFmt)
  | inSkip (e : Nat) (f : MFmt)
  | outDataPush (e : Nat) (f : MFmt)
  | flushPort (e : Nat) (f : MFmt)
  | endPort (e : Nat) (f : MFmt)
  -- Colmus: multiply and accumulators
  | muls (e : Nat) (f : RFmt)
  | mulu (e : Nat) (f : RFmt)
  | macs (e : Nat) (f : RFmt)
  | macu (e : Nat) (f : RFmt)
  | msus (e : Nat) (f : RFmt)
  | msuu (e : Nat) (f : RFmt)
  | dmac (e : Nat) (f : DFmt)
  | accclr (e : Nat) (f : RFmt)
  | accmov (e : Nat) (f : RFmt)
  | accadd (e : Nat) (f : RFmt)
  | accldp (e : Nat) (f : RFmt)
  | accldd (e : Nat) (f : RFmt)
  | accneg (e : Nat) (f : RFmt)
  | accrd (e : Nat) (f : IFmt)
  | movsRead (e : Nat) (f : RFmt)
  | movsWrite (e : Nat) (f : RFmt)
  -- Colmus: binary32
  | fadd (e : Nat) (f : RFmt)
  | fsub (e : Nat) (f : RFmt)
  | fmul (e : Nat) (f : RFmt)
  | fma (e : Nat) (f : RFmt)
  | fms (e : Nat) (f : RFmt)
  | fmin (e : Nat) (f : RFmt)
  | fmax (e : Nat) (f : RFmt)
  | fabs (e : Nat) (f : RFmt)
  | fneg (e : Nat) (f : RFmt)
  | fcmp (e : Nat) (f : RFmt)
  | fcmpz (e : Nat) (f : RFmt)
  | ftoi (e : Nat) (f : RFmt)
  | ftoin (e : Nat) (f : RFmt)
  | ftou (e : Nat) (f : RFmt)
  | itof (e : Nat) (f : RFmt)
  | utof (e : Nat) (f : RFmt)
  -- Colmus: control
  | b (e : Nat) (f : BFmt)
  | jr (e : Nat) (f : RFmt)
  | call (e : Nat) (f : CFmt)
  | ret (e : Nat) (rsv : BitVec 26)
  | loop (e : Nat) (f : LFmt)
  | nop (e : Nat) (f : RFmt)
  | halt (e : Nat) (f : RFmt)
  | brk (e : Nat) (f : RFmt)
  | drain (e : Nat) (f : RFmt)
  -- media
  | dieReadComplete (t : Tick) (d : DieId) (page : PageOutcome)
  | programComplete (t : Tick) (d : DieId) (ok : Bool)
  | eraseComplete (t : Tick) (d : DieId) (ok : Bool)
  | diePollTimeout (t : Tick) (d : DieId)
  | dieResetTimeout (t : Tick) (d : DieId) (found : BusFound)
  | channelBusFault (t : Tick) (fault : BusFault)
  | grainDrain (t : Tick) (nsid grain : Nat) (unit : Compressor)
  | journalWrite (t : Tick)
  | mapPageLoadComplete (t : Tick) (nsid page : Nat) (fromShelf tagOk : Bool)
  -- memories and repair
  | dramUncorrectable (t : Tick) (ch row : Nat) (user : DramUser)
  | dramRetrainingComplete (t : Tick) (ok : Bool) (stallUs : Nat)
  | sramCorrection (t : Tick) (cls mcr offset : Nat) (uncorrectable testFails : Bool)
  | scrubPatrol (t : Tick) (dram : Bool)
  | scrubPassComplete (t : Tick) (corrected uncorrectable remapped : Nat)
  | ownershipReclaim (t : Tick) (p : Party)
  -- power states
  | psEntryComplete (t : Tick)
  | psExitComplete (t : Tick)
  | avsAck (t : Tick)
  | avsTimeout (t : Tick)
  | pmbusTimeout (t : Tick)
  | pmbAlert (t : Tick) (statusWord : Nat)
  | powerSample (t : Tick) (averageMw : Nat) (tj : Int)
  | thermalShutdown (t : Tick)
  | led1Timeout (t : Tick)
  | rimeFlushComplete (t : Tick)
  -- supervisor pairs and firmware
  | lockstepWatchdogExpiry (t : Tick)
  | pairFault (t : Tick) (pair cause : Nat)
  | pairStandbyReady (t : Tick) (pair : Nat)
  | handoverStandbyReady (t : Tick) (ok : Bool)
  | handoverPauseEnd (t : Tick)
  | microcodeLoad (t : Tick) (cluster : Nat)
  | svnRaise (t : Tick)
  | serdesReequalisation (t : Tick) (p : Port)
  | serdesReeqComplete (t : Tick) (p : Port) (rate : Nat)
  -- mailbox housekeeping and registers
  | sessionTimeout (t : Tick) (ep : Endpoint)
  | nonceLapse (t : Tick) (ep : Endpoint)
  | sessionLockoutEnd (t : Tick) (ep : Endpoint)
  | mailboxTimeout (t : Tick) (ep : Endpoint)
  | devwinErrClear (t : Tick) (f : Fn) (multi : Bool)
  | registerWrite (t : Tick) (f : Fn) (bar : Nat) (offset : Nat) (value : Word)
  -- mailbox requests
  | deviceInfo (t : Tick) (q : Rq)
  | challenge (t : Tick) (q : Rq) (role tenant : Nat)
  | prove (t : Tick) (q : Rq) (role tenant bulkLen : Nat)
  | close (t : Tick) (q : Rq)
  | bulkWrite (t : Tick) (q : Rq) (offset : Nat) (data : List Byte)
  | viewRead (t : Tick) (q : Rq) (kind lid offset count : Nat)
  | setRead (t : Tick) (q : Rq) (part src : Nat)
  | setStage (t : Tick) (q : Rq) (baseGen part : Nat) (rec : SetRec)
  | setCommit (t : Tick) (q : Rq) (baseGen : Nat)
  | setDiscard (t : Tick) (q : Rq)
  | setLive (t : Tick) (q : Rq) (field value : Nat)
  | shelfGrant (t : Tick) (q : Rq) (port : Nat) (ranges : List (Nat × Nat))
  | shelfWithdraw (t : Tick) (q : Rq)
  | tenantCreate (t : Tick) (q : Rq) (rec : TenRec) (bulkLen : Nat)
  | tenantDestroy (t : Tick) (q : Rq)
  | tenantStop (t : Tick) (q : Rq) (graceMs : Nat)
  | tenantStart (t : Tick) (q : Rq)
  | tenantState (t : Tick) (q : Rq)
  | tenantCred (t : Tick) (q : Rq) (bulkLen : Nat)
  | progsignCred (t : Tick) (q : Rq) (bulkLen : Nat)
  | tenantErase (t : Tick) (q : Rq)
  | nsCreate (t : Tick) (q : Rq) (grain still keysrc lbaf slot gen assured stretch : Nat)
  | nsResize (t : Tick) (q : Rq) (nsid assured stretch : Nat)
  | ownClaim (t : Tick) (q : Rq) (bulkLen : Nat)
  | ownTransfer (t : Tick) (q : Rq) (bulkLen : Nat)
  | ownRelease (t : Tick) (q : Rq)
  | factoryRestore (t : Tick) (q : Rq)
  | debugNonce (t : Tick) (q : Rq)
  | debugUnlock (t : Tick) (q : Rq) (bulkLen : Nat)
  | generate (t : Tick) (q : Rq) (slot gen : Nat) (policy : KeyPolicy)
  | derive (t : Tick) (q : Rq) (slot gen : Nat) (policy : KeyPolicy) (label : List Byte)
  | unwrap (t : Tick) (q : Rq) (slot gen : Nat) (blob : KeyBlob)
  | wrap (t : Tick) (q : Rq) (slot gen : Nat) (label : List Byte)
  | restrict (t : Tick) (q : Rq) (slot gen : Nat) (policy : KeyPolicy)
  | clear (t : Tick) (q : Rq) (slot gen : Nat)
  | query (t : Tick) (q : Rq) (slot gen : Nat)
  | loadNsKey (t : Tick) (q : Rq) (slot gen nsid : Nat)
  | planRead (t : Tick) (q : Rq)
  | firnEdges (t : Tick) (q : Rq) (starts : List Nat)
  | progInstall (t : Tick) (q : Rq) (bulkLen : Nat)
  | progRemove (t : Tick) (q : Rq) (progId : Nat)
  | progList (t : Tick) (q : Rq)
  | twillStatus (t : Tick) (q : Rq)
  | rimeRead (t : Tick) (q : Rq) (fromSeq count : Nat)
  | moraineInfo (t : Tick) (q : Rq)
  | moraineRead (t : Tick) (q : Rq) (offset count : Nat)
  | fwStage (t : Tick) (q : Rq) (offset total : Nat) (data : List Byte)
  | fwActivate (t : Tick) (q : Rq)
  | fwStatus (t : Tick) (q : Rq)
  | svnCommit (t : Tick) (q : Rq)
  | recoveryStage (t : Tick) (q : Rq) (offset total : Nat) (data : List Byte)
  | scrubStart (t : Tick) (q : Rq) (target start count : Nat)
  | scrubResult (t : Tick) (q : Rq) (id : Nat)
  | calve (t : Tick) (q : Rq) (unit : Nat)
  | engineTest (t : Tick) (q : Rq) (unit : Nat)
  | dramRetrain (t : Tick) (q : Rq) (unit : Nat)
  | hppr (t : Tick) (q : Rq) (unit : Nat)
  | pageIdle (t : Tick) (q : Rq) (unit : Nat)
  | nrrLog2 (t : Tick) (q : Rq) (unit : Nat)
  | nandRecal (t : Tick) (q : Rq) (unit : Nat)
  | serdesReeq (t : Tick) (q : Rq) (unit : Nat)
  | pairTest (t : Tick) (q : Rq) (unit : Nat)
  | holdupStatus (t : Tick) (q : Rq)
  | shutdown (t : Tick) (q : Rq)
  | boardDesc (t : Tick) (q : Rq) (d : BoardDesc)
  | powerLimit (t : Tick) (q : Rq) (limitMw : Nat)
  -- NVMe-MI and SPDM
  | readNvmeMiDataStructure (t : Tick) (ep : Endpoint) (kind : Nat)
  | nvmSubsystemHealthStatusPoll (t : Tick) (ep : Endpoint)
  | controllerHealthStatusPoll (t : Tick) (ep : Endpoint)
  | configurationGet (t : Tick) (ep : Endpoint) (id : Nat)
  | getVersion (t : Tick) (ep : Endpoint)
  | getCapabilities (t : Tick) (ep : Endpoint)
  | negotiateAlgorithms (t : Tick) (ep : Endpoint) (ecdsaP384 sha384 : Bool)
  | getDigests (t : Tick) (ep : Endpoint)
  | getCertificate (t : Tick) (ep : Endpoint) (slot offset length : Nat)
  | spdmChallenge (t : Tick) (ep : Endpoint) (slot : Nat) (nonce : List Byte)
  | getMeasurements (t : Tick) (ep : Endpoint) (index : Nat) (nonce : List Byte)
  -- JTAG
  | jtagTapReset (t : Tick)
  | extest (t : Tick)
  -- links, again
  | linkUp (t : Tick) (p : Port) (rate width : Nat)
  | l12Entry (t : Tick) (p : Port)
  | l12Exit (t : Tick) (p : Port)
  | linkPartnerReequalisation (t : Tick) (p : Port)
  | correctableLinkError (t : Tick) (p : Port)
  | aggregationTimeExpiry (t : Tick) (f : Fn) (vector : Nat)
  | hostDmaComplete (t : Tick) (slot : Nat)
  | dieResetComplete (t : Tick) (d : DieId)
  | pmbusTransferComplete (t : Tick) (value : Nat)
  | norWriteComplete (t : Tick)
  | startStageComplete (t : Tick) (stage : StartStage)
  | outputFirstDrive (t : Tick) (late : Bool)
  | engineSelfTestQuantumEnd (t : Tick) (p : Nat) (pass : Bool)
  | postPackageRepairComplete (t : Tick) (ch : Nat)
  | regulatorFaultRetry (t : Tick)
  | undefinedInstruction (e : Nat) (w : Word)
  | unknownMailboxRequest (t : Tick) (q : Rq) (opcode : Nat)
  | unsupportedNvmeCommand (t : Tick) (slot : Nat)
  | unsupportedNvmeMiMessage (t : Tick) (ep : Endpoint)
  | mailboxTransfer (t : Tick) (slot : Nat) (requestFails responseFails : Bool)
  deriving DecidableEq, Repr

end Sys2Proof
end

