-- ==== Sys2Proof/Decode.lean ====
section
/-! DEFINITION. The decoder of the table of operations and events. The table gives no row any bits: a
command of this device is an event or a request with operands, never a word. So no word spells one. -/

namespace Sys2Proof

/-- The command that a word of `nbits` bits spells by the table's bits: none, since no row has bits.
DEDUCED: log entry 4. -/
def decodeTableWord (_nbits _w : Nat) : Option Instr := none

end Sys2Proof
end

