-- ==== Sys2Proof/Config.lean ====
section
/-! DEFINITION. What an implementation fixes and the values the spec leaves free. A constant that is
opaque has no body, so that nothing in Lean can lean on a value of it; the others are what the rules compute from those. Each
is named in notes/assumptions. -/

namespace Sys2Proof.Config

/-! ### The board and its dies -/

/-- Dies fitted on each channel, by channel. UNVERIFIED: log entry 13. -/
opaque diesFitted : Nat → Nat
/-- R14: at most 16 on a channel. UNVERIFIED: log entry 13. -/
def diesOn (ch : Nat) : Nat := min 16 (diesFitted ch)
/-- Blocks of a die. UNVERIFIED: log entry 13. -/
opaque blocksPerDie : Nat
/-- Frames of one data page, and rows of a block, in native mode (R117, R122). UNVERIFIED: log entry 13. -/
opaque framesPerPage : Nat
/-- UNVERIFIED: log entry 13. -/
opaque rowsPerBlock : Nat
/-- User bands and user pool frames of a domain as fitted (R122, R137). UNVERIFIED: log entry 13. -/
opaque userBands : Nat → Nat
/-- UNVERIFIED: log entry 13. -/
opaque userPool : Nat → Nat
/-- User pool frames that one die gives a domain (R167). UNVERIFIED: log entry 13. -/
opaque dieFrames : Nat → Nat
/-- Still pool, frames, by STILL_DIE_POSITIONS (R137). UNVERIFIED: log entry 13. -/
opaque stillPool : Nat → Nat
/-- Rated cycles of a user block (R155), reserve-band bytes (R123). UNVERIFIED: log entry 13. -/
opaque ratedCycles : Nat
/-- UNVERIFIED: log entry 13. -/
opaque reserveBytes : Nat
/-- VDD_CORE level of a power state, in steps of 5 mV above 650 mV (R506). UNVERIFIED: log entry 17. -/
opaque vddStep : Nat → Nat

/-- Spare blocks of a channel at manufacture (R168). UNVERIFIED: log entry 13. -/
opaque spareOn : Nat → Nat
/-- The device assured capacity in bytes (R137): 0.85 of the user pool in whole 32 MiB, at most 64 TiB; a frame is 64
bytes. UNVERIFIED: log entry 13. -/
def assuredCapacity : Nat := min (2 ^ 46) ((userPool 0 + userPool 1) * 64 * 85 / 100 / 2 ^ 25 * 2 ^ 25)
/-- DRAM fitted, bytes. UNVERIFIED: log entry 13. -/
opaque dramFitted : Nat
/-- R14, R454: at most 256 GiB. -/
def dramBytes : Nat := min (256 * 2 ^ 30) dramFitted
/-- tR_max of the still die group, ns (R60). UNVERIFIED: log entry 13. -/
opaque tReadMaxNs : Nat
/-- tSUSPEND_max of the still die group, ns (R51). UNVERIFIED: log entry 13. -/
opaque tSuspendMaxNs : Nat
/-- Declared maximum time of a read, a program, an erase and a reset of a die, ns (R149). UNVERIFIED: log entry 13. -/
opaque tDieReadNs : Nat
/-- UNVERIFIED: log entry 13. -/
opaque tDieProgramNs : Nat
/-- UNVERIFIED: log entry 13. -/
opaque tDieEraseNs : Nat
/-- UNVERIFIED: log entry 13. -/
opaque tDieResetNs : Nat
/-- Channel rate that the board supports, bytes per us (R60). UNVERIFIED: log entry 13. -/
opaque channelFitted : Nat
/-- R14: at most 4.8 GT/s, one byte a transfer. -/
def channelRate : Nat := min 4800 channelFitted
/-- A die declares suspend support (R52). UNVERIFIED: log entry 13. -/
opaque suspendSupport : Nat → Nat → Bool
/-- Dies of a channel that share a CE_N line with the one given (R166). UNVERIFIED: log entry 13. -/
opaque companion : Nat → Nat → Nat
/-- Read count refresh thresholds of the die parameter table, by block mode: 0 SLC, 1 TLC, 2 QLC (R157).
UNVERIFIED: log entry 13. -/
opaque refreshTable : Nat → Nat
/-- The threshold in force for a block mode: never above Table 4.7 (R157). -/
def refreshThreshold (mode : Nat) : Nat :=
  min (refreshTable mode) (if mode = 0 then 400000 else if mode = 1 then 120000 else 40000)
/-- Native cell mode of a die, 1 TLC or 2 QLC: channel, position (Table 4.1). UNVERIFIED: log entry 13. -/
opaque cellMode : Nat → Nat → Nat
/-- Rows of a block that share word lines with a row (R184). UNVERIFIED: log entry 13. -/
opaque wordLines : Nat → List Nat
/-- The blocks of the reserve bands as manufactured: channel, position, block and what they hold: 0 map pages, 1 the
journal, 2 the staging flush region, 3 the Rime region, 4 the Moraine region, 5 the device tables (R120, R123).
UNVERIFIED: log entry 13. -/
opaque reserveBlocks : List (Nat × Nat × Nat × Nat)
/-- The index within the reserve bands of a page, by what it holds and its number there (R371).
UNVERIFIED: log entry 13. -/
opaque reservePage : Nat → Nat → Nat
/-- Felt's output for one grain, its header included: the internal format is not given (R311).
UNVERIFIED: log entry 14. -/
opaque feltGrain : List Byte → List Byte
/-- Order among the blocks of a channel with the same erase count: band serial, channel, position, block
(R116, R155). DESIGN CHOICE: log entry 21. -/
opaque placeRank : Nat → Nat → Nat → Nat → Nat

/-! ### The DPLL -/

/-- The period the DPLL runs at after an accepted edge, in 1/1024 tick: the control law is not given (R34, R35), only
its direction and its limits. Arguments: the phase error in ticks and the measured periods. DEDUCED: log entry 15. -/
opaque dpllPeriod : Int → List Nat → Nat

/-! ### Cryptographic functions, named by the spec and defined by the standards it cites -/

/-- SHA-2, SHA-3 and HMAC by ALG (R387): key, message. PRESUMED: log entry 10. -/
opaque digest : Nat → List Byte → List Byte → List Byte
/-- The AES-256 block cipher (FIPS 197): a permutation of the 16-byte blocks for each 32-byte key (R369, R373).
PRESUMED: log entry 10. -/
opaque aes : List Byte → Equiv.Perm (Vector Byte 16)
/-- The first 16 bytes of a list as one block; bytes past its end are zero. -/
def aesBlock (bs : List Byte) : Vector Byte 16 := Vector.ofFn fun i => bs.getD i 0
/-- Encryption of a block. PRESUMED: log entry 10. -/
def aesEnc (key block : List Byte) : List Byte := (aes key (aesBlock block)).toList
/-- Decryption of a block. PRESUMED: log entry 10. -/
def aesDec (key block : List Byte) : List Byte := ((aes key).symm (aesBlock block)).toList
/-- The 48 result bytes of HMAC-SHA-384 (Table 9.10, FIPS 198-1): key, message. PRESUMED: log entry 10. -/
def hmac384 (key message : List Byte) : List Byte := (List.range 48).map fun i => (digest 0x12 key message).getD i 0
/-- The 48 result bytes of SHA-384 (Table 9.10, FIPS 180-4). PRESUMED: log entry 10. -/
def sha384 (message : List Byte) : List Byte := (List.range 48).map fun i => (digest 0x02 [] message).getD i 0
/-- The device root of slot 0 (R354). UNVERIFIED: log entry 11. -/
opaque deviceRoot : List Byte
/-- The n-th draw of the DRBG, of the length given (R361). PRESUMED: log entry 10. -/
opaque random : Nat → Nat → List Byte
/-- An ECDSA P-384 signature, and an ML-DSA-87 signature, over a message verify (R394): public key, message,
signature. PRESUMED: log entry 10. -/
opaque verifyEc : List Byte → List Byte → List Byte → Bool
/-- PRESUMED: log entry 10. -/
opaque verifyMl : List Byte → List Byte → List Byte → Bool
/-- The bulk forms of the four vendor key pairs of the boot ROM (R421). UNVERIFIED: log entry 11. -/
opaque vendorKey : Nat → List Byte
/-- Lengths of the dump sections (R536): dump number, section. UNVERIFIED: log entry 20. -/
opaque dumpLen : Nat → Nat → Nat
/-- The bits of a Deflate block with dynamic codes after its header (Table 8.1): the stream parameters, the input before the
block, and the block. UNVERIFIED: log entry 14. -/
opaque feltDeflate : List Byte → List Byte → List Byte → List Bool
/-- The compressed bytes of one independent block of an LZ4 frame (Table 8.1): the stream parameters and the block.
UNVERIFIED: log entry 14. -/
opaque feltLz4 : List Byte → List Byte → List Byte
/-- The bytes that one block of input adds to an LZ4 block stream (Table 8.1): the stream parameters, the blocks before it
with whether each is in stored form, the block, whether it is stored, and whether it is the last.
UNVERIFIED: log entry 14. -/
opaque feltLz4Part : List Byte → List (List Byte × Bool) → List Byte → Bool → Bool → List Byte

/-! ### Colmus -/

/-- Cycles that a cluster window access waits for its slot in the rotation, of which the low three bits
count: engine and start cycle (R271). UNVERIFIED: log entry 18. -/
opaque windowWait : Nat → Nat → Nat

/-- The engine microcode that a firmware image carries, by its digest (R552). DESIGN CHOICE: log entry 19. -/
opaque microcode : List Byte → Nat

/-! ### DRAM -/

/-- Data bytes of the 4 KiB units that a DRAM row holds (R467). UNVERIFIED: log entry 13. -/
opaque dramRowBytes : Nat

/-- The temperature that a DRAM channel has after a count of operating ticks, in degrees (R462). UNVERIFIED: log entry 13. -/
opaque dramTemp : Nat → Nat → Int
/-- The temperature that a die, by channel and position, has after a count of operating ticks, in degrees (R554).
UNVERIFIED: log entry 13. -/
opaque dieTemp : Nat → Nat → Nat → Int
/-- The post-package repair resources that a channel has at manufacture (R467). UNVERIFIED: log entry 13. -/
opaque repairResources : Nat → Nat

/-! ### Identity -/

/-- UNVERIFIED: log entry 11. -/
opaque serialNumber : List Byte
/-- UNVERIFIED: log entry 11. -/
opaque subsystemNqn : List Byte
/-- UNVERIFIED: log entry 11. -/
opaque firmwareRevision : List Byte
/-- UNVERIFIED: log entry 11. -/
opaque vendorId : Nat
/-- UNVERIFIED: log entry 11. -/
opaque oui : Nat
/-- Identify data that NVMe Base 2.1 fixes and the spec does not repeat: CNS and byte offset (R77).
PRESUMED: log entry 12. -/
opaque identifyByte : Nat → Nat → Byte
/-- Log pages that NVMe Base 2.1 fixes: LID and byte offset (R172). PRESUMED: log entry 12. -/
opaque logByte : Nat → Nat → Byte
/-- The device identity public key (R423). UNVERIFIED: log entry 11. -/
opaque identityKey : List Byte
/-- SPDM certificates, signatures and measurements (R423, R424). UNVERIFIED: log entry 11. -/
opaque certificate : Nat → List Byte
/-- UNVERIFIED: log entry 11. -/
opaque spdmSign : List Byte → List Byte
/-- UNVERIFIED: log entry 11. -/
opaque measurement : Nat → List Byte
/-- NVMe-MI data the spec does not lay out: message, byte offset (R439). PRESUMED: log entry 12. -/
opaque miByte : Nat → Nat → Byte

/-! ### Free values -/

/-- Busy time in ns of a unit class for the bytes it took, where the spec gives the class no rate (R262).
DESIGN CHOICE: log entry 107. -/
opaque unitBusyNs : Nat → Nat → Nat

/-- The n-th free value a step draws. DESIGN CHOICE: log entry 16. -/
opaque freeNat : Nat → Nat
/-- Microcode, firmware and dump bytes that the spec does not give: section and offset (R536).
UNVERIFIED: log entry 20. -/
opaque dumpByte : Nat → Nat → Byte

end Sys2Proof.Config
end

