-- ==== Sys2Proof/Machine/State.lean ====
section
/-! DEFINITION. The state of the FJS-6440: everything the spec gives the device, as plain data. Each
field's comment names the rule and the file of spec/ it comes from, and its value here is its value at
reset: a device as it leaves manufacture (R24, R199), before PWRGD first rises. -/

namespace Sys2Proof.Machine

/-! ### Pins, power and the start -/

/-- The life of the device between two rises of PWRGD. -/
inductive Life where
  | reset        -- PWRGD low (R565)
  | latched      -- the reset of R571 or R579: only a fall and a rise of PWRGD leave it
  | strapHold    -- a reserved strap value (R569)
  | bootHold     -- the boot ROM holds (R422, R455, R534)
  | starting     -- the stages of Table 5.7 (R200)
  | running      -- ready
  | parked       -- after a thermal shutdown (R515)
  deriving DecidableEq, Repr

structure Pins where
  /-- PWRGD as landed, 1 bit. R565 16 -/
  pwrgd : Bool := false
  /-- PFAIL_N asserted (level low), 1 bit. R175 05 -/
  pfail : Bool := false
  /-- HOLDUP_OK, 1 bit. R177 05 -/
  holdupOk : Bool := false
  /-- FAULT_N driven low, 1 bit. R562 16 -/
  fault : Bool := false
  /-- READY, 1 bit. R563 16 -/
  ready : Bool := false
  /-- ALERT_N asserted (driven low), 1 bit. R525 14 -/
  alert : Bool := false
  /-- LED1 lit until this tick, none when dark. R564 16 -/
  led1Until : Option Tick := none
  /-- READY, CYC_OUT, AVSBus and CLKREQ pins are driven (0.1 ms after PWRGD), 1 bit. R567 16 -/
  drivenEarly : Bool := false
  /-- The xSPI pins are driven (0.5 ms after PWRGD), 1 bit. R567 16 -/
  drivenLate : Bool := false
  /-- Channels whose WP_N is driven high, list of 0 to 31. R567 16 -/
  wpHigh : List Nat := []
  /-- Every CE_N is high and every WP_N low: the media is parked, 1 bit. R181 05 -/
  parked : Bool := true
  /-- The DRAM's RESET_N pins are released, 1 bit. R567 16 -/
  dramResetReleased : Bool := false
  deriving DecidableEq, Repr

/-- A write of the xSPI NOR that is queued or under way (R205, R434, R445, R178). -/
inductive NorJob where
  | bank                                                                     -- one step of the commit in progress
  | fw (q : Rq) (recovery : Bool) (offset total : Nat) (data : List Byte)    -- a chunk of a firmware image
  | desc (q : Rq) (d : BoardDesc) (copy : Nat)                               -- a copy of the board descriptor, 0 or 1
  deriving DecidableEq, Repr

structure Boot where
  /-- Where the device is between two rises of PWRGD. R565 16 -/
  life : Life := .reset
  /-- BOOTSEL[1:0] as sampled. R568 16 -/
  bootsel : Nat := 0
  /-- PORTCFG[1:0] as sampled. R568 16 -/
  portcfg : Nat := 0
  /-- The tick PWRGD landed high, or the tick of a restart. R565 16 -/
  landedAt : Tick := 0
  /-- The start stages of Table 5.7 that have ended, 0 to 6. R200 05 -/
  stage : Nat := 0
  /-- The start is dirty (no valid clean record was found), 1 bit. R200 05 -/
  dirty : Bool := false
  /-- START kind of the start that runs or comes next: 0 clean, 1, 2, 3, 5. R523 14 -/
  startKind : Nat := 0
  /-- Settings source of the start: 0 A, 1 B, 2 reserve copy, 3 none. R523 14 -/
  settingsSource : Nat := 3
  /-- A valid clean record stands on media, 1 bit. R199 05 -/
  cleanRecord : Bool := true
  /-- The start waits for PFAIL_N to stay deasserted 10 ms, 1 bit. R188 05 -/
  heldByPfail : Bool := false
  /-- PFAIL_N landed before the device was ready: the start ends at its next verified media write, 1 bit. R188 05 -/
  endedByPfail : Bool := false
  /-- The start has ended so, and the media is parked until the next power-on, 1 bit. R188 05 -/
  startEnded : Bool := false
  /-- A device shutdown was asked for by the board controller: the request to answer. R198 05 -/
  shutdownRq : Option Rq := none
  /-- SMART Unsafe Shutdowns. R199 05 -/
  unsafeShutdowns : Nat := 0
  /-- NOR writes queued or under way, oldest first. R205 05, R434 11 -/
  nor : List NorJob := []
  /-- Records of the start that stand behind START: code, severity and parameters. R581 14 -/
  records : List (Nat × Nat × List Byte) := []
  /-- A factory restore waits for its restart, 1 bit. R415 10 -/
  restore : Bool := false
  /-- Device self-tests, newest first, at most 20: code, operating hours and result. R75 03 -/
  selfTests : List (Nat × Nat × Nat) := []
  deriving DecidableEq, Repr

/-- The power-fail sequence (Table 5.2). -/
structure Pfail where
  /-- Service is stopped as R180 states, 1 bit. R180 05 -/
  stopped : Bool := false
  /-- Step of Table 5.2 in progress, 1 to 6; 0 none, 7 done; 8 and 9 the Rime flush and the dump of a fatal error. R181 05, R533 14 -/
  step : Nat := 0
  /-- The tick PFAIL_N landed for the sequence. R182 05 -/
  landedAt : Tick := 0
  /-- The tick PFAIL_N last deasserted, none while asserted. R185 05 -/
  deassertedAt : Option Tick := none
  /-- The flush image that the sequence in force writes, 0 or 1. R183 05 -/
  image : Nat := 0
  /-- The flush image the sequence record names, 0 or 1, none before the first. R183 05 -/
  imageNamed : Option Nat := none
  /-- The highest ASN the named flush image holds. R181 05 -/
  imageAsn : Nat := 0
  /-- Step 5 of the sequence in force is verified, 1 bit. R186 05 -/
  completed : Bool := false
  deriving DecidableEq, Repr

/-- The hold-up protection (R192 to R197). -/
structure Holdup where
  /-- The board descriptor, 32 bytes, none when absent. R178 05 -/
  desc : Option BoardDesc := none
  /-- The two NOR copies of the descriptor, each with its SHA-384 digest. R178 05 -/
  copies : List (Option (BoardDesc × List Byte)) := [none, none]
  /-- The tick from which HOLDUP_OK has been sampled asserted, none while deasserted. R195 05 -/
  okSince : Option Tick := none
  /-- HOLDUP_OK has been sampled asserted for 1 s since PWRGD landed, 1 bit. R195 05 -/
  okStable : Bool := false
  /-- Result of the last test: none, 0 pass, 1 fail, 2 void. R194 05 -/
  last : Option Nat := none
  /-- Operating time of the last pass, ticks, none when none. R195 05 -/
  passedAt : Option Nat := none
  /-- A sequence was cut short since that pass, 1 bit. R195 05 -/
  cutSince : Bool := false
  /-- An unannounced power loss occurred since that pass, 1 bit. R195 05 -/
  lossSince : Bool := false
  /-- The protection is proven, 1 bit. R195 05 -/
  proven : Bool := false
  /-- The tick in which `proven` last changed: it takes effect on the next. R195 05 -/
  changedAt : Option Tick := none
  /-- Operating time of the end of the last test, ticks. R192 05 -/
  testedAt : Nat := 0
  /-- A test is due, 1 bit. R192 05 -/
  due : Bool := false
  /-- Step of Table 5.4 in progress, 0 none. R193 05 -/
  testStep : Nat := 0
  /-- The running test is void, 1 bit. R194 05 -/
  testVoid : Bool := false
  /-- HOLDUP_OK stayed asserted through the running test, 1 bit. R194 05 -/
  testOk : Bool := false
  /-- E_avail, mJ. R197 05 -/
  eAvail : Nat := 0
  /-- E_step, mJ. R197 05 -/
  eStep : Nat := 0
  /-- V1, mV. R197 05 -/
  v1 : Nat := 0
  /-- V2, mV. R197 05 -/
  v2 : Nat := 0
  /-- Tests passed since manufacture. R197 05 -/
  passes : Nat := 0
  /-- Tests failed or void since manufacture. R197 05 -/
  fails : Nat := 0
  /-- Duration of the last power-fail sequence, us. R197 05 -/
  seqUs : Nat := 0
  /-- Power-fail sequences since manufacture. R197 05 -/
  sequences : Nat := 0
  /-- Unannounced power losses since manufacture. R197 05 -/
  losses : Nat := 0
  /-- Sequences cut short since manufacture. R197 05 -/
  cuts : Nat := 0
  /-- Settings bank writes since manufacture. R197 05 -/
  bankWrites : Nat := 0
  deriving DecidableEq, Repr

/-! ### Firn -/

/-- The lock states of Table 2.2. -/
inductive Lock where
  | freeRun | acquire | locked | holdover
  deriving DecidableEq, Repr

/-- An epoch series (R29): its first beat time, the edges left, and the port that carried the write. -/
structure Series where
  t0 : Nat
  left : Nat
  port : Port
  deriving DecidableEq, Repr

/-- The blank plan (Table 1.7, R47). -/
def Plan.blank : Plan :=
  { source := 0, periodNs := 1000000, fallingEdge := false, cycout := 0, cycoutWidth := 0, cycinFilter := 0,
    epochFn := 0, telemPhase := 0, powerPhase := 0, ovrInterval := 3600,
    windows := [{ start := 0, type := .work }, { start := 3840, type := .maint }] }

structure Firn where
  /-- Firn has started, 1 bit. R33 02 -/
  started : Bool := false
  /-- The plan in force (160 bytes, Tables 2.4 and 2.5). R43 02 -/
  plan : Plan := Plan.blank
  /-- BEAT_COUNT, 64 bits. R40 02 -/
  beat : BitVec 64 := 0
  /-- The phase accumulator, 48 bits; phase is its top 12 bits. R582 02 -/
  acc : BitVec 48 := 0
  /-- The tick at which `acc` was last brought up to date. R41 02 -/
  accTick : Tick := 0
  /-- Wraps of the accumulator whose beat boundary is still to come. R40 02 -/
  owed : Nat := 0
  /-- The period the DPLL runs at, in 1/1024 of a 2 ns tick. R66 02 -/
  period : Nat := 0
  /-- The telemetry snapshot of this beat has been taken, 1 bit. R51 02 -/
  telemDone : Bool := false
  /-- The power-state decision of this beat has been made, 1 bit. R51 02 -/
  powerDone : Bool := false
  /-- The lock state. R32 02 -/
  lock : Lock := .freeRun
  /-- Index of the current window, 4 bits. R66 02 -/
  window : Nat := 0
  /-- Signed phase error of the last accepted edge, 2 ns ticks, saturating at 32767. R66 02 -/
  phErr : Int := 0
  /-- Beats of holdover left, 7 bits. R66 02 -/
  holdLeft : Nat := 0
  /-- Consecutive accepted edges with an error of at most 2 phase steps. R36 02 -/
  good : Nat := 0
  /-- Consecutive accepted edges with an error of more than 16 phase steps. R36 02 -/
  far : Nat := 0
  /-- Consecutive rejected edges. R36 02 -/
  bad : Nat := 0
  /-- Consecutive accepted edges. R36 02 -/
  acceptedRun : Nat := 0
  /-- The last edge of the selected source, none before the first. R34 02 -/
  lastEdge : Option Tick := none
  /-- The last measured periods, newest first, at most 16. R32 02 -/
  periods : List Nat := []
  /-- Deadline of the beat-loss timer, none when it does not run. R37 02 -/
  lossAt : Option Tick := none
  /-- The beat-loss decision waits for the glitch filter, 1 bit. R37 02 -/
  lossDeferred : Bool := false
  /-- The tick at which the current window began. R58 02 -/
  windowAt : Tick := 0
  /-- Windows of this beat for which the bound is not promised: those that R53 excludes, and one that an override
  overlapped. R53, R57 02 -/
  stillExcluded : List Nat := []
  /-- The still tail is open until this tick, none when there is none. R63 02 -/
  tailUntil : Option Tick := none
  /-- The tick at which the STILL window of that tail began. R63 02 -/
  tailSince : Tick := 0
  /-- The suspend point of the next STILL window has passed: the still die group is read-only, 1 bit. R52 02 -/
  suspended : Bool := false
  /-- First overridden beat and task of an announced override. R57 02 -/
  ovrPend : Option (Nat × Nat) := none
  /-- Task and end tick of the override in progress. R57 02 -/
  ovr : Option (Nat × Tick) := none
  /-- First overridden beat of that override. R57 02 -/
  ovrBeat : Nat := 0
  /-- Tick at which the last override began, none before the first. R56 02 -/
  ovrLast : Option Tick := none
  /-- Unsplittable tasks due and not yet served, in the order they fell due: the task (1 DRAM, 2 hold-up, 4 SerDes) and
  its DRAM channel or port. R56 02 -/
  ovrDue : List (Nat × Nat) := []
  /-- The active epoch series. R30 02 -/
  active : Option Series := none
  /-- The queued epoch series. R30 02 -/
  queued : Option Series := none
  /-- Epoch writes rejected since power-on, 32 bits saturating; FIRN_EPOCH_STAT.REJECTED shows at most 65,535. R67 02 -/
  rejectedWrites : Nat := 0
  /-- Accepted edges since power-on, 64 bits. R67 02 -/
  accepted : Nat := 0
  /-- Rejected edges since power-on, 64 bits. R67 02 -/
  rejected : Nat := 0
  /-- Beat-loss declarations since power-on. R67 02 -/
  losses : Nat := 0
  /-- Entries to LOCKED since power-on. R67 02 -/
  lockEntries : Nat := 0
  /-- Per tenant: still-class reads within the bound's conditions, outside them, and misses. R67 02 -/
  stillReads : List (Nat × Nat × Nat × Nat) := []
  /-- The same three counts of tenants since destroyed, which the device's totals keep. R67 02 -/
  stillGone : Nat × Nat × Nat := (0, 0, 0)
  deriving DecidableEq, Repr

/-! ### Links and controllers -/

structure Link where
  /-- PERST of the port asserted, 1 bit. R71 03 -/
  perst : Bool := true
  /-- The link is up, 1 bit. R79 03 -/
  up : Bool := false
  /-- The link is training, 1 bit. R68 03 -/
  training : Bool := false
  /-- Rate in GT/s as log page 0xC7 codes it. R559 15 -/
  rate : Nat := 0
  /-- Width in lanes. R559 15 -/
  width : Nat := 0
  /-- The PTM context is valid until this tick, none when invalid. R31 02 -/
  ptmUntil : Option Tick := none
  /-- The master time that the last successful dialogue gave, in ns, and its tick. R29 02 -/
  ptmBase : Nat × Tick := (0, 0)
  /-- The port's CLKREQ pin is driven low, 1 bit. R573 16 -/
  clkreq : Bool := false
  /-- The link is in L1.2, 1 bit. R573 16 -/
  l12 : Bool := false
  /-- Correctable link errors in the running minute and the minute's first tick. R556 15 -/
  errors : Nat := 0
  errorsSince : Tick := 0
  /-- A re-equalisation is due, 1 bit. R556 15 -/
  reeqDue : Bool := false
  /-- A re-equalisation runs, 1 bit. R557 15 -/
  reeq : Bool := false
  /-- Re-equalisations since power-on. R559 15 -/
  reeqs : Nat := 0
  /-- The full rate is tried again at this tick after a failed redo. R557 15 -/
  retryAt : Option Tick := none
  deriving DecidableEq, Repr

/-- What the device holds of the doorbell tick of one entry (R58). -/
structure Bell where
  tick : Tick
  /-- The window, lock, override and first-beat conditions of R58 held in it. R58 02 -/
  bound : Bool := false
  /-- Map pages of still-class namespaces that were not resident in it: NSID and page. R58 02 -/
  absent : List (Nat × Nat) := []
  deriving DecidableEq, Repr

/-- A submission queue (R81, R85). -/
structure Sq where
  qid : Nat
  size : Nat
  cqid : Nat
  prio : Nat
  head : Nat := 0
  tail : Nat := 0
  /-- The doorbells of the entries not yet fetched, oldest first. R58 02 -/
  bells : List Bell := []
  deriving DecidableEq, Repr

/-- A completion queue (R82, R83). -/
structure Cq where
  qid : Nat
  size : Nat
  vector : Nat
  head : Nat := 0
  tail : Nat := 0
  deriving DecidableEq, Repr

/-- An asynchronous event (R79, R85, R100). -/
inductive Event where
  | invalidDoorbellRegister | invalidDoorbellValue | anaChange | smartWarning | nsAttrChanged
  deriving DecidableEq, Repr

/-- Arbitration feature values (R91). -/
structure Arb where
  ab : Nat := 3
  low : Nat := 0
  medium : Nat := 0
  high : Nat := 0
  deriving DecidableEq, Repr

/-- The mailbox registers and buffers of one function (Table 11.2). -/
structure Mbx where
  /-- MBX_STATUS.BUSY. R435 11 -/
  busy : Bool := false
  /-- MBX_STATUS.OVERRUN. R435 11 -/
  overrun : Bool := false
  /-- MBX_STATUS.RESP_LEN, 13 bits. R435 11 -/
  respLen : Nat := 0
  /-- MBX_CTRL.IRQ_EN. R435 11 -/
  irqEn : Bool := false
  /-- MBX_CTRL.VECTOR, 12 bits. R435 11 -/
  vector : Nat := 0
  /-- MBX_IRQ.DONE. R435 11 -/
  done : Bool := false
  /-- The length the accepted doorbell named, none when no request is in progress by it. R436 11 -/
  doorbell : Option Nat := none
  /-- The request buffer, 4096 bytes. R435 11 -/
  reqBuf : List Host.Cell := []
  /-- The response buffer, 4096 bytes. R436 11 -/
  respBuf : List Byte := []
  deriving DecidableEq, Repr

/-- DEVWIN_ERR (Table 11.14). -/
structure DevErr where
  regErr : Bool := false
  multi : Bool := false
  offset : Nat := 0
  deriving DecidableEq, Repr

/-- The NVMe controller and the device window of one function. -/
structure Ctrl where
  /-- The function. R69 03 -/
  fn : Fn
  /-- CC.EN. R73 03 -/
  en : Bool := false
  /-- CSTS.RDY. R73 03 -/
  rdy : Bool := false
  /-- CC.CSS, 3 bits. R257 06 -/
  css : Nat := 0
  /-- CSTS.SHST: 0, 1 in progress, 2 complete. R198 05 -/
  shst : Nat := 0
  /-- CSTS.CFS. R490 12 -/
  cfs : Bool := false
  /-- Operational state voted, 0 to 2. R495 13 -/
  votePs : Nat := 0
  /-- Non-operational permission voted, none, 3 or 4. R495 13 -/
  votePerm : Option Nat := none
  /-- The last value set through Set Features Power Management. R495 13 -/
  lastPs : Nat := 0
  /-- APSTE. R501 13 -/
  apste : Bool := true
  /-- WCE. R99 03 -/
  wce : Bool := true
  /-- Arbitration in force. R91 03 -/
  arb : Arb := {}
  /-- Arbitration accepted and not yet in force, with the tick of its acceptance. R91 03 -/
  arbStaged : Option (Arb × Tick) := none
  /-- Arbitration saved with Save and Select. R91 03 -/
  arbSaved : Option Arb := none
  /-- Interrupt coalescing threshold and time. R83 03 -/
  coalThr : Nat := 0
  coalTime : Nat := 0
  /-- Vectors that wait for their aggregation time, with the entries counted and the tick of the first. R83 03 -/
  coalWaiting : List (Nat × (Nat × Tick)) := []
  /-- The newest error information log entry: queue, command identifier, first failing LBA and NSID. R114 03 -/
  errorLog : Option (Nat × Nat × Nat × Nat) := none
  /-- I/O queue pairs reserved. R82 03 -/
  pairs : Nat := 0
  /-- I/O submission queues. R81 03 -/
  sqs : List Sq := []
  /-- I/O completion queues. R82 03 -/
  cqs : List Cq := []
  /-- CC.IOCQES, IOSQES, AMS and MPS as written, at their places in CC. R10 00 -/
  ccBits : Nat := 0
  /-- The interrupt mask of INTMS and INTMC, 32 bits. R10 00 -/
  intMask : Nat := 0
  /-- ASQ and ACQ, 64 bits each. R10 00 -/
  asqBase : Nat := 0
  acqBase : Nat := 0
  /-- The admin submission queue. R84 03 -/
  asq : Sq := { qid := 0, size := 4096, cqid := 0, prio := 0 }
  /-- The admin completion queue. R83 03 -/
  acq : Cq := { qid := 0, size := 4096, vector := 0 }
  /-- Slots of outstanding Asynchronous Event Requests, at most 8. R85 03 -/
  aers : List Nat := []
  /-- Events held until a request is outstanding. R85 03 -/
  events : List Event := []
  /-- FIRN_BEAT_HI as latched, 32 bits. R66 02 -/
  beatHi : Word := 0
  /-- FIRN_POS_L as latched, 32 bits. R66 02 -/
  posL : Word := 0
  /-- FIRN_EPOCH_LO, 32 bits. R66 02 -/
  epochLo : Word := 0
  /-- FIRN_EPOCH_HI, 32 bits. R66 02 -/
  epochHi : Word := 0
  /-- FIRN_EPOCH_CTRL.COUNT, 16 bits. R66 02 -/
  epochCount : Nat := 1
  /-- The mailbox of the function. R435 11 -/
  mbx : Mbx := {}
  /-- DEVWIN_ERR. R453 11 -/
  devErr : DevErr := {}
  /-- The MSI-X table of 2,049 entries, in BAR4: bytes other than zero. R70 03 -/
  msixTable : List Host.Cell := []
  /-- The MSI-X pending bits: vectors whose message waits for their mask to clear. R70 03 -/
  msixPending : List Nat := []
  deriving DecidableEq, Repr

/-- Where a command in a slot stands. -/
inductive SlotPhase where
  | fetched          -- fetched, not yet executed (R86)
  | waiting          -- a reading command waits under R95
  | mapWait          -- a map page that its translation needs is being loaded (R131)
  | media            -- die reads or inflation are outstanding
  | dma              -- its last host data transfer is in flight
  | dataIn           -- a writing command's data is outstanding (R93)
  | programming      -- its commit waits for media programs (write-through, FUA)
  | waitEarlier      -- waits for lower-ASN commands (R97, R101, R246)
  | held             -- a held run (R238)
  | running          -- a released run
  | pendingEvent     -- an Asynchronous Event Request
  | aborting         -- an Abort whose timer runs (R105)
  | posted           -- its completion entry is committed, its slot held for R107
  deriving DecidableEq, Repr

/-- A piece of R102 of a writing command. -/
structure Piece where
  lba : Nat
  count : Nat
  room : Bool := false
  arrived : Option (List (List Byte)) := none
  committed : Bool := false
  faulted : Bool := false
  onMedia : Bool := false
  /-- The commit step it belongs to: pieces of one step commit together. R102 03 -/
  step : Nat := 0
  deriving DecidableEq, Repr

/-- A completion status (Tables 3.9 and 6.10). -/
structure Status where
  sct : Nat
  sc : Nat
  dnr : Bool
  deriving DecidableEq, Repr

/-- A slot in use (R84, R86). -/
structure Slot where
  /-- Slot number, 0 to 8191. R84 03 -/
  ix : Nat
  /-- Acceptance sequence number, 48 bits. R86 03 -/
  asn : Nat
  /-- The function whose queue it came from. R69 03 -/
  fn : Fn
  /-- Submission queue identifier. R86 03 -/
  sqid : Nat
  /-- The entry fetched. R110 03 -/
  sqe : Sqe
  /-- Its doorbell. R58 02 -/
  bell : Bell
  /-- Where the command stands. R104 03 -/
  phase : SlotPhase := .fetched
  /-- Pieces of a writing command. R102 03 -/
  pieces : List Piece := []
  /-- Charge taken at admission: grain and frames. R143 04 -/
  charge : List (Nat × Nat) := []
  /-- Data gathered for the host, LBA by LBA. R94 03 -/
  data : List (List Byte) := []
  /-- The conditions of R58 held at the doorbell, 1 bit. R58 02 -/
  bound : Bool := false
  /-- A read step beyond one pass was needed, 1 bit. R62 02 -/
  extra : Bool := false
  /-- Status it will complete with once its transfer ends. R114 03 -/
  outcome : Option Status := none
  /-- Dword 0 of its completion entry. R105 03 -/
  dw0 : Nat := 0
  /-- Abort timers naming it: the Abort's slot and the deadline. R105 03 -/
  timers : List (Nat × Tick) := []
  /-- Its controller was reset: no completion entry is posted, 1 bit. R72 03 -/
  orphan : Bool := false
  /-- Urgent class of its queue, 1 bit. R90 03 -/
  urgent : Bool := false
  /-- The lowest LBA whose data could not be restored. R114 03 -/
  lost : Option Nat := none
  /-- A reading command's versions are chosen: its data no longer depends on other commands. R94 03 -/
  chosen : Bool := false
  /-- Older versions kept for this reading command: LBA, ASN and data. R96 03 -/
  kept : List (Nat × Nat × List Byte) := []
  /-- The host's data of a Compare. R94 03 -/
  cmp : List (List Byte) := []
  /-- The LBAs for which a die read is outstanding, by grain. R147 04 -/
  reads : List Nat := []
  deriving DecidableEq, Repr

/-- A map entry (Table 4.2). -/
structure MapEntry where
  /-- FRAME, 40 bits. R125 04 -/
  frame : Nat := 0
  /-- LEN in frames, 12 bits. R125 04 -/
  len : Nat := 0
  /-- DEALLOC. R125 04 -/
  dealloc : Bool := true
  /-- RAW. R125 04 -/
  raw : Bool := false
  /-- GEN, 8 bits. R125 04 -/
  gen : BitVec 8 := 0
  deriving DecidableEq, Repr

/-- A committed write piece in staging SRAM (R93, R184): its data LBA by LBA. -/
structure Staged where
  asn : Nat
  nsid : Nat
  lba : Nat
  data : List (List Byte)
  /-- The flush image that holds it, 0 or 1. R183 05 -/
  image : Option Nat := none
  /-- Kept in the staging flush region after a media fault, 1 bit. R163 04 -/
  parked : Bool := false
  /-- The commit step it belongs to: pieces of one step commit together. R102 03 -/
  step : Nat := 0
  /-- The piece has taken effect: false for a write-through piece until its map entries commit. R93 03 -/
  committed : Bool := true
  /-- Grains of the piece whose programs are verified, with the entry and data to commit. R184 05 -/
  ready : List (Nat × MapEntry × List (List Byte) × List Nat) := []
  /-- Charges taken for its grains, frames. R144 04 -/
  charge : List (Nat × Nat) := []
  /-- The piece writes zeros: a grain that it covers whole becomes deallocated. R145 04 -/
  zeroes : Bool := false
  /-- The zeros of a deallocated range: the map already says so, and the piece only marks the order. R96 03 -/
  tomb : Bool := false
  deriving DecidableEq, Repr

/-! ### Media -/

/-- A reservation of a namespace (R78). -/
structure Resv where
  rtype : Nat := 0
  holder : Option Fn := none
  registrants : List (Fn × Nat) := []
  gen : Nat := 0
  deriving DecidableEq, Repr

structure Ns where
  /-- NSID, 1 to 1024 for NVM namespaces. R75 03 -/
  nsid : Nat
  /-- Owning tenant. R78 03 -/
  tenant : Nat := 0
  /-- Map grain 32 KiB, 1 bit. R124 04 -/
  grain32 : Bool := false
  /-- LBA format, 0 or 1. R76 03 -/
  lbaf : Nat := 0
  /-- Still class, 1 bit. R119 04 -/
  still : Bool := false
  /-- KEYSRC. R372 09 -/
  keysrc : Nat := 0
  /-- A_n, bytes. R138 04 -/
  assured : Nat := 0
  /-- S_n, bytes. R138 04 -/
  stretch : Nat := 0
  /-- Controllers it is attached to. R78 03 -/
  attached : List Fn := []
  /-- Reservation state. R78 03 -/
  resv : Resv := {}
  /-- The map: entries other than the deallocated, never written one. R125 04 -/
  map : List (Nat × MapEntry) := []
  /-- Map pages resident in DRAM. R130 04 -/
  resident : List Nat := []
  /-- Resident pages changed since they were last written. R132 04 -/
  dirty : List Nat := []
  /-- Map pages written to the reserve bands at least once. R129 04 -/
  written : List Nat := []
  /-- Map pages asked for and not yet loaded. R131 04 -/
  loading : List Nat := []
  /-- Charges of admitted writes in domain 0 and 1, frames. R142 04 -/
  charged : Nat × Nat := (0, 0)
  /-- Lean limit in domain 0 and 1, frames. R169 04 -/
  leanLimit : Nat × Nat := (0, 0)
  /-- Media key table entry: key, none when absent. R369 09 -/
  key : Option (List Byte) := none
  /-- Verifier of a tenant-held key, 16 bytes. R372 09 -/
  verifier : List Byte := []
  /-- Salt of a device-held key, 32 bytes. R372 09 -/
  salt : List Byte := []
  /-- The salt was drawn while debug was unlocked, 1 bit. R427 10 -/
  marked : Bool := false
  /-- A Format NVM or Sanitize in progress: its ASN and kind (true for Sanitize). R97 03 -/
  busyOp : Option (Nat × Bool) := none
  deriving DecidableEq, Repr

/-- The kinds of band (Table 4.1). -/
inductive BandKind where
  | host | relocation | still | reserve
  deriving DecidableEq, Repr

structure Band where
  /-- Band serial. R116 04 -/
  serial : Nat
  kind : BandKind
  /-- Address domain, 0 or 1. R122 04 -/
  domain : Nat
  /-- Band index within the domain. R122 04 -/
  index : Nat
  /-- Data columns at opening, by channel. R118 04 -/
  columns : List Nat
  /-- Columns dropped since, each with the first row it leaves out. R118 04 -/
  dropped : List (Nat × Nat) := []
  /-- Block of each channel: die position and block number. R116 04 -/
  blocks : List (Nat × Nat × Nat)
  /-- Next frame to fill, counted within the band. R117 04 -/
  next : Nat := 0
  /-- Pages whose programs have been issued, counted in band order. R117 04 -/
  issued : Nat := 0
  /-- Pages that were programmed and reported pass, parity pages among them: row and channel. R184 05 -/
  passed : List (Nat × Nat) := []
  /-- Rows whose parity page has been issued. R117 04 -/
  parityIssued : List Nat := []
  /-- The XOR of the data page images of each row, held until its parity page is programmed and that page's image from
  then on. R117 04 -/
  parity : List (Nat × List Byte) := []
  /-- Closed, 1 bit. R118 04 -/
  closed : Bool := false
  deriving DecidableEq, Repr

/-- One block of a die (R155, R156). -/
structure Block where
  die : DieId
  num : Nat
  /-- Erase count. R155 04 -/
  erases : Nat := 0
  /-- Read count, 24 bits saturating. R156 04 -/
  reads : Nat := 0
  /-- Retired, 1 bit. R161 04 -/
  retired : Bool := false
  /-- Queued for refresh, 1 bit. R158 04 -/
  refresh : Bool := false
  /-- An erase was interrupted: not free, 1 bit. R203 05 -/
  erasePending : Bool := false
  /-- A program failed in it: band serial, pages moved, grains moved; it retires once nothing points into it. R161 04 -/
  failed : Option (Nat × Nat × Nat) := none
  /-- Read count as the last map checkpoint saved it. R159 04 -/
  saved : Nat := 0
  /-- Operating ticks of its last sample. R160 04 -/
  sampledAt : Nat := 0
  /-- The last retention pass that read it. R160 04 -/
  pass : Nat := 0
  /-- The copy reads of its refresh have begun inside a STILL window, 1 bit. R55 02 -/
  early : Bool := false
  deriving DecidableEq, Repr

/-- The stored frames of one grain on media (R115, R370). -/
structure Run where
  domain : Nat
  frame : Nat
  len : Nat
  raw : Bool
  nsid : Nat
  grain : Nat
  /-- The logical data that the frames encode, LBA by LBA. R220 06 -/
  data : List (List Byte)
  /-- The ASN of the write each LBA's data came from, 0 for an older start. R96 03 -/
  asns : List Nat
  /-- The media key that the frames are encrypted under. R370 09 -/
  key : List Byte
  /-- The stored frames as they stand on media: LEN × 64 bytes of XTS ciphertext. R370 09 -/
  sealed : List Byte
  /-- The serial of its band. R116 04 -/
  serial : Nat
  /-- Two members of one of its rows could not be read, 1 bit. R148 04 -/
  lost : Bool := false
  deriving DecidableEq, Repr

/-- What a page read is for. -/
inductive ReadUse where
  /-- A host reading command: its ASN, NSID, grain. R147 04 -/
  | host (asn nsid grain : Nat)
  /-- A MEDIA_READ node: run ASN, node, NSID, grain. R222 06 -/
  | node (asn node nsid grain : Nat)
  /-- The rest of a grain that a drained piece covers in part: piece ASN and first LBA, NSID, grain, the compressor and
  whether its verification passed. R128 04, R313 08 -/
  | merge (asn lba nsid grain inst : Nat) (verified : Bool)
  /-- A relocation or refresh copy: NSID and grain. R152 04 -/
  | move (nsid grain : Nat)
  /-- A sample, of the retention pass or not. R160 04 -/
  | sample (pass : Bool)
  /-- A member of a row under rebuild. R583 04 -/
  | member (id : Nat)
  deriving DecidableEq, Repr

/-- An operation a die carries out. The step of a read is 1 (hard decode), 2 to 17 (retries) or 18 to 20 (the three
reads of soft decode) of Table 4.5; the rebuild is the step after (21). -/
inductive DieOp where
  | read (use : ReadUse) (serial row ch step : Nat)
  | program (serial row ch : Nat)
  | erase (block : Nat)
  | recal
  deriving DecidableEq, Repr

/-- The reads of one grain's stored frames (R147). -/
structure Fetch where
  use : ReadUse
  /-- The entry whose frames are read. R244 06 -/
  entry : MapEntry
  serial : Nat
  /-- Pages not yet decoded: row and channel. R147 04 -/
  left : List (Nat × Nat)
  /-- The deepest recovery step that a page came to. R147 04 -/
  step : Nat := 1
  /-- The frames have decoded and wait for a decompressor, 1 bit. R312 08 -/
  inflating : Bool := false
  deriving DecidableEq, Repr

/-- A page under rebuild from die parity (R148, R583). -/
structure Rebuild where
  id : Nat
  /-- The read that asked for it. -/
  use : ReadUse
  serial : Nat
  row : Nat
  ch : Nat
  /-- Channels of the members still to be read. R583 04 -/
  left : List Nat
  deriving DecidableEq, Repr

/-- A grain that has its frames in an open band and whose programs are not yet verified (R153, R184), or, in
`Media.unplaced`, one that waits for a band. -/
structure Placed where
  run : Run
  /-- The entry a copy read; none for a drained grain. R153 04 -/
  source : Option MapEntry
  /-- The staged piece of a drained grain. R144 04 -/
  asn : Nat := 0
  lba : Nat := 0
  /-- Serials of the bands in which its programs failed in a row. R163 04 -/
  failedIn : List Nat := []
  deriving DecidableEq, Repr

structure Die where
  id : DieId
  /-- The operation in progress. R149 04 -/
  op : Option DieOp := none
  /-- Deadline of the poll timer. R149 04 -/
  pollAt : Option Tick := none
  /-- A suspend was asked for at this tick and is not yet reported. R52 02 -/
  suspendAsked : Option Tick := none
  /-- The program or erase that is suspended. R52 02 -/
  held : Option DieOp := none
  /-- The operation was suspended once already, 1 bit. R52 02 -/
  wasSuspended : Bool := false
  /-- The suspend report is late, 1 bit. R165 04 -/
  late : Bool := false
  /-- Operating ticks of late suspend reports in the last 24 operating hours. R165 04 -/
  lateReports : List Nat := []
  /-- Treated as declaring no suspend support, 1 bit. R165 04 -/
  noSuspend : Bool := false
  /-- A reset is in progress, 1 bit. R149 04 -/
  resetting : Bool := false
  /-- Isolated: none, or the cause 0 to 2. R166 04 -/
  isolated : Option Nat := none
  /-- Awaits read-level recalibration, 1 bit. R554 15 -/
  recalDue : Bool := false
  /-- Operating ticks of the last calibration. R554 15 -/
  calibratedAt : Nat := 0
  /-- The operating hour counted, its page reads, and those that reached step 2 of Table 4.5. R554 15 -/
  hourReads : Nat × Nat × Nat := (0, 0, 0)
  /-- The tenant whose graph reads have the turn at this die, and the reads of the turn served. R222 06 -/
  turn : Nat × Nat := (0, 0)
  deriving DecidableEq, Repr

/-- A relocation victim queued by R161, R162 or R167: a band, a failed block, or an isolated die. -/
inductive Victim where
  | band (serial : Nat)
  | block (d : DieId) (num : Nat)
  | die (d : DieId)
  deriving DecidableEq, Repr

/-- The device states of R168. -/
inductive DevState where
  | normal | lean | preserve
  deriving DecidableEq, Repr

/-- The map shelf (R133 to R136). -/
structure Shelf where
  /-- 0 none, 1 in use, 2 dropped. R173 04 -/
  state : Nat := 0
  port : Port := .a
  ranges : List (Nat × Nat) := []
  /-- The shelf key, drawn at each start, 32 bytes. R134 04 -/
  key : List Byte := []
  /-- Pages with a copy on the shelf: NSID, page, its place on the shelf, and the copy's 16-byte tag. R134 04 -/
  pages : List (Nat × Nat × Nat × List Byte) := []
  /-- Tag failures since power-on, and those of the running operating hour with its start. R135 04 -/
  failures : Nat := 0
  hourFailures : List Nat := []
  deriving DecidableEq, Repr

/-- A live-safe change accepted and not yet in force (R451). -/
inductive Live where
  | fetchWeight (tenant value : Nat)
  | mediaShare (tenant value : Nat)
  | unitShare (tenant value : Nat)
  | telemMask (value : Nat)
  | idleMs (ps value : Nat)
  | edges (starts : List Nat)
  deriving DecidableEq, Repr

structure Media where
  /-- NORMAL, LEAN or PRESERVE. R168 04 -/
  dev : DevState := .normal
  /-- Open and closed bands. R116 04 -/
  bands : List Band := []
  /-- The serial of the last band opened. R116 04 -/
  serial : Nat := 0
  /-- Blocks with a history. R155 04 -/
  blocks : List Block := []
  /-- Stored frames on media. R115 04 -/
  runs : List Run := []
  /-- Dies with an operation or a history. R149 04 -/
  dies : List Die := []
  /-- Operations that wait at their dies, oldest first. R18 01 -/
  waiting : List (DieId × DieOp) := []
  /-- Reads of grains in progress. R147 04 -/
  fetches : List Fetch := []
  /-- Rebuilds in progress, and the number of the last. R148 04 -/
  rebuilding : List Rebuild := []
  rebuildSeq : Nat := 0
  /-- Grains in open bands that are not yet verified. R184 05 -/
  placed : List Placed := []
  /-- Copies read and not yet given a place in a band. R55 02 -/
  unplaced : List Placed := []
  /-- Reserve-band blocks moved out of the still die group: channel, position and block, old and new. R120 04 -/
  reserveMoved : List ((Nat × Nat × Nat) × (Nat × Nat × Nat)) := []
  /-- Pages of the reserve bands as they stand on media, by page index: XTS ciphertext. R371 09 -/
  reserve : List (Nat × List Byte) := []
  /-- Spare blocks used, by channel. R168 04 -/
  spareUsed : List (Nat × Nat) := []
  /-- Victims queued for relocation ahead of wear levelling, oldest first. R150 04 -/
  relocQueue : List Victim := []
  /-- Blocks queued for refresh, oldest first. R158 04 -/
  refreshQueue : List (DieId × Nat) := []
  /-- Host frames drained that paced relocation has not yet answered, by domain. R151 04 -/
  owed : Nat × Nat := (0, 0)
  /-- Entries replaced by journal records that still stand in the delta buffer, newest first. R187 05, R189 05 -/
  undo : List (Nat × Nat × MapEntry) := []
  /-- Pieces of the flush image whose drain record still stands in the delta buffer. R201 05 -/
  undoPieces : List Staged := []
  /-- Live-safe values whose records the journal on media holds, with the tick in which they took effect. R191 05 -/
  liveRecs : List (Tick × Live) := []
  /-- A media fault was declared, 1 bit. R163 04 -/
  fault : Bool := false
  /-- Pinned grains: run ASN, NSID, grain and the entry pinned. R244 06 -/
  pins : List (Nat × Nat × Nat × MapEntry) := []
  /-- Map cache mode, 1 bit. R130 04 -/
  cacheMode : Bool := false
  /-- The map shelf. R133 04 -/
  shelf : Shelf := {}
  /-- Journal bytes held, by map page (NSID and page; NSID 0 for records of no map page). R190 05 -/
  journal : List ((Nat × Nat) × Nat) := []
  /-- Journal pages written since manufacture, which gives each its index in the reserve bands. R371 09 -/
  journalPages : Nat := 0
  /-- Delta buffer: pending journal records. R189 05 -/
  delta : Nat := 0
  /-- Map pages are also written in WORK windows, 1 bit. R190 05 -/
  forcedWrites : Bool := false
  /-- Logical bytes of all mapped grains and their stored bytes, as last measured. R141 04 -/
  measured : Nat × Nat := (0, 0)
  /-- The damaged-LBA list, at most 65,536. R474 12 -/
  damaged : List (Nat × Nat) := []
  /-- Host data programmed since manufacture, bytes. R173 04 -/
  hostBytes : Nat := 0
  /-- Relocation and refresh data programmed since manufacture, bytes. R173 04 -/
  relocBytes : Nat := 0
  /-- Blocks retired since manufacture. R173 04 -/
  retired : Nat := 0
  /-- Program failures since manufacture. R173 04 -/
  programFails : Nat := 0
  /-- Program failures in relocation and still bands since manufacture. R173 04 -/
  relocFails : Nat := 0
  /-- Erase failures since manufacture. R173 04 -/
  eraseFails : Nat := 0
  /-- Refresh relocations by read count, and by sampling, since power-on. R173 04 -/
  refreshByCount : Nat := 0
  refreshBySample : Nat := 0
  /-- Length of the last full retention pass in operating hours, progress in 0.01 %. R173 04 -/
  retentionHours : Nat := 0
  retentionProgress : Nat := 0
  /-- Parity rebuilds since power-on. R173 04 -/
  rebuilds : Nat := 0
  /-- Unrecovered Read Errors since manufacture. R172 04 -/
  unrecovered : Nat := 0
  /-- Map page loads since power-on. R173 04 -/
  mapLoads : Nat := 0
  /-- Late suspend reports since power-on. R173 04 -/
  lateSuspends : Nat := 0
  /-- Relocation quanta released in this WORK window, 1 bit. R152 04 -/
  quantaReleased : Bool := false
  /-- The retention pass in progress, and the operating hour in which it began. R160 04 -/
  pass : Nat := 1
  passSince : Nat := 0
  deriving DecidableEq, Repr

/-! ### Compute graphs -/

/-- A loaded graph image (R213): its bytes as loaded, its tenant and index. -/
structure Image where
  tenant : Nat
  index : Nat
  bytes : List Byte
  active : Bool := false
  deactivating : Bool := false
  unloading : Bool := false
  deriving DecidableEq, Repr

/-- One chunk in a lane's buffer (R233). -/
structure Chunk where
  bytes : List Byte
  last : Bool := false
  /-- Offsets of its 64-bit words that carry a poison tag. R237 06 -/
  poison : List Nat := []
  deriving DecidableEq, Repr

/-- One lane of an edge (R230, R234). -/
structure Lane where
  edge : Nat
  ix : Nat
  /-- Chunks in the buffer, oldest first. R234 06 -/
  chunks : List Chunk := []
  /-- Bytes of the oldest chunk already consumed. R277 07 -/
  taken : Nat := 0
  /-- Credits held by the source. R234 06 -/
  credits : Nat
  /-- Bytes of answers already taken in turn and not yet a whole chunk; it stands in the first lane of the edge. R308 08 -/
  packed : List Byte := []
  /-- The end mark has been sent, 1 bit. R230 06 -/
  ended : Bool := false
  /-- The end mark has been consumed, 1 bit. R243 06 -/
  endTaken : Bool := false
  /-- Bytes of the source not yet sent: its current output chunk, and what waits for credit. R235 06, R278 07 -/
  backlog : List Byte := []
  /-- The backlog ends the stream, 1 bit. R235 06 -/
  backlogEnd : Bool := false
  /-- The tick from which the source has been stopped for credit, none while it is not. R262 06 -/
  stalled : Option Tick := none
  /-- Bytes of the lane's whole answers waiting for their turn, oldest first. R308 08 -/
  answers : List (List Byte) := []
  deriving DecidableEq, Repr

/-- Where a node replica stands. -/
inductive RepState where
  | waiting | running | ended
  deriving DecidableEq, Repr

/-- One replica of a node of a run (R211, R243). -/
structure Replica where
  node : Nat
  ix : Nat
  state : RepState := .waiting
  /-- Node status of Table 6.9 and its detail. R249 06 -/
  status : Nat := 9
  detail : Nat := 0
  /-- A failure noted that takes effect when the end mark is consumed. R324 08 -/
  failing : Option (Nat × Nat) := none
  /-- Tick at which the watchdog expires. R250 06 -/
  watchdogAt : Option Tick := none
  /-- Bytes written by a sink. R227 06 -/
  written : Nat := 0
  /-- The tick at which it started, none before. R243 06 -/
  startedAt : Option Tick := none
  /-- Engine position assigned, for ENGINE. R240 06 -/
  engine : Option Nat := none
  /-- Unit instance it is bound to. R320 08 -/
  unit : Option Nat := none
  /-- Units of input taken by a Felt, cipher or digest job. R381 09 -/
  fed : List Byte := []
  /-- Results produced so far by a Twill node's bulk load: the last key. R348 08 -/
  bulkLast : Option Nat := none
  /-- A Twill bulk load, a GCM tag check or the passing of an end is done. R348 08, R379 09, R243 06 -/
  bulkDone : Bool := false
  /-- FELT_PACK: indexes of the blocks in stored form. R314 08 -/
  stored : List Nat := []
  /-- FELT_PACK and FELT_UNPACK: bytes of output delivered. R313 08, R322 08 -/
  produced : Nat := 0
  /-- The result a DIGEST replica places when it ends. R390 09 -/
  result : List Byte := []
  deriving DecidableEq, Repr

/-- One execution of a graph image (R231). -/
structure GRun where
  /-- ASN of the run. R231 06 -/
  asn : Nat
  tenant : Nat
  slot : Nat
  fn : Fn
  /-- Program index and the image bytes. R231 06 -/
  index : Nat
  image : List Byte
  /-- The argument block, 64 to 4096 bytes. R231 06 -/
  args : List Byte
  /-- Host bytes that HOST_SOURCE nodes read, per node in index order. R226 06 -/
  hostData : List (List Byte)
  fetchedAt : Tick
  released : Option Tick := none
  replicas : List Replica := []
  lanes : List Lane := []
  /-- Turn of each edge with more than one lane: next destination and source lane. R230 06 -/
  turns : List (Nat × Nat × Nat) := []
  /-- Logical bytes delivered by media chains. R232 06 -/
  mediaBytes : Nat := 0
  /-- Bytes discarded under TRUNC_OK. R232 06 -/
  discarded : Nat := 0
  /-- First LBA of the failing grain. R223 06 -/
  failLba : Nat := 0
  /-- Next LBA that each media chain delivers, per MEDIA_READ node. R220 06 -/
  mediaNext : List (Nat × Nat) := []
  /-- Logical data read and not yet delivered: node, LBA, data. R221 06 -/
  mediaReady : List (Nat × Nat × List Byte) := []
  /-- Ranges that MEDIA_READ nodes read: node, NSID, first LBA and count. R220 06 -/
  reads : List (Nat × Nat × Nat × Nat) := []
  /-- Older versions kept for the run: NSID, LBA, ASN and data. R244 06 -/
  kept : List (Nat × Nat × Nat × List Byte) := []
  /-- Die reads outstanding: node and grain. R221 06 -/
  dieReads : List (Nat × Nat) := []
  /-- Next LBA that each media chain translates, per MEDIA_READ node. R220 06 -/
  translate : List (Nat × Nat) := []
  /-- Stored frames held, per grain: node, grain and frames. R221 06 -/
  frames : List (Nat × Nat × Nat) := []
  /-- Edge buffers in cluster SRAM: cluster, offset in the partition, length. R236 06 -/
  buffers : List (Nat × Nat × Nat) := []
  /-- The tick from which a media chain has been stopped under R221. R262 06 -/
  chainStall : Option Tick := none
  deriving DecidableEq, Repr

/-- A memory range set (R257). -/
structure RangeSet where
  tenant : Nat
  id : Nat
  ranges : List (Nat × Nat)
  deriving DecidableEq, Repr

/-- Use of one engine position by one tenant (Tables 6.11 and 6.12). -/
structure EngUse where
  pos : Nat
  tenant : Nat
  /-- Ticks for which it ran the tenant's dispatches since power-on, and in the running beat. R262 06 -/
  busy : Nat := 0
  beat : Nat := 0
  /-- Dispatches since power-on. R262 06 -/
  dispatches : Nat := 0
  /-- Highest ready-list depth. R262 06 -/
  depth : Nat := 0
  deriving DecidableEq, Repr

/-- Use of one unit class by one tenant (Table 6.12). -/
structure UnitUse where
  cls : Nat
  tenant : Nat
  /-- Chunks served and input bytes taken. R262 06 -/
  chunks : Nat := 0
  bytes : Nat := 0
  /-- Highest number of waiting replicas. R262 06 -/
  waiting : Nat := 0
  deriving DecidableEq, Repr

/-- Dispatcher counts of one tenant (Tables 6.11 and 6.12). -/
structure DspCount where
  tenant : Nat
  highOps : Nat := 0
  released : Nat := 0
  ok : Nat := 0
  failed : Nat := 0
  aborted : Nat := 0
  mediaBytes : Nat := 0
  hostSink : Nat := 0
  slmSink : Nat := 0
  traps : List (Nat × Nat) := []
  watchdogs : Nat := 0
  poisons : Nat := 0
  delayedPins : Nat := 0
  edgeStall : Nat := 0
  chainStall : Nat := 0
  /-- Longest wait at the head of a ready list in the running beat, ticks. R261 06 -/
  waitMax : Nat := 0
  deriving DecidableEq, Repr

structure Compute where
  /-- Resident graph images. R209 06 -/
  images : List Image := []
  /-- Runs held or released. R238 06 -/
  runs : List GRun := []
  /-- Memory range sets. R257 06 -/
  sets : List RangeSet := []
  /-- SLM of each tenant: bytes other than zero. R258 06 -/
  slm : List (Nat × List Host.Cell) := []
  /-- SLM lines that carry poison. R457 12 -/
  slmPoison : List (Nat × Nat) := []
  /-- Cluster SRAM partitions: tenant, cluster, bytes other than zero. R267 07 -/
  sram : List (Nat × Nat × List Host.Cell) := []
  /-- Cluster SRAM words that carry a poison tag: tenant, cluster, offset. R237 06 -/
  sramPoison : List (Nat × Nat × Nat) := []
  /-- Ready list of each engine position: run ASN, node, replica, oldest first. R240 06 -/
  ready : List (Nat × List (Nat × Nat × Nat)) := []
  /-- The run each engine position serves. R241 06 -/
  dispatched : List (Nat × Nat × Nat × Nat) := []
  /-- Turn of each unit class: tenant and chunks served in its turn. R242 06 -/
  turns : List (Nat × Nat × Nat) := []
  /-- Counts since power-on, per tenant. R262 06 -/
  counts : List DspCount := []
  /-- Dispatcher registers of the last snapshot: tenant, then ops, images, runs, held, ready, assigned. R261 06 -/
  snapshot : List (Nat × List Nat) := []
  /-- Use of engines and of unit classes since power-on. R262 06 -/
  engUse : List EngUse := []
  unitUse : List UnitUse := []
  /-- Highest ops in flight device-wide, and highest number of waiting replicas of each unit class. R262 06 -/
  highOps : Nat := 0
  highWaiting : List (Nat × Nat) := []
  /-- The tick of the last telemetry snapshot. R261 06 -/
  beatAt : Tick := 0
  /-- The tick at which the present head of each ready list became its head. R261 06 -/
  headSince : List (Nat × Tick) := []
  deriving DecidableEq, Repr

/-! ### Colmus engines -/

/-- A register of an engine that a write in flight names (Table 7.7). -/
inductive Reg where
  | d (i : Nat) | a (i : Nat) | acc (i : Nat) | ph | pl | flags
  deriving DecidableEq, Repr

/-- A write in flight (R280): the cycle it lands in, its register and value.
`add` says the value is added to the accumulator when it lands (R282). -/
structure Flight where
  lands : Nat
  reg : Reg
  value : BitVec 72
  add : Bool := false
  deriving DecidableEq, Repr

/-- An open hardware loop (R298): first and last address of its body and the iterations left. -/
structure Loop where
  first : Nat
  last : Nat
  left : Nat
  deriving DecidableEq, Repr

/-- One physical Colmus engine (R263). -/
structure Engine where
  /-- Physical number, 0 to 71. R480 12 -/
  ix : Nat
  /-- 0 in service, 1 spare, 2 failed. R492 12 -/
  status : Nat
  /-- Logical position, none when it has none. R480 12 -/
  pos : Option Nat
  /-- A dispatch runs: run ASN, node, replica. R241 06 -/
  job : Option (Nat × Nat × Nat) := none
  /-- D0 to D15, 32 bits each. R263 07 -/
  d : Vector Word 16 := Vector.replicate 16 0
  /-- A0 to A15, 32 bits each. R263 07 -/
  a : Vector Word 16 := Vector.replicate 16 0
  /-- ACC0 to ACC3, 72 bits each. R263 07 -/
  acc : Vector (BitVec 72) 4 := Vector.replicate 4 0
  /-- PH, 32 bits. R264 07 -/
  ph : Word := 0
  /-- PL, 32 bits. R264 07 -/
  pl : Word := 0
  /-- PC: byte address of the issuing instruction. R263 07 -/
  pc : Nat := 0
  /-- FLAGS.N, Z, C, V. R264 07 -/
  n : Bool := false
  z : Bool := false
  c : Bool := false
  v : Bool := false
  /-- ENGCFG.MODE: open mode, 1 bit. R264 07 -/
  openMode : Bool := false
  /-- ENGCFG.CLUSTER, 3 bits. R264 07 -/
  cluster : Nat := 0
  /-- SLIM, 32 bits. R264 07 -/
  slim : Word := 0
  /-- Open hardware loops, innermost first, at most 2; LOOPCNT is the first's count. R298 07 -/
  loops : List Loop := []
  /-- The cycle in which the next instruction may issue. R280 07 -/
  cycle : Nat := 0
  /-- Writes in flight. R280 07 -/
  flight : List Flight := []
  /-- Open mode: target of a taken branch and delay slots left. R284 07 -/
  delay : Option (Option Nat × Nat) := none
  /-- Instruction memory, 64 KiB: bytes other than zero. R265 07 -/
  imem : List Host.Cell := []
  /-- X bank, 128 KiB: bytes other than zero. R265 07 -/
  x : List Host.Cell := []
  /-- Y bank, 128 KiB: bytes other than zero. R265 07 -/
  y : List Host.Cell := []
  /-- Bank bytes with an uncorrectable error or poison, by data address. R269 07 -/
  bad : List Nat := []
  /-- The trap that ended the dispatch: cause, PC, data address. R306 07 -/
  trap : Option (Nat × Nat × Nat) := none
  /-- The dispatch ended by HALT, 1 bit. R279 07 -/
  halted : Bool := false
  /-- Fenced, 1 bit. R488 12 -/
  fenced : Bool := false
  /-- Operating ticks of the last full self-test pass. R482 12 -/
  passedAt : Option Nat := none
  /-- Quanta of the running self-test that have passed, 0 to 24. R482 12 -/
  quanta : Nat := 0
  /-- A self-test quantum runs on it, 1 bit. R482 12 -/
  testing : Bool := false
  /-- A self-test was asked for, 1 bit. R491 12 -/
  testDue : Bool := false
  /-- Operating ticks of uncorrectable bank errors within 24 operating hours. R481 12 -/
  bankErrors : List Nat := []
  /-- Flag bit 0 of log page 0xC5: brought in by Calving, 1 bit. R262 06 -/
  calved : Bool := false
  /-- Microcode of the running image taken, 1 bit. R552 15 -/
  newMicrocode : Bool := true
  deriving DecidableEq, Repr

/-! ### Twill -/

/-- An entry of a Twill partition: the slot it stands in, key (128 bits, byte 0 most significant) and value. -/
structure TwEntry where
  slot : Nat
  key : Nat
  value : BitVec 64
  deriving DecidableEq, Repr

/-- One tenant's partition (R336). -/
structure TwPart where
  tenant : Nat
  /-- Entries in ascending key order. R338 08 -/
  entries : List TwEntry := []
  /-- Entries lost to parity since creation. R353 08 -/
  lost : Nat := 0
  /-- Re-spreads since power-on. R353 08 -/
  respreads : Nat := 0
  /-- Slots that fail their parity and have not yet been met. R349 08 -/
  bad : List Nat := []
  deriving DecidableEq, Repr

structure Twill where
  parts : List TwPart := []
  /-- Tick of the last complete background scan. R353 08 -/
  scannedAt : Tick := 0
  /-- Fabric cycles held by updates since power-on. R345 08 -/
  cycles : Nat := 0
  deriving DecidableEq, Repr

/-! ### Units: Felt, sieves, cipher lanes, digest engines, key store -/

/-- A job on a general lane or a digest engine (R380): its run, node and replica, or a device job. -/
structure Job where
  asn : Nat
  node : Nat
  replica : Nat
  tenant : Nat
  urgent : Bool := false
  /-- MODE of a lane job or ALG of a digest job. R383 09 -/
  mode : Nat := 0
  /-- Key slot and generation at the copy; 0 for a derived key. R383 09 -/
  kslot : Nat := 0
  kgen : Nat := 0
  /-- Working key. R383 09 -/
  key : List Byte := []
  /-- IV or tweak base. R383 09 -/
  iv : List Byte := []
  /-- Input bytes taken so far, in order: the chain, accumulator and partial block are functions of them. R383 09 -/
  input : List Byte := []
  /-- Output bytes already delivered. R383 09 -/
  emitted : Nat := 0
  /-- Input taken since the job last took the unit. R381 09 -/
  quantum : Nat := 0
  deriving DecidableEq, Repr

/-- One general cipher lane or digest engine: units 0 to 3 and 4 to 7. -/
structure Unit8 where
  ix : Nat
  /-- In service, 1 bit. R487 12 -/
  inService : Bool := true
  /-- The job running. R380 09 -/
  job : Option Job := none
  /-- The context store, at most 16 contexts in the clear. R382 09 -/
  store : List Job := []
  /-- Store entries withdrawn. R469 12 -/
  withdrawn : Nat := 0
  deriving DecidableEq, Repr

/-- One Felt instance: 0 to 3 compressors, 4 to 7 decompressors. -/
structure Felt where
  ix : Nat
  /-- In service, 1 bit. R315 08 -/
  inService : Bool := true
  /-- Operating ticks of verification failures within one operating hour. R315 08 -/
  failures : List Nat := []
  /-- Stream contexts in use: run ASN, node and replica, at most 4. R320 08 -/
  contexts : List (Nat × Nat × Nat) := []
  deriving DecidableEq, Repr

/-- One key store slot (Table 9.1); bits above SIZE are zero. -/
structure KeySlot where
  slot : Nat
  owner : Nat := 0
  valid : Bool := false
  persist : Bool := false
  size : Nat := 0
  uMedia : Bool := false
  uEnc : Bool := false
  uDec : Bool := false
  uHmac : Bool := false
  uKdf : Bool := false
  exportable : Bool := false
  origin : Nat := 0
  gen : Nat := 0
  /-- Key bits, 64 bytes. R354 09 -/
  key : List Byte := []
  /-- Placed while debug was unlocked, 1 bit. R427 10 -/
  marked : Bool := false
  /-- Claimed by a DIGEST replica as OUTSLOT: run ASN and node. R390 09 -/
  claimed : Option (Nat × Nat) := none
  deriving DecidableEq, Repr

/-- A digest register entry (Table 9.12). -/
structure DigestReg where
  tenant : Nat
  ix : Nat
  alg : Nat
  asn : Nat
  value : List Byte
  deriving DecidableEq, Repr

structure Units where
  lanes : List Unit8 := [⟨0, true, none, [], 0⟩, ⟨1, true, none, [], 0⟩, ⟨2, true, none, [], 0⟩, ⟨3, true, none, [], 0⟩]
  digests : List Unit8 := [⟨4, true, none, [], 0⟩, ⟨5, true, none, [], 0⟩, ⟨6, true, none, [], 0⟩, ⟨7, true, none, [], 0⟩]
  /-- Jobs ready and waiting for a unit, in the order they became ready: digest class, run ASN, node, replica. R380 09 -/
  waiting : List (Bool × Nat × Nat × Nat) := []
  /-- Contexts wrapped in DRAM, 2 MiB: unit class (true for digests), wrap counter and job. R382 09 -/
  wrapped : List (Bool × Nat × Job) := []
  /-- Wrapped contexts that a DRAM error poisoned: run ASN, node, replica. R457 12 -/
  lost : List (Nat × Nat × Nat) := []
  /-- Wrap counter of the start. R384 09 -/
  wraps : Nat := 0
  felts : List Felt := [⟨0, true, [], []⟩, ⟨1, true, [], []⟩, ⟨2, true, [], []⟩, ⟨3, true, [], []⟩, ⟨4, true, [], []⟩, ⟨5, true, [], []⟩, ⟨6, true, [], []⟩, ⟨7, true, [], []⟩]
  /-- Sieve units out of service. R487 12 -/
  sievesOut : List Nat := []
  /-- The Twill unit is in service, 1 bit. R487 12 -/
  twillIn : Bool := true
  /-- Key store slots with a history; the others are empty with generation 0. Slot 0 is the device root. R354 09 -/
  keys : List KeySlot := [{ slot := 0, owner := 0x100, valid := true, persist := true, size := 2, uKdf := true }]
  /-- The owner seed, 48 bytes; a blank device uses zeros. R364 09 -/
  seed : List Byte := List.replicate 48 0
  /-- Digest registers written. R391 09 -/
  digestRegs : List DigestReg := []
  /-- Draws made from the DRBG: the salt of the blank device's namespace was the first. R361 09 -/
  draws : Nat := 1
  deriving DecidableEq, Repr

/-! ### Tenants, sessions and settings -/

/-- Tenant states (Table 10.3); a number not listed is ABSENT. -/
inductive TState where
  | stopped | running | destroying
  deriving DecidableEq, Repr

/-- An installed program image (R274). -/
structure ProgImage where
  id : Nat
  bytes : List Byte
  deriving DecidableEq, Repr

/-- The blank record of tenant t (Table 11.9). DESIGN CHOICE: log entry 2. -/
def TenRec.blank (t : Nat) : TenRec :=
  if t = 0 then
    { tenant := 0, ports := 3, hostAdmin := 0x0F, urgentOk := true, fetchWeight := 1, mediaShare := 1, unitShare := 1,
      ioqQuota := 2048, slotQuota := 8128, opQuota := 4096, imageQuota := 1024, engineQuota := 64, holeLog2 := 4,
      keyQuota := 1008, twillSlots := 1179648, slmSize := 0, sramPart := [64, 64, 64, 64, 64, 64, 64, 64],
      tenantCred := [], progCred := [] }
  else
    { tenant := t, ports := 0, hostAdmin := 0, urgentOk := false, fetchWeight := 1, mediaShare := 1, unitShare := 1,
      ioqQuota := 0, slotQuota := 0, opQuota := 0, imageQuota := 0, engineQuota := 0, holeLog2 := 4,
      keyQuota := 0, twillSlots := 0, slmSize := 0, sramPart := [0, 0, 0, 0, 0, 0, 0, 0], tenantCred := [], progCred := [] }

structure Tenant where
  num : Nat
  /-- STOPPED, RUNNING or DESTROYING. R403 10 -/
  state : TState := .running
  /-- A stop is draining, 1 bit. R450 11 -/
  draining : Bool := false
  /-- The grace period of the stop ends at this tick. R253 06 -/
  graceAt : Option Tick := none
  /-- The endpoint whose stop request waits for the drain. R450 11 -/
  stopRq : Option Rq := none
  /-- Creation sequence, 32 bits. R402 10 -/
  creation : Nat := 1
  /-- The tenant record in force. R447 11 -/
  cfg : TenRec
  /-- Bulk form of the tenant credential, empty when none. R394 10 -/
  cred : List Byte := []
  /-- Bulk form of the program-signing credential. R394 10 -/
  progCred : List Byte := []
  /-- Installed program images. R275 07 -/
  progs : List ProgImage := []
  /-- SANITIZE in progress by this tenant: ASN and block erase. R414 10 -/
  sanitize : Option (Nat × Bool) := none
  /-- A SANITIZE of this tenant has completed, 1 bit. R414 10 -/
  sanitized : Bool := false
  deriving DecidableEq, Repr

/-- The blank device record (Table 11.9). DESIGN CHOICE: log entry 2. -/
def DevRec.blank : DevRec :=
  { stillDiePositions := 0, telemMask := 3, computeRes := 0, idleMs := [0, 0, 0, 0], plan := Plan.blank }

/-- A settings set: the device record and the records of the tenants it does not leave blank. -/
structure SetBody where
  dev : DevRec := DevRec.blank
  tens : List TenRec := []
  deriving DecidableEq, Repr

/-- A settings bank (Table 5.8), or the reserve-band copy. -/
structure Bank where
  gen : Nat
  body : SetBody
  /-- SHA-384 of the header and body. R204 05 -/
  digest : List Byte
  /-- COMMIT, all ones until it is programmed. R204 05 -/
  commit : Nat
  deriving DecidableEq, Repr

/-- A request that commits a settings set (R205, R448, R449). -/
inductive Commit where
  | set (q : Rq) (base : Nat)
  | create (q : Rq) (rec : TenRec) (cred : List Byte)
  | cred (q : Rq) (tenant : Nat) (prog : Bool) (cred : List Byte)
  | live                                                  -- the hourly write of live-safe values (R208)
  deriving DecidableEq, Repr

structure Settings where
  /-- NOR bank A, none when invalid. R204 05 -/
  bankA : Option Bank := none
  /-- NOR bank B. R204 05 -/
  bankB : Option Bank := none
  /-- The copy in the reserve bands. R205 05 -/
  copy : Option Bank := none
  /-- GENERATION in force, 64 bits. R204 05 -/
  gen : Nat := 0
  /-- The device record in force. R447 11 -/
  dev : DevRec := DevRec.blank
  /-- The staged copy and its base generation. R447 11 -/
  staged : Option (Nat × SetBody) := none
  /-- A commit in progress: step of R205 (1 to 4, 5 awaiting the boundary), the set, and its request. R205 05 -/
  commit : Option (Nat × SetBody × Commit) := none
  /-- Requests that wait for the commit in progress, oldest first. R434 11 -/
  commitQueue : List Commit := []
  /-- The tick in which that commit began. R208 05 -/
  commitAt : Tick := 0
  /-- Live-safe changes awaiting a boundary, with the tick of acceptance, oldest first. R451 11 -/
  live : List (Tick × Live) := []
  /-- Live-safe values recorded in the journal and not yet banked, with the tick in which they took effect. R208 05 -/
  journalled : List (Tick × Live) := []
  /-- Operating ticks of the last bank write of live-safe settings. R208 05 -/
  bankedAt : Option Nat := none
  deriving DecidableEq, Repr

/-- One mailbox endpoint with a history (R432, R444). -/
structure Ep where
  ep : Endpoint
  /-- The session: role (1 owner, 2 tenant), tenant and the tick of the last request. R397 10 -/
  session : Option (Nat × Nat × Tick) := none
  /-- The challenge nonce outstanding and the tick it was issued. R396 10 -/
  nonce : Option (List Byte × Tick) := none
  /-- Operating ticks of failed proofs within one operating hour. R396 10 -/
  failed : List Nat := []
  /-- Challenges are refused until this tick. R396 10 -/
  lockout : Option Tick := none
  /-- A request is executing: its header, opcode, limit tick, and whether TIMEOUT was posted. R433 11 -/
  executing : Option (Rq × Nat × Tick × Bool) := none
  /-- The request that executes waits for an earlier one that changes the same thing: the tick it was accepted. R434 11 -/
  parked : Option Tick := none
  /-- The last accepted SEQUENCE and opcode with the stored response. R432 11 -/
  stored : Option (Nat × Nat × Nat × List Byte) := none
  /-- The bulk buffer, 512 KiB: bytes other than zero. R444 11 -/
  bulk : List Host.Cell := []
  deriving DecidableEq, Repr

/-- A request that erases tenants (R406, R411, R415, R416, R418, R426). -/
inductive EraseKind where
  | destroy
  | erase
  | claim (cred : List Byte)
  | transfer (cred : List Byte)
  | release
  | restore
  | debug (keyIndex : Nat)
  deriving DecidableEq, Repr

/-- An erasure queued or under way. -/
structure Erasure where
  q : Rq
  kind : EraseKind
  /-- Tenants it destroys, with what was reclaimed of each: slots, ops, contexts and locks. R406 10 -/
  destroys : List (Nat × List Nat)
  /-- Tenants it crypto-erases and keeps. R411 10 -/
  erases : List Nat
  /-- The record that awaits its verification: 3 the intent, 4 the erase, 6 the end; 0 queued. R406 10 -/
  step : Nat := 0
  deriving DecidableEq, Repr

structure Owner where
  /-- The ownership credential in its bulk form, empty when unowned. R394 10 -/
  cred : List Byte := []
  /-- A debug unlock nonce and the tick it was issued. R426 10 -/
  debugNonce : Option (List Byte × Tick) := none
  /-- Debug is unlocked, 1 bit. R427 10 -/
  unlocked : Bool := false
  /-- Unlocks since manufacture. R424 10 -/
  unlocks : Nat := 0
  /-- Erasures queued or under way, oldest first. R406 10, R434 11 -/
  erasures : List Erasure := []
  /-- The intent record that stands: tenants to destroy and tenants to crypto-erase. R407 10, R412 10 -/
  intent : Option (List Nat × List Nat) := none
  deriving DecidableEq, Repr

/-! ### Memories and repair -/

/-- One DRAM channel (R461 to R468). -/
structure DramCh where
  ix : Nat
  /-- In service, 1 bit. R461 12 -/
  inService : Bool := false
  /-- Operating ticks of the last training. R462 12 -/
  trainedAt : Nat := 0
  /-- A retraining is due: its cause in the order of R462's events. R462 12 -/
  due : Option Nat := none
  /-- It retrains, 1 bit. R463 12 -/
  retraining : Bool := false
  /-- Rows found failing and not yet repaired. R465 12 -/
  failing : List Nat := []
  /-- A post-package repair runs: row and kind (0 soft, 1 hard). R466 12 -/
  repairing : Option (Nat × Nat) := none
  /-- Soft repairs on the list. R466 12 -/
  soft : List Nat := []
  /-- Hard repairs made. R468 12 -/
  hard : List Nat := []
  /-- Hard repairs asked for and not yet done. R468 12 -/
  hardQueue : List Nat := []
  /-- Operating ticks of a reverted retraining and its cause: it is tried again after 1 operating hour. R463 12 -/
  retry : Option (Nat × Nat) := none
  deriving DecidableEq, Repr

/-- A scrub pass (R476, R477). -/
structure Pass where
  id : Nat
  target : Nat
  start : Nat
  count : Nat
  /-- 0 queued, 1 running, 2 done, 3 ended early. R477 12 -/
  state : Nat := 0
  corrected : Nat := 0
  uncorrectable : Nat := 0
  remapped : Nat := 0
  deriving DecidableEq, Repr

structure Repair where
  /-- The four DRAM channels. R454 12 -/
  chans : List DramCh := [{ ix := 0 }, { ix := 1 }, { ix := 2 }, { ix := 3 }]
  /-- DRAM rate, MT/s. R464 12 -/
  rate : Nat := 6400
  /-- PAGE_IDLE, 8 bits. R458 12 -/
  pageIdle : Nat := 16
  /-- NRR_LOG2. R459 12 -/
  nrrLog2 : Nat := 11
  /-- PAGE_IDLE and NRR_LOG2 accepted and not yet in force. R460 12 -/
  pageIdleNext : Option Nat := none
  nrrLog2Next : Option Nat := none
  /-- DRAM retired under R467, bytes. R467 12 -/
  retiredBytes : Nat := 0
  /-- Macros in use of remap words: class, macro, words in use. R469 12 -/
  remap : List (Nat × Nat × Nat) := []
  /-- Locations corrected with a write-back, class, macro, offset and operating ticks. R472 12 -/
  seen : List (Nat × Nat × Nat × Nat) := []
  /-- Locations whose test waits for their data to be freed: class, macro, offset, and whether they fail it. R472 12 -/
  tests : List (Nat × Nat × Nat × Bool) := []
  /-- Corrected and uncorrectable since power-on by memory class. R492 12 -/
  corrected : List (Nat × Nat) := []
  uncorrected : List (Nat × Nat) := []
  /-- Staging SRAM in service, KiB. R492 12 -/
  stagingKib : Nat := 131072
  /-- Scrub passes queued, running or kept. R476 12 -/
  passes : List Pass := []
  /-- The next SCRUB_ID. R476 12 -/
  nextPass : Nat := 1
  /-- Operating ticks of the last SRAM and DRAM patrol. R475 12 -/
  sramPatrol : Nat := 0
  dramPatrol : Nat := 0
  /-- Corrected edge-buffer words since power-on, by cluster. R479 12 -/
  edgeFixed : List (Nat × Nat) := []
  /-- Poisoned FIFO words since power-on. R478 12 -/
  fifoPoison : Nat := 0
  /-- Fenced parties. R488 12 -/
  fenced : List Party := []
  /-- Parties whose holdings are still to be reclaimed, with the tick of the fence. R489 12 -/
  reclaimDue : List (Party × Tick) := []
  /-- Ownership reclaims since power-on. R492 12 -/
  reclaims : Nat := 0
  /-- REPAIR work queued or running: KIND and UNIT. R491 12 -/
  work : List (Nat × Nat) := []
  /-- Engine self-tests failed since manufacture. R492 12 -/
  testFails : Nat := 0
  /-- Failed engines whose position waits for Calving: physical engine and cause. R484 12 -/
  calving : List (Nat × Nat) := []
  deriving DecidableEq, Repr

/-! ### Power states -/

structure Power where
  /-- PWR_STAT.PS: the state in force, 0 to 4. R516 13 -/
  ps : Nat := 0
  /-- An entry in progress: target and whether the preparation has ended. R502 13 -/
  entering : Option (Nat × Bool) := none
  /-- An exit in progress: target. R503 13 -/
  exiting : Option Nat := none
  /-- A wake landed during an entry, 1 bit. R504 13 -/
  wake : Bool := false
  /-- The tick from which the device is idle, none while it is not. R497 13 -/
  idleSince : Option Tick := none
  /-- VDD_CORE level in force, mV: VBOOT before the first request. R575 16 -/
  vdd : Nat := 800
  /-- A Write VoltageTarget outstanding: level, deadline, retries made. R508 13 -/
  avs : Option (Nat × Tick × Nat) := none
  /-- PWR_STAT.REG_FAULT, 1 bit. R508 13 -/
  regFault : Bool := false
  /-- Tick of the last request made under a regulator fault, and the level wanted. R509 13 -/
  regTried : Tick := 0
  regWanted : Nat := 800
  /-- A PMBus transfer outstanding: deadline and retries made. R510 13 -/
  pmbus : Option (Tick × Nat) := none
  /-- Failed PMBus transfers since power-on. R510 13 -/
  pmbusFails : Nat := 0
  /-- The rail monitor did not answer, 1 bit. R511 13 -/
  monitorAbsent : Bool := false
  /-- Last STATUS_WORD read, 16 bits. R511 13 -/
  statusWord : Nat := 0
  /-- Power limit, mW. R512 13 -/
  limit : Nat := 86000
  /-- Running 1 s average, mW. R513 13 -/
  average : Nat := 0
  /-- Power level, 0 to 4. R513 13 -/
  level : Nat := 0
  /-- Milliseconds for which the average has stayed below 92 % of the limit. R513 13 -/
  below : Nat := 0
  /-- Thermal level, 0 to 4. R514 13 -/
  thermal : Nat := 0
  /-- Tj in degrees. R514 13 -/
  tj : Int := 0
  /-- Highest Tj since power-on. R517 13 -/
  tjMax : Int := 0
  /-- Tick from which Tj has stayed at or above 115. R515 13 -/
  hotSince : Option Tick := none
  /-- AVSBus timeouts since power-on. R517 13 -/
  avsTimeouts : Nat := 0
  /-- Regulator faults since manufacture. R517 13 -/
  regFaults : Nat := 0
  /-- Thermal shutdowns since manufacture. R517 13 -/
  thermals : Nat := 0
  /-- Entries to PS1 to PS4 since power-on. R517 13 -/
  entries : List Nat := [0, 0, 0, 0]
  /-- Wake events during entry since power-on. R517 13 -/
  wakes : Nat := 0
  /-- Time at a power level and at a thermal level above 0, ms. R517 13 -/
  msPower : Nat := 0
  msThermal : Nat := 0
  /-- Tick at which the state in force was reached. R517 13 -/
  psSince : Tick := 0
  /-- Ticks spent in PS0 to PS4 since power-on. R517 13 -/
  psTicks : List Nat := [0, 0, 0, 0, 0]
  /-- An entry that waits for the end of a STILL window or still tail. R499 13 -/
  entryPend : Option Nat := none
  /-- What the outstanding PMBus transfer serves: the step of Table 5.4. R193 05 -/
  pmbusUse : Nat := 0
  deriving DecidableEq, Repr

/-! ### Rime and Moraine -/

/-- A Rime record (Table 14.1), without the numbers of its views. -/
structure RimeRec where
  /-- Device sequence, 32 bits. R521 14 -/
  seq : Nat
  cycles : Nat
  hours : Nat
  seconds : Nat
  code : Nat
  /-- The tenant named, none for a device record. R519 14 -/
  tenant : Option Nat
  severity : Nat
  shared : Bool
  repeats : Nat := 0
  /-- PARAM, 12 bytes. R523 14 -/
  param : List Byte := []
  /-- SEQ in the health view, 0 when it is not a device record. R524 14 -/
  health : Nat := 0
  /-- SEQ in each tenant view that shows it. R524 14 -/
  views : List (Nat × Nat) := []
  /-- The tick its first occurrence was committed. R521 14 -/
  tick : Tick := 0
  deriving DecidableEq, Repr

structure Rime where
  /-- The next device sequence number. R521 14 -/
  next : Nat := 1
  /-- Records of the ring, oldest first, with a flag that counts them as flushed for R522. R526 14 -/
  ring : List (RimeRec × Bool) := []
  /-- Records in the Rime region, oldest first. R526 14 -/
  region : List RimeRec := []
  /-- A flush runs: how many ring records it writes. R526 14 -/
  flushing : Option Nat := none
  /-- The tick the last flush started. R526 14 -/
  flushBegan : Tick := 0
  /-- Records dropped and not yet reported. R528 14 -/
  dropped : Nat := 0
  /-- Records dropped and flushes since power-on. R531 14 -/
  droppedAll : Nat := 0
  flushes : Nat := 0
  /-- Tick of the last flush. R527 14 -/
  flushedAt : Tick := 0
  /-- Rises of PWRGD since manufacture. R518 14 -/
  cycles : Nat := 0
  /-- Operating time since manufacture, ticks. R520 14 -/
  opTicks : Nat := 0
  /-- Operating time saved in the device tables, ticks. R520 14 -/
  opSaved : Nat := 0
  /-- Sequence of the newest record that holds ALERT_N. R525 14 -/
  alertSeq : Option Nat := none
  /-- Numbers given so far in the health view, and per tenant view. R524 14 -/
  healthNext : Nat := 1
  tenantNext : List (Nat × Nat) := []
  /-- RIME_WRITES.COUNT, 32 bits. R530 14 -/
  writes : Nat := 0
  /-- The tick RIME_WRITES.COUNT last rose, 64 bits or none. R530 14 -/
  wroteAt : Option Tick := none
  /-- Flushed numbers of the device, health and tenant series. R581 14 -/
  flushedNext : Nat × Nat × List (Nat × Nat) := (1, 1, [])
  deriving DecidableEq, Repr

/-- A dump header (Table 14.9), the fields that are not constants. -/
structure Dump where
  partialDump : Bool
  number : Nat
  cycles : Nat
  hours : Nat
  seconds : Nat
  cause : Nat
  seq : Nat
  version : Nat
  pair : Nat
  /-- The newest records in owner view when it was written, at most 4,096, oldest first. R536 14 -/
  tail : List RimeRec := []
  deriving DecidableEq, Repr

structure Moraine where
  /-- The dump held, none before the first. R536 14 -/
  dump : Option Dump := none
  /-- Summaries in the NOR, newest first, at most 8. R538 14 -/
  summaries : List Dump := []
  /-- Operating ticks of fatal errors within 24 operating hours. R534 14 -/
  fatals : List Nat := []
  /-- Cause of a fatal error being handled. R533 14 -/
  fatal : Option Nat := none
  /-- Dumps written since manufacture. R537 14 -/
  count : Nat := 0
  deriving DecidableEq, Repr

/-! ### Supervisor pairs and firmware -/

/-- State of a supervisor pair (Table 15.6). -/
inductive PairState where
  | serving | standby | reloading | fenced | out
  deriving DecidableEq, Repr

/-- A firmware image in a NOR slot. -/
structure FwImage where
  version : Nat
  svn : Nat
  revoke : Nat
  digest : List Byte
  /-- Carries microcode other than the image before it, 1 bit. R552 15 -/
  newMicrocode : Bool := false
  deriving DecidableEq, Repr

structure Firmware where
  pair0 : PairState := .serving
  pair1 : PairState := .standby
  /-- Operating ticks at which each pair last faulted. R543 15 -/
  faulted0 : Option Nat := none
  faulted1 : Option Nat := none
  /-- Deadline of the serving pair's heartbeat. R541 15 -/
  heartbeatAt : Tick := 0
  /-- NOR slots 0 and 1, none when empty or refused. R544 15 -/
  slot0 : Option FwImage := some { version := 1, svn := 0, revoke := 0, digest := [] }
  slot1 : Option FwImage := none
  /-- Active slot of the boot record. R544 15 -/
  active : Nat := 0
  /-- Slot to become active at the next power-on. R544 15 -/
  nextActive : Option Nat := none
  /-- Trial flag of the boot record, with the operating ticks at which the trial began. R548 15 -/
  trial : Option Nat := none
  /-- Bytes of the image being staged, with its TOTAL. R445 11 -/
  staging : Option (Nat × List Byte) := none
  /-- Staged state of R551, 0 to 3. R551 15 -/
  stagedState : Nat := 0
  /-- Hand-over step of Table 15.3 in progress, with the request or slot to answer. R545 15 -/
  handover : Option (Nat × Option Rq × Option Nat) := none
  /-- Tick at which the pause began. R545 15 -/
  pauseSince : Option Tick := none
  /-- Last hand-over pause, us; hand-overs and takeovers since manufacture. R559 15 -/
  lastPause : Nat := 0
  handovers : Nat := 0
  takeovers : Nat := 0
  /-- MIN_SVN. R421 10 -/
  minSvn : Nat := 0
  /-- Revoked-key mask, 4 bits. R421 10 -/
  revoked : Nat := 0
  /-- Clusters still to be loaded with new microcode, in order. R552 15 -/
  microcode : List Nat := []
  /-- Downloaded pieces of an image (Firmware Image Download). R400 10 -/
  download : List Byte := []
  deriving DecidableEq, Repr

/-! ### What leaves the device -/

/-- Something the device sends to a host, the board or a sideband requester. -/
inductive Output where
  | cqe (f : Fn) (cqid sqid cid : Nat) (st : Status) (dw0 : Nat)
  | aen (f : Fn) (ev : Event)
  | msix (f : Fn) (vector : Nat)
  | hostWrite (f : Fn) (data : List (List Byte))
  | shelfWrite (p : Port) (addr : Nat) (data : List Byte)
  | identify (f : Fn) (data : List Byte)
  | runReport (asn : Nat) (data : List Byte)
  | sinkWrite (asn node : Nat) (data : List Byte)
  | sinkZero (asn node : Nat)
  | mbx (ep : Endpoint) (opcode status : Nat) (tag seq : Nat) (body : List Byte)
  | mi (ep : Endpoint) (ok : Bool) (data : List Byte)
  | spdm (ep : Endpoint) (code : Nat) (data : List Byte)
  | feature (f : Fn) (fid value : Nat)
  | regRead (f : Fn) (value : Word)
  | avs (level : Nat)
  | pmbusWrite (addr cmd data : Nat)
  | pmbusRead (addr cmd : Nat)
  deriving DecidableEq, Repr

/-- JTAG (R578, R579). -/
inductive Tap where
  | idcode | boundary
  deriving DecidableEq, Repr

/-- Why a step can fault. No command of this device has a behaviour that the spec names and gives no
outcome, so no meaning raises one: the constructor stands for a state the spec excludes. -/
inductive Fault where
  /-- Raised by no meaning (safe). -/
  | none
  deriving DecidableEq, Repr

/-- Why a step can be refused. -/
inductive Refusal where
  /-- A command whose meaning is not written yet, by its mnemonic (safe: the machine stops). -/
  | notModelled (mnemonic : String)
  deriving DecidableEq, Repr

/-- The engines as they leave manufacture (R480): 9c + k at position 8c + k, 9c + 8 the spare.
DESIGN CHOICE: log entry 2. -/
def enginesBlank : List Engine :=
  (List.range 72).map fun p =>
    { ix := p, status := if p % 9 = 8 then 1 else 0,
      pos := if p % 9 = 8 then none else some (8 * (p / 9) + p % 9), cluster := p / 9 }

/-- The blank device's namespace (Table 1.7): NSID 1, full assured capacity, on tenant 0.
DESIGN CHOICE: log entry 2. -/
def nsBlank (assured : Nat) : Ns :=
  { nsid := 1, tenant := 0, assured := assured, attached := [⟨0, .a⟩, ⟨0, .b⟩], salt := Config.random 0 32 }

structure State where
  /-- The tick of the latest command. R65 02 -/
  now : Tick := 0
  /-- Commands waiting, first in, first out (the model's own). -/
  pending : List Instr := []
  pins : Pins := {}
  boot : Boot := {}
  pfail : Pfail := {}
  holdup : Holdup := {}
  firn : Firn := {}
  linkA : Link := {}
  linkB : Link := {}
  /-- Functions and their controllers. R69 03 -/
  ctrls : List Ctrl := [{ fn := ⟨0, .a⟩ }, { fn := ⟨0, .b⟩ }]
  /-- Slots in use. R84 03 -/
  slots : List Slot := []
  /-- Still-class reads that started while an older doorbell still waited or since: ASN, doorbell tick, die reads, and the
  tick of completion, none while in flight. R58 02 -/
  stillLog : List (Nat × Tick × Nat × Option Tick) := []
  /-- The next ASN, 48 bits. R86 03 -/
  asn : Nat := 1
  /-- Round robin positions, each with the commands of the turn served: the admin queues by CNTLID, the
  urgent queues by 65536 CNTLID + QID, the tenants, each tenant's classes by 3 p + class, and each class's
  queues (by 4 CNTLID + class). R90 03 -/
  rrAdmin : Nat × Nat := (0, 0)
  rrUrgent : Nat × Nat := (0, 0)
  rrTenant : Nat × Nat := (0, 0)
  rrTurn : List (Nat × (Nat × Nat)) := []
  rrSq : List (Nat × (Nat × Nat)) := []
  /-- Staged write data. R93 03 -/
  staged : List Staged := []
  /-- Namespaces. R78 03 -/
  nss : List Ns := [nsBlank Config.assuredCapacity]
  media : Media := {}
  compute : Compute := {}
  engines : List Engine := enginesBlank
  twill : Twill := {}
  units : Units := {}
  /-- Tenants that are not ABSENT. R403 10 -/
  tenants : List Tenant := [{ num := 0, cfg := TenRec.blank 0 }]
  settings : Settings := {}
  /-- Mailbox endpoints with a history. R432 11 -/
  eps : List Ep := []
  owner : Owner := {}
  repair : Repair := {}
  power : Power := {}
  rime : Rime := {}
  moraine : Moraine := {}
  fw : Firmware := {}
  /-- The JTAG instruction current. R578 16 -/
  tap : Tap := .idcode
  /-- What the device has sent, newest first (the model's own). -/
  outbox : List Output := []
  /-- Free values drawn (the model's own). -/
  drawn : Nat := 0
  deriving DecidableEq, Repr

/-- The device as it leaves manufacture, before PWRGD first rises.
DESIGN CHOICE: log entry 2, DEDUCED: log entry 3. -/
def State.reset : State := {}

end Sys2Proof.Machine
end

