-- ==== Sys2Proof/Machine/Ops.lean ====
section
/-! DEFINITION. The named operations that the meanings share: bytes and byte order, addressed memories in
canonical form, the arrival of a command, Rime records and their flush, and what leaves the device. -/

namespace Sys2Proof.Machine

/-! ### Bytes -/

/-- `v` as `n` bytes, little-endian (R6). -/
def le (n v : Nat) : List Byte := (List.range n).map fun i => BitVec.ofNat 8 (v / 256 ^ i)

/-- The number that bytes hold, little-endian (R6). -/
def unle : List Byte → Nat
  | [] => 0
  | b :: bs => b.toNat + 256 * unle bs

/-- `n` zero bytes. -/
def zeros (n : Nat) : List Byte := List.replicate n 0

/-- The field of `n` bytes at offset `off` of a structure (R6). -/
def field (bs : List Byte) (off n : Nat) : Nat := unle ((bs.drop off).take n)

/-- `n` bytes from offset `off`; bytes past the end read as zero. -/
def slice (bs : List Byte) (off n : Nat) : List Byte :=
  let p := (bs.drop off).take n
  p ++ zeros (n - p.length)

/-- Bytes cut or filled with zeros to the length `n`. -/
def pad (n : Nat) (bs : List Byte) : List Byte := slice bs 0 n

/-- The two's complement of an integer in `n` bytes. -/
def leInt (n : Nat) (v : Int) : List Byte := le n (v % (256 ^ n : Nat)).toNat

/-- `a / b` rounded up. -/
def ceilDiv (a b : Nat) : Nat := (a + b - 1) / b

/-- `v` held at the most that `n` bytes show. -/
def sat (n v : Nat) : Nat := min v (256 ^ n - 1)

/-! ### Addressed memories: sorted cells, none of them zero -/

/-- The byte at an address; an address that is not listed reads as zero. DESIGN CHOICE: log entry 9. -/
def Memory.read (a : Nat) : List Host.Cell → Byte
  | [] => 0
  | (k, v) :: m => if k = a then v else Memory.read a m

/-- Write one byte. Writing zero removes the entry, so that equal memories are equal lists.
DESIGN CHOICE: log entry 9. -/
def Memory.write (a : Nat) (b : Byte) : List Host.Cell → List Host.Cell
  | [] => if b = 0 then [] else [(a, b)]
  | (k, v) :: m =>
    if k < a then (k, v) :: Memory.write a b m
    else if k = a then (if b = 0 then m else (a, b) :: m)
    else (if b = 0 then (k, v) :: m else (a, b) :: (k, v) :: m)

/-- `n` bytes from address `a`. -/
def Memory.readN (m : List Host.Cell) (a n : Nat) : List Byte :=
  (List.range n).map fun i => Memory.read (a + i) m

/-- Write bytes from address `a` upwards. -/
def Memory.writeN (m : List Host.Cell) (a : Nat) : List Byte → List Host.Cell
  | [] => m
  | b :: bs => Memory.writeN (Memory.write a b m) (a + 1) bs

/-- Set every byte of a range to zero. -/
def Memory.clear (m : List Host.Cell) (a n : Nat) : List Host.Cell :=
  m.filter fun c => c.1 < a || a + n ≤ c.1

/-- The canonical form: addresses rise strictly and no entry is zero. DESIGN CHOICE: log entry 9. -/
abbrev Memory.wf (m : List Host.Cell) : Prop :=
  m.Pairwise (fun x y => x.1 < y.1) ∧ ∀ c ∈ m, c.2 ≠ 0

/-! ### Association lists -/

/-- The value listed for a key. -/
def get? {α : Type} (k : Nat) : List (Nat × α) → Option α
  | [] => none
  | (a, v) :: l => if a = k then some v else get? k l

/-- Set the value of a key. -/
def put {α : Type} (k : Nat) (v : α) : List (Nat × α) → List (Nat × α)
  | [] => [(k, v)]
  | (a, w) :: l => if a = k then (k, v) :: l else (a, w) :: put k v l

/-- Add to the count of a key. -/
def bump (k n : Nat) (l : List (Nat × Nat)) : List (Nat × Nat) := put k ((get? k l).getD 0 + n) l

/-! ### Time -/

/-- A command lands in tick `t`; time never runs backwards. Operating time counts while PWRGD is high
(R520). DESIGN CHOICE: log entry 5, DESIGN CHOICE: log entry 29. -/
def State.arrive (s : State) (t : Tick) : State :=
  { s with
    now := max s.now t
    rime := { s.rime with opTicks := s.rime.opTicks + (if s.pins.pwrgd then max s.now t - s.now else 0) } }

/-- Whole operating hours since manufacture (R520). -/
def State.hours (s : State) : Nat := s.rime.opTicks / ticksPerHour

/-- Seconds within the operating hour (R518). -/
def State.seconds (s : State) : Nat := s.rime.opTicks % ticksPerHour / ticksPerS

/-- The device is ready and runs its service (R200, R180). -/
def State.serving (s : State) : Bool := s.boot.life == .running && !s.pfail.stopped

/-- A timer with this deadline has expired at the present tick (R65).
DESIGN CHOICE: log entry 5, DEDUCED: log entry 6. -/
def State.expired (s : State) (deadline : Tick) : Bool := deadline ≤ s.now

/-- A waiting command that answers `p` lands no later than the deadline, so that the event wins (R65).
DEDUCED: log entry 6. -/
def State.awaited (s : State) (p : Instr → Option Tick) (deadline : Tick) : Bool :=
  s.pending.any fun c => match p c with
    | some t => t ≤ deadline
    | none => false

/-- The state that a command leaves, the old one where it answers none. -/
def stateAfter (s : State) (o : Host.Outcome State Fault Refusal) : State :=
  match o with
  | .next u => u
  | _ => s

/-- The state once the waiting events of a kind that land no later than a deadline have run: it shows whether they bring
about what a timer waits for (R65). DEDUCED: log entry 6. -/
def State.replay (s : State) (ev : Instr → Option (Tick × (State → Host.Outcome State Fault Refusal))) (deadline : Tick) :
    State :=
  s.pending.foldl (fun u c => match ev c with
    | some (t, run) => if t ≤ deadline then stateAfter u (run u) else u
    | none => u) s

/-! ### What leaves the device -/

/-- Send something. DESIGN CHOICE: log entry 8. -/
def State.emit (s : State) (o : Output) : State := { s with outbox := o :: s.outbox }

/-! ### Fields of lists -/

/-- The function exists: tenants 0 to 255 on each port that the strap leaves (R15, R69). -/
def State.hasFn (s : State) (f : Fn) : Bool := f.tenant ≤ 255 && (f.port == .a || s.boot.portcfg == 0)

/-- The controller of a function, which has no history until it is first named. -/
def State.ctrl? (s : State) (f : Fn) : Option Ctrl :=
  match s.ctrls.find? (·.fn == f) with
  | some c => some c
  | none => if s.hasFn f then some { fn := f } else none

def State.setCtrl (s : State) (f : Fn) (g : Ctrl → Ctrl) : State :=
  let cs := if s.ctrls.any (·.fn == f) || !s.hasFn f then s.ctrls else s.ctrls ++ [{ fn := f }]
  { s with ctrls := cs.map fun c => if c.fn = f then g c else c }

def State.slot? (s : State) (i : Nat) : Option Slot := s.slots.find? (·.ix == i)

def State.setSlot (s : State) (i : Nat) (g : Slot → Slot) : State :=
  { s with slots := s.slots.map fun c => if c.ix = i then g c else c }

def State.dropSlot (s : State) (i : Nat) : State := { s with slots := s.slots.filter (·.ix != i) }

def State.ns? (s : State) (n : Nat) : Option Ns := s.nss.find? (·.nsid == n)

def State.setNs (s : State) (n : Nat) (g : Ns → Ns) : State :=
  { s with nss := s.nss.map fun c => if c.nsid = n then g c else c }

def State.tenant? (s : State) (t : Nat) : Option Tenant := s.tenants.find? (·.num == t)

def State.setTenant (s : State) (t : Nat) (g : Tenant → Tenant) : State :=
  { s with tenants := s.tenants.map fun c => if c.num = t then g c else c }

def State.run? (s : State) (a : Nat) : Option GRun := s.compute.runs.find? (·.asn == a)

def State.setRun (s : State) (a : Nat) (g : GRun → GRun) : State :=
  { s with compute := { s.compute with runs := s.compute.runs.map fun c => if c.asn = a then g c else c } }

def State.engine? (s : State) (p : Nat) : Option Engine := s.engines.find? (·.ix == p)

def State.setEngine (s : State) (p : Nat) (g : Engine → Engine) : State :=
  { s with engines := s.engines.map fun c => if c.ix = p then g c else c }

def State.link (s : State) : Port → Link
  | .a => s.linkA
  | .b => s.linkB

def State.setLink (s : State) (p : Port) (g : Link → Link) : State :=
  match p with
  | .a => { s with linkA := g s.linkA }
  | .b => { s with linkB := g s.linkB }

/-- The device lets its links train: not in reset, nor held with its ports in reset (R422, R569).
DEDUCED: log entry 32. -/
def linksFree (s : State) : Bool :=
  match s.boot.life with
  | .starting | .running => true
  | _ => false

/-- A write or a read of the host reaches the function: the function exists and its port's link is up (R69, R71).
DEDUCED: log entry 32. -/
def hostReaches (s : State) (f : Fn) : Bool := s.hasFn f && linksFree s && (s.link f.port).up

/-- A die, which has no history until it is first named. -/
def State.die (s : State) (d : DieId) : Die := (s.media.dies.find? (·.id == d)).getD { id := d }

def State.setDie (s : State) (d : DieId) (g : Die → Die) : State :=
  let ds := if s.media.dies.any (·.id == d) then s.media.dies else s.media.dies ++ [{ id := d }]
  { s with media := { s.media with dies := ds.map fun x => if x.id = d then g x else x } }

/-- An endpoint, which has no history until it is first named. -/
def State.ep (s : State) (e : Endpoint) : Ep := (s.eps.find? (·.ep == e)).getD { ep := e }

def State.setEp (s : State) (e : Endpoint) (g : Ep → Ep) : State :=
  let es := if s.eps.any (·.ep == e) then s.eps else s.eps ++ [{ ep := e }]
  { s with eps := es.map fun x => if x.ep = e then g x else x }

/-- Dispatcher counts of a tenant, zero until it is first named. -/
def State.setCount (s : State) (t : Nat) (g : DspCount → DspCount) : State :=
  let cs := if s.compute.counts.any (·.tenant == t) then s.compute.counts else s.compute.counts ++ [{ tenant := t }]
  { s with compute := { s.compute with counts := cs.map fun x => if x.tenant = t then g x else x } }

/-! ### Rime -/

/-- Severities of R519. -/
abbrev sevInfo : Nat := 0
abbrev sevNotice : Nat := 1
abbrev sevWarning : Nat := 2
abbrev sevError : Nat := 3
abbrev sevCritical : Nat := 4
abbrev sevFatal : Nat := 5

/-- Tenants whose views show a record (R402). -/
def rimeViewers (s : State) (tenant : Option Nat) (shared : Bool) : List Nat :=
  match tenant with
  | some t => (s.tenants.filter (·.num == t)).map (·.num)
  | none => if shared then s.tenants.map (·.num) else []

/-- A flush starts: every unflushed record counts as flushed for R522 from this tick (R526). DEDUCED: log entry 79. -/
def rimeFlushStart (s : State) : State :=
  if s.rime.flushing.isSome || s.rime.ring.isEmpty then s
  else { s with rime := { s.rime with
    flushing := some s.rime.ring.length, flushBegan := s.now
    ring := s.rime.ring.map fun r => (r.1, true) } }

/-- The 32-bit successor of a sequence number, which is never 0 (R521). -/
def seqNext (n : Nat) : Nat := if n + 1 ≥ 2 ^ 32 then 1 else n + 1

/-- A record stands before another of its tick: ascending CODE, then ascending TENANT (R521).
DEDUCED: log entry 79. -/
def rimeBefore (a b : RimeRec) : Bool := a.code < b.code || (a.code == b.code && a.tenant.getD 0 < b.tenant.getD 0)

/-- The record `r` and its older neighbour `x` change places, and their numbers in every series that shows both (R521,
R524): the older of the two first. DEDUCED: log entry 79. -/
def rimeSwap (x r : RimeRec) : RimeRec × RimeRec :=
  let its (o : List (Nat × Nat)) (v : Nat × Nat) : Nat × Nat := (v.1, (get? v.1 o).getD v.2)
  let both := x.health != 0 && r.health != 0
  ({ r with seq := x.seq, health := if both then x.health else r.health, views := r.views.map (its x.views) },
   { x with seq := r.seq, health := if both then r.health else x.health, views := x.views.map (its r.views) })

/-- A new record takes its place among the records of its tick; the list stands newest first (R521).
DEDUCED: log entry 79. -/
def rimePlace (r : RimeRec × Bool) : List (RimeRec × Bool) → List (RimeRec × Bool)
  | [] => [r]
  | x :: xs =>
    if x.1.tick = r.1.tick && x.2 == r.2 && rimeBefore r.1 x.1 then
      let y := rimeSwap x.1 r.1
      (y.2, x.2) :: rimePlace (y.1, r.2) xs
    else r :: x :: xs

/-- A slot of tenant 0's snapshot changes: RIME_WRITES counts the ticks in which one did (R530).
DEDUCED: log entry 79. -/
def rimeWrote (r : Rime) (now : Tick) (shown : Bool) : Rime :=
  if !shown || r.wroteAt == some now then r else { r with writes := (r.writes + 1) % 2 ^ 32, wroteAt := some now }

/-- Write a new record into the ring; a flush that started in this tick takes it too (R521, R524, R525, R526, R527, R528,
R530). DEDUCED: log entry 79. -/
def rimeAppend (code sev : Nat) (tenant : Option Nat) (shared : Bool) (param : List Byte) (s : State) : State :=
  if 4096 ≤ s.rime.ring.length then
    { s with rime := { s.rime with dropped := s.rime.dropped + 1, droppedAll := s.rime.droppedAll + 1 } }
  else
    let viewers := rimeViewers s tenant shared
    let num (t : Nat) : Nat := (get? t s.rime.tenantNext).getD 1
    let r : RimeRec :=
      { seq := s.rime.next, cycles := s.rime.cycles, hours := s.hours, seconds := s.seconds, code := code,
        tenant := tenant, severity := sev, shared := shared && tenant.isNone, param := pad 12 param,
        health := if tenant.isNone then s.rime.healthNext else 0,
        views := viewers.map fun t => (t, num t), tick := s.now }
    let joins := s.rime.flushing.isSome && s.rime.flushBegan == s.now
    let ring := (rimePlace (r, joins) s.rime.ring.reverse).reverse
    let newest := (ring.filter fun x => 3 ≤ x.1.severity).getLast?.map (·.1.seq)
    let holds := s.settings.dev.telemMask.testBit 1 && (sev ≥ 3 || s.rime.alertSeq.isSome)
    let s := { s with rime := { rimeWrote s.rime s.now (viewers.contains 0) with
      next := seqNext s.rime.next
      ring := ring
      flushing := if joins then s.rime.flushing.map (· + 1) else s.rime.flushing
      healthNext := if tenant.isNone then seqNext s.rime.healthNext else s.rime.healthNext
      tenantNext := viewers.foldl (fun l t => put t (seqNext (num t)) l) s.rime.tenantNext
      alertSeq := if holds then newest.or s.rime.alertSeq else s.rime.alertSeq } }
    let s := { s with pins := { s.pins with alert := s.rime.alertSeq.isSome || (s.power.regFault && s.settings.dev.telemMask.testBit 1) } }
    if sev ≥ 3 || (s.rime.ring.filter (!·.2)).length ≥ 3072 then rimeFlushStart s else s

/-- Commit an occurrence: a repeat of the newest unflushed record, or a new record (R522). DEDUCED: log entry 79. -/
def rime (code sev : Nat) (tenant : Option Nat) (shared : Bool) (param : List Byte) (s : State) : State :=
  match s.rime.ring.getLast? with
  | some (r, false) =>
    if r.code = code && r.tenant == tenant && r.param == pad 12 param && r.repeats < 65535 then
      { s with rime := { rimeWrote s.rime s.now ((rimeViewers s tenant shared).contains 0) with
        ring := s.rime.ring.dropLast ++ [({ r with repeats := r.repeats + 1 }, false)] } }
    else rimeAppend code sev tenant shared param s
  | _ => rimeAppend code sev tenant shared param s

/-- A record of the device, shown in tenant views when `shared` (Table 14.2, views S and D). -/
def rimeDev (code sev : Nat) (shared : Bool) (param : List Byte) (s : State) : State :=
  rime code sev none shared param s

/-- A record of one tenant (Table 14.2, view T). -/
def rimeTen (code sev tenant : Nat) (param : List Byte) (s : State) : State :=
  rime code sev (some tenant) false param s

/-- The Rime region holds 16 MiB of units of 128 records and reuses the oldest first (R526). -/
abbrev rimeRegionMax : Nat := 4096 * 128

/-- A flush has written and verified its records (R526, R528). DEDUCED: log entry 79. -/
def rimeFlushEnd (s : State) : State :=
  match s.rime.flushing with
  | none => s
  | some n =>
    let done := (s.rime.ring.take n).map (·.1)
    let region := s.rime.region ++ done
    let s := { s with rime := { s.rime with
      flushing := none
      ring := s.rime.ring.drop n
      region := region.drop (ceilDiv (region.length - rimeRegionMax) 128 * 128)
      flushes := s.rime.flushes + 1
      flushedAt := s.now
      opSaved := s.rime.opTicks
      flushedNext := (done.foldl (fun _ r => seqNext r.seq) s.rime.flushedNext.1,
        done.foldl (fun h r => if r.health = 0 then h else seqNext r.health) s.rime.flushedNext.2.1,
        done.foldl (fun l r => r.views.foldl (fun l v => put v.1 (seqNext v.2) l) l) s.rime.flushedNext.2.2) } }
    let s := if s.rime.dropped = 0 then s
      else
        let k := s.rime.dropped
        rimeDev 0x0001 sevNotice false (le 4 k) { s with rime := { s.rime with dropped := 0 } }
    if (s.rime.ring.any fun r => r.1.severity ≥ 3 && !r.2) || (s.rime.ring.filter (!·.2)).length ≥ 3072
    then rimeFlushStart s else s

/-- A record as its reader sees it (Table 14.1). -/
def recBytes (x : Nat × RimeRec) : List Byte :=
  let r := x.2
  le 4 x.1 ++ le 4 r.cycles ++ le 4 r.hours ++ le 2 r.seconds ++ le 2 r.code ++ le 1 (r.tenant.getD 0)
    ++ le 1 (r.severity + (if r.shared then 64 else 0) + (if r.tenant.isSome then 128 else 0)) ++ le 2 r.repeats ++ pad 12 r.param

end Sys2Proof.Machine
end

