-- ==== Sys2Proof/Machine/Kdf.lean ====
section
/-! DEFINITION. Key derivation and draws (file 09, R363 to R365): the KDF over the device root, and the DRBG. -/

namespace Sys2Proof.Machine

/-- `v` as `n` bytes, big-endian. -/
def be (n v : Nat) : List Byte := (le n v).reverse

/-- ASCII "QM-FJS6440-KDF01" (Table 9.3). -/
def kdfLabel : List Byte :=
  [0x51, 0x4D, 0x2D, 0x46, 0x4A, 0x53, 0x36, 0x34, 0x34, 0x30, 0x2D, 0x4B, 0x44, 0x46, 0x30, 0x31]

/-- ASCII "QM-FJS6440-VER01" (R372). -/
def verifierLabel : List Byte :=
  [0x51, 0x4D, 0x2D, 0x46, 0x4A, 0x53, 0x36, 0x34, 0x34, 0x30, 0x2D, 0x56, 0x45, 0x52, 0x30, 0x31]

/-- The 109 bytes of one iteration (Table 9.3). -/
def kdfInput (seed : List Byte) (i tenant purpose : Nat) (label : List Byte) (bits : Nat) : List Byte :=
  be 4 i ++ kdfLabel ++ [0x00] ++ pad 48 (if purpose = 5 then [] else seed) ++ be 2 tenant ++ be 2 purpose
    ++ pad 32 label ++ be 4 bits

/-- KDF output of `bits` bits for a tenant and purpose (R363, R364). PRESUMED: log entry 10. -/
def kdf (s : State) (tenant purpose : Nat) (label : List Byte) (bits : Nat) : List Byte :=
  let k (i : Nat) : List Byte := Config.hmac384 Config.deviceRoot (kdfInput s.units.seed i tenant purpose label bits)
  ((if bits ≤ 384 then k 1 else k 1 ++ k 2)).take (bits / 8)

/-- Draw `n` bytes from the DRBG (R361). -/
def draw (n : Nat) (s : State) : List Byte × State :=
  (pad n (Config.random s.units.draws n), { s with units := { s.units with draws := s.units.draws + 1 } })

/-- A free value is drawn. -/
def freeNat (s : State) : Nat × State := (Config.freeNat s.drawn, { s with drawn := s.drawn + 1 })

/-- One of some candidates, where the spec does not say which the device takes. DESIGN CHOICE: log entry 16. -/
def pick (cands : List Nat) (s : State) : Option Nat × State :=
  if cands.isEmpty then (none, s)
  else
    let (n, s) := freeNat s
    (cands[n % cands.length]?, s)

/-- The media key of a device-held namespace: purpose 1, 512 bits, its tenant and salt (R372). -/
def nsDeviceKey (s : State) (n : Ns) : List Byte := kdf s n.tenant 1 n.salt 512

/-- The verifier of a tenant-held key (R372). -/
def nsVerifier (key : List Byte) : List Byte := (Config.hmac384 key verifierLabel).take 16

end Sys2Proof.Machine
end

