-- ==== Sys2Proof/Machine/Cipher.lean ====
section
/-! DEFINITION. The modes of the general cipher lanes over AES-256 (file 09, R373, R375): CTR, CBC, XTS with
ciphertext stealing, and GCM with a 96-bit nonce; and the sealing of key blobs (R366). -/

namespace Sys2Proof.Machine

/-- Bytewise XOR, as long as the shorter. -/
def xorBytes (a b : List Byte) : List Byte := List.zipWith (· ^^^ ·) a b

/-- The number that bytes hold, big-endian. -/
def unbe (bs : List Byte) : Nat := unle bs.reverse

/-- Whole blocks of 16 bytes; a last part may be shorter. -/
def blocks16 (bs : List Byte) : List (List Byte) :=
  (List.range (ceilDiv bs.length 16)).map fun i => (bs.drop (16 * i)).take 16

/-- `n` bytes of CTR keystream from a first counter block, incremented big-endian modulo 2^128 (R375). -/
def ctrStream (key : List Byte) (first n : Nat) : List Byte :=
  ((List.range (ceilDiv n 16)).flatMap fun i => Config.aesEnc key (be 16 ((first + i) % 2 ^ 128))).take n

/-- CTR of text that starts at byte `off` of its keystream. -/
def ctrAt (key : List Byte) (iv off : Nat) (text : List Byte) : List Byte :=
  xorBytes text ((ctrStream key ((iv + off / 16) % 2 ^ 128) (off % 16 + text.length)).drop (off % 16))

/-- CBC over the whole blocks of the text. -/
def cbcEnc (key : List Byte) : List Byte → List (List Byte) → List Byte
  | _, [] => []
  | iv, b :: bs =>
    if b.length < 16 then []
    else
      let c := Config.aesEnc key (xorBytes b iv)
      c ++ cbcEnc key c bs

def cbcDec (key : List Byte) : List Byte → List (List Byte) → List Byte
  | _, [] => []
  | iv, b :: bs => if b.length < 16 then [] else xorBytes (Config.aesDec key b) iv ++ cbcDec key b bs

/-- Multiply an XTS tweak by alpha. -/
def xtsNext (t : Nat) : Nat :=
  let d := 2 * t
  if d ≥ 2 ^ 128 then Nat.xor (d % 2 ^ 128) 0x87 else d

def iterate {α : Type} (f : α → α) : Nat → α → α
  | 0, x => x
  | n + 1, x => iterate f n (f x)

/-- One block of XTS under the tweak value of its place. -/
def xtsBlock (enc : Bool) (key : List Byte) (t : Nat) (b : List Byte) : List Byte :=
  let m := le 16 t
  xorBytes ((if enc then Config.aesEnc key (xorBytes b m) else Config.aesDec key (xorBytes b m))) m

/-- XTS of one data unit of at least 16 bytes, with ciphertext stealing for a last partial block (IEEE 1619). -/
def xtsUnit (enc : Bool) (key : List Byte) (tweak : Nat) (text : List Byte) : List Byte :=
  let k1 := key.take 32
  let t0 := unle (Config.aesEnc (key.drop 32) (le 16 (tweak % 2 ^ 128)))
  let bs := blocks16 text
  let n := text.length / 16
  let r := text.length % 16
  let t (i : Nat) : Nat := iterate xtsNext i t0
  let plain (i : Nat) : List Byte := xtsBlock enc k1 (t i) (bs.getD i [])
  if r = 0 then (List.range n).flatMap plain
  else
    let last := bs.getD n []
    let (ta, tb) := if enc then (t (n - 1), t n) else (t n, t (n - 1))
    let c := xtsBlock enc k1 ta (bs.getD (n - 1) [])
    (List.range (n - 1)).flatMap plain ++ xtsBlock enc k1 tb (last ++ c.drop r) ++ c.take r

/-- Multiplication in the field of GHASH (SP 800-38D). -/
def ghashMul (x y : BitVec 128) : BitVec 128 :=
  ((List.range 128).foldl (fun (zv : BitVec 128 × BitVec 128) i =>
    (if x.getMsbD i then zv.1 ^^^ zv.2 else zv.1,
      if zv.2.getLsbD 0 then (zv.2 >>> 1) ^^^ (BitVec.ofNat 128 (0xE1 * 2 ^ 120)) else zv.2 >>> 1)) (0, y)).1

/-- GHASH of whole blocks. -/
def ghash (h : BitVec 128) (bs : List Byte) : BitVec 128 :=
  (blocks16 bs).foldl (fun y b => ghashMul (y ^^^ BitVec.ofNat 128 (unbe (pad 16 b))) h) 0

/-- Bytes filled with zeros to a multiple of 16. -/
def pad16 (bs : List Byte) : List Byte := pad (16 * ceilDiv bs.length 16) bs

/-- The `i`-th GCM counter block after the nonce's first. -/
def gcmCounter (nonce : List Byte) (i : Nat) : List Byte := pad 12 nonce ++ be 4 (i % 2 ^ 32)

/-- GCM text of a stream that starts at its first block. -/
def gcmText (key nonce text : List Byte) : List Byte :=
  xorBytes text ((List.range (ceilDiv text.length 16)).flatMap fun i => Config.aesEnc key (gcmCounter nonce (i + 2)))

/-- The 16-byte tag over additional data and ciphertext. -/
def gcmTag (key nonce aad ct : List Byte) : List Byte :=
  let h := BitVec.ofNat 128 (unbe (Config.aesEnc key (zeros 16)))
  let y := ghash h (pad16 aad ++ pad16 ct ++ be 8 (8 * aad.length) ++ be 8 (8 * ct.length))
  xorBytes (be 16 y.toNat) (Config.aesEnc key (gcmCounter nonce 1))

/-! ### A general lane's stream (Table 9.6) -/

/-- What a CIPHER stream gives for the input taken so far. `unit j` is the data unit number of the replica's
`j`-th chunk of `size` bytes; `done` says that the end mark has been consumed, `aad` is AADLEN.
PRESUMED: log entry 10. -/
def laneOut (mode : Nat) (key iv : List Byte) (aad size reps rep : Nat) (input : List Byte) (done : Bool) : List Byte :=
  let chunkNo (j : Nat) : Nat := j * reps + rep
  let chunk (j : Nat) : List Byte := (input.drop (j * size)).take size
  match mode with
  | 1 =>
    let ct := gcmText key iv (input.drop aad)
    if done then ct ++ gcmTag key iv (input.take aad) ct else ct
  | 2 => gcmText key iv ((input.drop aad).take (input.length - aad - 16))
  | 3 => (List.range (ceilDiv input.length size)).flatMap fun j => ctrAt key (unbe iv) (chunkNo j * size) (chunk j)
  | 4 => cbcEnc key iv (blocks16 input)
  | 5 => cbcDec key iv (blocks16 input)
  | _ =>
    (List.range (ceilDiv input.length size)).flatMap fun j =>
      if (chunk j).length = size ∨ (done ∧ (chunk j).length ≥ 16) then xtsUnit (mode == 6) key (unle iv + chunkNo j) (chunk j) else []

/-- The tag at the end of a GCM-DEC stream verifies (R378). -/
def gcmGood (key iv : List Byte) (aad : Nat) (input : List Byte) : Bool :=
  input.length ≥ aad + 16
    && gcmTag key iv (input.take aad) ((input.drop aad).take (input.length - aad - 16)) == input.drop (input.length - 16)

/-- The stream breaks the length rule of its mode (R375). -/
def laneLengthBad (mode size : Nat) (input : List Byte) : Bool :=
  if mode = 4 ∨ mode = 5 then input.length % 16 ≠ 0
  else if mode = 6 ∨ mode = 7 then input.length % size ≠ 0 && input.length % size < 16
  else false

end Sys2Proof.Machine
end

