-- ==== Sys2Proof/Machine/Plan.lean ====
section
/-! DEFINITION. The Firn plan as data (file 02): window lengths, the 160 bytes of Tables 2.4 and 2.5, and
the codes of window types and lock states. -/

namespace Sys2Proof

open Machine

/-- Nominal period in 1/1024 of a 2 ns tick, which no PERIOD_NS rounds (R582). -/
def Plan.period (p : Plan) : Nat := 512 * p.periodNs

/-- End of window i in phase steps: the START of the next, or the beat boundary (R44). -/
def Plan.windowEnd (p : Plan) (i : Nat) : Nat :=
  match p.windows[i + 1]? with
  | some w => w.start
  | none => 4096

/-- Nominal length of window i in phase steps. -/
def Plan.windowLen (p : Plan) (i : Nat) : Nat :=
  match p.windows[i]? with
  | some w => p.windowEnd i - w.start
  | none => 0

/-- Nominal length of window i in ns. -/
def Plan.windowNs (p : Plan) (i : Nat) : Nat := p.windowLen i * p.periodNs / 4096

/-- The longest MAINT window in ns. -/
def Plan.longestMaintNs (p : Plan) : Nat :=
  ((List.range p.windows.length).map fun i =>
    match p.windows[i]? with
    | some w => if w.type = .maint then p.windowNs i else 0
    | none => 0).foldl max 0

def WType.code : WType → Nat
  | .still => 1
  | .work => 2
  | .maint => 3

def Machine.Lock.code : Machine.Lock → Nat
  | .freeRun => 0
  | .acquire => 1
  | .locked => 2
  | .holdover => 3

def Window.bytes (w : Window) : List Byte := le 2 w.start ++ le 1 w.type.code ++ zeros 5

/-- The plan as 160 bytes (R43, R44). -/
def Plan.bytes (p : Plan) : List Byte :=
  le 2 1 ++ le 1 p.source ++ le 1 p.windows.length ++ le 4 p.periodNs
    ++ le 1 (if p.fallingEdge then 1 else 0) ++ le 1 p.cycout ++ le 2 p.cycoutWidth ++ le 2 p.cycinFilter
    ++ le 2 p.epochFn ++ le 2 p.telemPhase ++ le 2 p.powerPhase ++ le 4 p.ovrInterval ++ zeros 8
    ++ pad 128 (p.windows.flatMap Window.bytes)

/-- A reserved value stands in the plan (R45); a WCOUNT outside 1 to 16 counts as one. DESIGN CHOICE: log entry 104. -/
def Plan.reserved (p : Plan) : Bool :=
  p.source > 2 || p.cycout > 2 || p.windows.length < 1 || p.windows.length > 16
    || p.telemPhase > 4095 || p.powerPhase > 4095 || p.windows.any fun w => w.start > 4095


end Sys2Proof
end

