-- ==== Sys2Proof/Machine/Firn.lean ====
section
/-! DEFINITION. Firn (file 02): phase arithmetic, the plan and its checks, edges and lock states, epochs,
the status block and log page 0xC0. What a beat boundary and a window start do to the other blocks stands
in Beat.lean. -/

namespace Sys2Proof.Machine

/-! ### Phase arithmetic (R42, R582) -/

/-- The increment of the accumulator for a period in 1/1024 tick: 2^48 / P rounded, a half up (R582). -/
def firnIncrement (period : Nat) : Nat := if period = 0 then 0 else (2 * 2 ^ 58 + period) / (2 * period)

/-- A duration in ns as phase steps (R42). -/
def phaseSteps (p : Plan) (ns : Nat) : Nat := ceilDiv (ns * 4096) p.periodNs

/-- The forward distance from phase `a` to phase `b` (R42). -/
def phaseDistance (a b : Nat) : Nat := (b + 4096 - a % 4096) % 4096

/-- The accumulator at the present tick with its wraps. -/
def firnTotal (s : State) : Nat :=
  if s.firn.started then s.firn.acc.toNat + (s.now - s.firn.accTick) * firnIncrement s.firn.period else 0

/-- The accumulator at the present tick. -/
def firnAcc (s : State) : Nat := firnTotal s % 2 ^ 48

/-- Wraps up to the present tick whose beat boundary is still to come (R40). DESIGN CHOICE: log entry 22. -/
def firnOwed (s : State) : Nat := s.firn.owed + firnTotal s / 2 ^ 48

/-- The phase: the top 12 bits of the accumulator. -/
def firnPhase (s : State) : Nat := firnAcc s / 2 ^ 36

/-- Phase step `p` of the beat in progress has started (R41). DESIGN CHOICE: log entry 22. -/
def phaseReached (s : State) (p : Nat) : Bool := 0 < firnOwed s || p ≤ firnPhase s

/-- Bring the accumulator up to date before the period changes; the phase never jumps, and every wrap is kept for its
boundary (R38, R40). -/
def firnRebase (s : State) : State :=
  { s with firn := { s.firn with
    acc := BitVec.ofNat 48 (firnAcc s), accTick := s.now, owed := firnOwed s } }

/-! ### Windows -/

/-- The planned type of the current window. -/
def firnPlanned (s : State) : Option WType := (s.firn.plan.windows[s.firn.window]?).map (·.type)

/-- A MAINT override is in force: it lasts at most 4 ms, whenever its end is reported (R56). -/
def ovrActive (s : State) : Bool :=
  match s.firn.ovr with
  | some (_, d) => s.now < d
  | none => false

/-- The type as the window acts: MAINT during an override (R57). -/
def firnActs (s : State) : Option WType :=
  if !s.firn.started then none else if ovrActive s then some .maint else firnPlanned s

/-- The guard G of the suspend point (Table 2.8). -/
def firnGuard (s : State) : Nat := phaseSteps s.firn.plan (Config.tSuspendMaxNs + 2000)

/-- The suspend point of a window (Table 2.8). -/
def firnSuspendPoint (s : State) (start : Nat) : Nat := (start + 4096 - firnGuard s % 4096) % 4096

/-- tX in us (R60). -/
def stillTx : Nat := ceilDiv (16384 * 10 + 4 * Config.channelRate) (10 * Config.channelRate)

/-- The still read budget N (R60). -/
def stillBudget : Nat := 82000 / (Config.tReadMaxNs + 1000 * stillTx)

/-- FIRN_POS.BOUND: the window, lock, override and first-beat conditions of R58. DESIGN CHOICE: log entry 25. -/
def firnBound (s : State) : Bool :=
  s.firn.started && firnPlanned s == some .still && s.firn.plan.windowNs s.firn.window ≥ 200000
    && (s.firn.lock == .locked || s.firn.lock == .holdover) && !ovrActive s
    && !s.firn.stillExcluded.contains s.firn.window
    -- no override overlapped the window, though its 4 ms have passed since
    && (s.firn.ovr.map fun o => decide (o.2 ≤ s.firn.windowAt)).getD true

/-! ### The plan (Tables 2.4 to 2.6) -/

/-- The first index from `i` on at which `bad` holds of two neighbours. -/
def firstPair (bad : Window → Window → Bool) : Nat → List Window → Option Nat
  | i, a :: b :: l => if bad a b then some (i + 1) else firstPair bad (i + 1) (b :: l)
  | _, _ => none

/-- The first index at which `bad` holds. -/
def firstIx (bad : Nat → Bool) (n : Nat) : Option Nat := (List.range n).find? bad

/-- The lowest-numbered rule of Table 2.6 that a plan breaks, with the window index (R45). `tenants` are
those that exist, `stillNs` says whether a still-class namespace exists. -/
def planReason (tenants : List Nat) (stillNs : Bool) (p : Plan) : Option (Nat × Nat) :=
  let n := p.windows.length
  let has (t : WType) : Bool := p.windows.any (·.type == t)
  let stillSteps := ((List.range n).map fun i =>
    if (p.windows[i]?).map (·.type) = some .still then p.windowLen i else 0).foldl (· + ·) 0
  if (p.windows[0]?).map (·.start) ≠ some 0 then some (1, 0)
  else match firstPair (fun a b => b.start ≤ a.start) 0 p.windows with
  | some i => some (2, i)
  | none => match firstPair (fun a b => a.type == b.type) 0 p.windows with
  | some i => some (3, i)
  | none =>
    if !(has .work && has .maint) then some (4, 0xFF)
    else match firstIx (fun i => p.windowLen i * p.periodNs < 1000 * 4096) n with
    | some i => some (5, i)
    | none =>
      if stillSteps > 3072 then some (6, 0xFF)
      else if p.periodNs < 50000 || p.periodNs > 1000000000
        || (p.cycout = 1 && (p.cycoutWidth < 1 || p.cycoutWidth > 2048)) || (p.cycout ≠ 1 && p.cycoutWidth ≠ 0)
        || p.cycinFilter > 1000 || p.ovrInterval < 60 || p.ovrInterval > 86400 then some (7, 0xFF)
      else if (p.source = 2 && !tenants.contains p.epochFn) || (p.source ≠ 2 && p.epochFn ≠ 0) then some (8, 0xFF)
      else if has .still && (!stillNs || stillBudget = 0) then
        some (9, (firstIx (fun i => (p.windows[i]?).map (·.type) == some .still) n).getD 0)
      else if p.longestMaintNs < 4000000 && p.ovrInterval > 10800 then some (0xA, 0xFF)
      else none

/-! ### Lock states (R32 to R39) -/

/-- The current period estimate in 1/1024 tick: the mean of the measured periods, the nominal without any.
DEDUCED: log entry 23. -/
def firnEstimate (s : State) : Nat :=
  if s.firn.periods.isEmpty then s.firn.plan.period
  else s.firn.periods.foldl (· + ·) 0 * 1024 / s.firn.periods.length

/-- 1.5 times the period estimate, in ticks (R37). -/
def firnLossTicks (s : State) : Nat := firnEstimate s * 3 / 2048

/-- A period at most `lim` millionths off the estimate, longer to take out a positive phase error and shorter to take out
a negative one (R34, R38, Table 2.2). DEDUCED: log entry 15. -/
def firnSlew (err : Int) (est lim v : Nat) : Nat :=
  let d := est * lim / 1000000
  if err > 0 then max est (min v (est + d)) else if err < 0 then max (est - d) (min v est) else est

/-- The period the DPLL runs at in a lock state (Table 2.2); in LOCKED within 50 ppm of the source's mean, which is
tighter than the slew limit (R35). DEDUCED: log entry 15. -/
def firnPeriodIn (s : State) (l : Lock) : Nat :=
  let est := firnEstimate s
  let v := Config.dpllPeriod s.firn.phErr s.firn.periods
  if s.firn.plan.source = 0 then s.firn.plan.period
  else match l with
  | .freeRun => s.firn.plan.period
  | .acquire => firnSlew s.firn.phErr est 20000 v
  | .locked => firnSlew s.firn.phErr est 50 v
  | .holdover => est

/-- Enter a lock state, with the FIRN_LOCK record when it differs (R33, R36, R39). -/
def firnEnter (l : Lock) (s : State) : State :=
  if s.firn.lock = l then s
  else
    let old := s.firn.lock
    let s := { s with firn := { s.firn with
      lock := l
      lockEntries := s.firn.lockEntries + (if l = .locked then 1 else 0)
      good := 0, far := 0, bad := 0, acceptedRun := 0
      holdLeft := if l = .holdover then 64 else 0
      lossAt := if l = .holdover || l = .freeRun then none else s.firn.lossAt
      lossDeferred := false } }
    rimeDev 0x0101 sevNotice true (le 1 old.code ++ le 1 l.code ++ zeros 2 ++ le 8 s.firn.beat.toNat) s

/-- Run at the period of the lock state from here on. -/
def firnSetPeriod (s : State) : State :=
  let s := firnRebase s
  { s with firn := { s.firn with period := firnPeriodIn s s.firn.lock } }

/-- Restart the beat-loss timer where it runs (R37). -/
def firnRestartLoss (at_ : Tick) (s : State) : State :=
  let runs := s.firn.plan.source ≠ 0 && (s.firn.lock = .acquire || s.firn.lock = .locked)
  { s with firn := { s.firn with
    lossAt := if runs then some (at_ + firnLossTicks s) else none, lossDeferred := false } }

/-- The phase error of an edge in ticks: positive after the nearest device boundary (R34).
DESIGN CHOICE: log entry 22. -/
def firnError (s : State) (at_ : Tick) : Int :=
  let inc := max 1 (firnIncrement s.firn.period)
  let a := ((s.firn.acc.toNat + ((at_ : Int) - s.firn.accTick) * inc) % 2 ^ 48).toNat
  let after := a / inc
  let before := ceilDiv (2 ^ 48 - a) inc
  if after ≤ before then (after : Int) else -(before : Int)

/-- An error is at most `k` phase steps in size (R42). -/
def withinSteps (p : Plan) (k : Nat) (e : Int) : Bool := e.natAbs * 8192 ≤ k * p.periodNs

/-- Two edges lie the nominal period apart within 2,000 ppm (R27, R34). -/
def withinPpm (p : Plan) (d : Nat) : Bool :=
  (((2 * d : Nat) : Int) - p.periodNs).natAbs * 1000000 ≤ 2000 * p.periodNs

/-- An edge is accepted in the present lock state (R34). DEDUCED: log entry 23. -/
def edgeAccepted (s : State) (at_ : Tick) : Bool :=
  match s.firn.lock with
  | .locked | .holdover => withinSteps s.firn.plan 256 (firnError s at_)
  | .acquire | .freeRun => match s.firn.lastEdge with
    | some e => withinPpm s.firn.plan (at_ - e)
    | none => false

/-- The next lock state after an edge that has been counted (Table 2.3). DEDUCED: log entry 23. -/
def edgeLock (f : Firn) (accepted : Bool) (within2 : Bool) : Lock :=
  match f.lock with
  | .acquire => if f.good ≥ 16 then .locked else .acquire
  | .locked => if f.far ≥ 4 || f.bad ≥ 4 then .acquire else .locked
  | .holdover =>
    if f.good ≥ 4 then .locked else if accepted && !within2 then .acquire else .holdover
  | .freeRun => if f.acceptedRun ≥ 2 then .acquire else .freeRun

/-- An edge of the selected source (R34 to R39). DEDUCED: log entry 23. -/
def firnEdge (at_ : Tick) (s : State) : State :=
  let e := firnError s at_
  let ok := edgeAccepted s at_
  let w2 := withinSteps s.firn.plan 2 e
  let w16 := withinSteps s.firn.plan 16 e
  let f := s.firn
  let f := { f with
    accepted := f.accepted + (if ok then 1 else 0)
    rejected := f.rejected + (if ok then 0 else 1)
    phErr := if ok then max (-32767) (min 32767 e) else f.phErr
    good := if ok && w2 then f.good + 1 else 0
    far := if ok && !w16 then f.far + 1 else 0
    bad := if ok then 0 else f.bad + 1
    acceptedRun := if ok then f.acceptedRun + 1 else 0
    -- a measured period lies between two accepted edges with no edge missed and none rejected between them (R34)
    periods := match ok, f.lastEdge with
      | true, some p =>
        if 0 < f.acceptedRun && at_ - p ≤ firnLossTicks s then ((at_ - p) :: f.periods).take 16 else f.periods
      | _, _ => f.periods
    lastEdge := some at_ }
  let l := edgeLock f ok w2
  let s := firnEnter l { s with firn := f }
  firnRestartLoss at_ (firnSetPeriod s)

/-- Beat loss is declared (R37, R39). -/
def firnLose (s : State) : State :=
  let l : Lock := match s.firn.lock with
    | .acquire => .freeRun
    | .locked => .holdover
    | x => x
  let est := firnEstimate s
  let s := { s with firn := { s.firn with losses := s.firn.losses + 1, lossAt := none, lossDeferred := false } }
  -- R521: the records of one tick rise in CODE, so FIRN_LOCK comes before FIRN_BEAT_LOSS
  let s := firnEnter l s
  let s := rimeDev 0x0102 sevWarning true (le 4 (est / 1024) ++ le 8 s.firn.beat.toNat) s
  firnSetPeriod s

/-- The edge tick of a waiting command that ends the beat-loss timer (Table 2.10). DEDUCED: log entry 23. -/
def edgeEvent (s : State) : Instr → Option Tick
  | .cycinEdge t x =>
    if s.firn.plan.source = 1 && x.falling == s.firn.plan.fallingEdge && s.firn.plan.cycinFilter ≤ x.held then some t
    else none
  | .epochEdge t => if s.firn.plan.source = 2 then some t else none
  | _ => none

/-- The first tick of a level change that waits in the glitch filter (R37). DEDUCED: log entry 23. -/
def filterEvent (s : State) : Instr → Option Tick
  | .cycinFilterDecision _ first f _ =>
    if s.firn.plan.source = 1 && f == s.firn.plan.fallingEdge then some first else none
  | _ => none

/-- CYCIN_EDGE: a level change at its timestamp `t`: an edge when the new level holds for at least CYCIN_FILTER ticks
(R28, R34). -/
def execCycinEdge (t : Tick) (level : CycLevel) (s : State) : Host.Outcome State Fault Refusal :=
  let s := s.arrive t
  .next (if s.firn.started && s.firn.plan.source = 1 && level.falling == s.firn.plan.fallingEdge
      && s.firn.plan.cycinFilter ≤ level.held
    then firnEdge t s else s)

/-- CYCIN_FILTER_DECISION: the filter confirms or refuses a level change first seen at `first`: it confirms only a level
that has held CYCIN_FILTER ticks, and refuses only one that has not (R28, R37). DEDUCED: log entry 23. -/
def execCycinFilterDecision (t first : Tick) (falling confirmed : Bool) (s : State) :
    Host.Outcome State Fault Refusal :=
  let s := s.arrive t
  .next (
    if !(s.firn.started && s.firn.plan.source = 1 && falling == s.firn.plan.fallingEdge) then s
    else if first + s.firn.plan.cycinFilter ≤ t then (if s.firn.lastEdge = some first then s else firnEdge first s)
    else if !confirmed && s.firn.lossDeferred then firnLose s
    else s)

/-- BEAT_LOSS: the beat-loss timer expires (R37, R65). -/
def execBeatLoss (t : Tick) (s : State) : Host.Outcome State Fault Refusal :=
  let s := s.arrive t
  .next (match s.firn.lossAt with
    | none => s
    | some d =>
      if !s.firn.started || !s.expired d || s.awaited (edgeEvent s) d then s
      else if s.awaited (filterEvent s) d then { s with firn := { s.firn with lossDeferred := true } }
      else firnLose s)

/-- HOLDOVER_EXPIRE: the 64th beat boundary after beat loss (R36). DEDUCED: log entry 23. -/
def firnHoldoverEnd (s : State) : State :=
  if s.firn.started && s.firn.lock == .holdover && s.firn.holdLeft == 0
  then firnSetPeriod (firnEnter .freeRun s) else s

def execHoldoverExpire (t : Tick) (s : State) : Host.Outcome State Fault Refusal :=
  .next (firnHoldoverEnd (s.arrive t))

/-! ### Host epochs (R29 to R31) -/

/-- The function is an epoch function (R29). -/
def epochFunction (s : State) (f : Fn) : Bool := s.firn.plan.source == 2 && f.tenant == s.firn.plan.epochFn

/-- Series held (R66). -/
def seriesHeld (s : State) : Nat :=
  (if s.firn.active.isSome then 1 else 0) + (if s.firn.queued.isSome then 1 else 0)

/-- The PTM context of a port is valid (R31). DEDUCED: log entry 24. -/
def ptmValid (s : State) (p : Port) : Bool :=
  match (s.link p).ptmUntil with
  | some d => s.now ≤ d
  | none => false

/-- The PTM master time at the present tick, by the last dialogue of the port (R29). DEDUCED: log entry 24. -/
def ptmNow (s : State) (p : Port) : Nat := (s.link p).ptmBase.1 + 2 * (s.now - (s.link p).ptmBase.2)

/-- Count an epoch write that is rejected (R29, R30, R67). -/
def epochReject (s : State) : State :=
  { s with firn := { s.firn with rejectedWrites := min (2 ^ 32 - 1) (s.firn.rejectedWrites + 1) } }

/-- A dropped register write: REGERR with its offset, MULTI when one already stands (R10, R453). -/
def devWinErr (f : Fn) (off : Nat) (s : State) : State :=
  s.setCtrl f fun c => { c with
    devErr := if c.devErr.regErr then { c.devErr with multi := true }
      else { c.devErr with regErr := true, offset := off } }

/-- An epoch write of a function: GO with the COUNT of the same write (R29, R30, R66). A series accepted while none is
active becomes the active one at once. DESIGN CHOICE: log entry 24. -/
def epochWrite (f : Fn) (count : Nat) (s : State) : State :=
  match s.ctrl? f with
  | none => s
  | some c =>
    if !epochFunction s f then epochReject s
    else if count = 0 then
      -- R66: COUNT 0 is a reserved encoding, and R10 drops the write
      devWinErr f 0x3028 s
    else
      let s := s.setCtrl f fun c => { c with epochCount := count }
      let t0 := c.epochLo.toNat + 2 ^ 32 * c.epochHi.toNat
      if !ptmValid s f.port || t0 < ptmNow s f.port + 10000 || seriesHeld s = 2 then epochReject s
      else
        let ser : Series := { t0 := t0, left := count, port := f.port }
        { s with firn := if s.firn.active.isNone then { s.firn with active := some ser }
                         else { s.firn with queued := some ser } }

/-- FIRN_EPOCH_GO: a write of 1 to GO with the COUNT of the same write (R29, R30); the reserved bits [31:17] are ignored
(R8, R66). DESIGN CHOICE: log entry 24. -/
def execFirnEpochGo (t : Tick) (f : Fn) (count _rest : Nat) (s : State) : Host.Outcome State Fault Refusal :=
  let s := s.arrive t
  .next (if hostReaches s f then epochWrite f count s else s)

/-- PTM-corrected local time has reached the next beat time of a series (R29, R30). -/
def seriesReached (s : State) (ser : Series) : Bool := ptmValid s ser.port && ser.t0 ≤ ptmNow s ser.port

/-- EPOCH_EDGE: local time reaches the next beat time of the active series (R30). -/
def execEpochEdge (t : Tick) (s : State) : Host.Outcome State Fault Refusal :=
  let s := s.arrive t
  .next (match s.firn.active with
    | none => s
    | some ser =>
      if !s.firn.started || s.firn.plan.source ≠ 2 || !seriesReached s ser then s
      else
        let rest : Option Series := if ser.left ≤ 1 then none
          else some { ser with left := ser.left - 1, t0 := ser.t0 + s.firn.plan.periodNs }
        let s := { s with firn := { s.firn with active := rest } }
        firnEdge t s)

/-- EPOCH_SERIES_SWITCH: the queued series reaches its T0 and the rest of the old one is dropped (R30). -/
def execEpochSeriesSwitch (t : Tick) (s : State) : Host.Outcome State Fault Refusal :=
  let s := s.arrive t
  .next (match s.firn.queued with
    | none => s
    | some q => if !seriesReached s q then s else { s with firn := { s.firn with active := some q, queued := none } })

/-- The PTM context of a port becomes invalid: every held series is dropped (R31). DEDUCED: log entry 24. -/
def losePtm (p : Port) (s : State) : State :=
  if (s.link p).ptmUntil.isNone then s
  else
    let s := s.setLink p fun l => { l with ptmUntil := none }
    { s with firn := { s.firn with active := none, queued := none } }

/-- PTM_DIALOGUE: a dialogue on a port succeeds, and gives the master time in ns, or fails (R29, R31). -/
def execPtmDialogue (t : Tick) (p : Port) (answer : Option Nat) (s : State) : Host.Outcome State Fault Refusal :=
  let s := s.arrive t
  .next (match answer with
    | none => s
    | some master =>
      if s.firn.plan.source = 2 then
        s.setLink p fun l => { l with ptmUntil := some (s.now + 50 * ticksPerMs), ptmBase := (master, s.now) }
      else s)

/-- A successful dialogue of the port among the waiting commands. DEDUCED: log entry 24. -/
def ptmEvent (p : Port) : Instr → Option Tick
  | .ptmDialogue t q (some _) => if p = q then some t else none
  | _ => none

/-- PTM_CONTEXT_LAPSE: 50 ms pass since the port's last successful dialogue (R31). -/
def execPtmContextLapse (t : Tick) (p : Port) (s : State) : Host.Outcome State Fault Refusal :=
  let s := s.arrive t
  .next (match (s.link p).ptmUntil with
    | none => s
    | some d =>
      if !s.expired d || s.awaited (ptmEvent p) d then s
      else losePtm p s)

/-! ### The status block (R66) -/

/-- FIRN_POS. -/
def firnPos (s : State) : Nat :=
  let b (x : Bool) : Nat := if x then 1 else 0
  if !s.firn.started then 0
  else
    firnPhase s + 2 ^ 12 * s.firn.window + 2 ^ 16 * ((firnActs s).map WType.code).getD 0
      + 2 ^ 18 * s.firn.lock.code + 2 ^ 20 * s.firn.plan.source + 2 ^ 22 * b (firnBound s)
      + 2 ^ 23 * b s.firn.tailUntil.isSome + 2 ^ 24 * b (ovrActive s) + 2 ^ 25 * b s.firn.ovrPend.isSome

/-- FIRN_BEAT_LO_READ: reading BEAT_COUNT [31:0] latches the other two words (R66). -/
def execFirnBeatLoRead (t : Tick) (f : Fn) (s : State) : Host.Outcome State Fault Refusal :=
  let s := s.arrive t
  .next (match s.ctrl? f with
    | none => s
    | some _ =>
      if !hostReaches s f then s else
      let hi := s.firn.beat.extractLsb' 32 32
      let pos := BitVec.ofNat 32 (firnPos s)
      let s := s.setCtrl f fun c => { c with beatHi := hi, posL := pos }
      s.emit (.regRead f (s.firn.beat.extractLsb' 0 32)))

/-- The beat number of the next override, 0 when none is announced. -/
def firnOvrBeat (s : State) : Nat := (s.firn.ovrPend.map (·.1)).getD 0

/-- The three still-read counts as a view shows them: all tenants', or one tenant's (R67). -/
def stillCounts (s : State) (view : Option Nat) : Nat × Nat × Nat :=
  s.firn.stillReads.foldl (fun a r =>
    if view = none ∨ view = some r.1 then (a.1 + r.2.1, a.2.1 + r.2.2.1, a.2.2 + r.2.2.2) else a)
    (if view = none then s.firn.stillGone else (0, 0, 0))

/-- Log page 0xC0 (Table 2.13). -/
def logC0 (s : State) (view : Option Nat) : List Byte :=
  let b (x : Bool) : Nat := if x then 1 else 0
  let k := stillCounts s view
  le 8 s.firn.beat.toNat ++ le 2 (firnPhase s) ++ le 1 s.firn.window
    ++ le 1 ((firnActs s).map WType.code |>.getD 0) ++ le 1 s.firn.lock.code ++ le 1 s.firn.plan.source
    ++ le 1 s.firn.holdLeft
    ++ le 1 (b (firnBound s) + 2 * b s.firn.tailUntil.isSome + 4 * b (ovrActive s) + 8 * b s.firn.ovrPend.isSome)
    ++ le 4 s.firn.plan.periodNs ++ le 4 (s.firn.period / 1024) ++ le 8 s.firn.accepted ++ le 8 s.firn.rejected
    ++ le 4 s.firn.losses ++ le 4 s.firn.lockEntries ++ le 8 (firnOvrBeat s) ++ le 2 stillBudget
    ++ le 2 (Config.tReadMaxNs / 100) ++ le 2 stillTx ++ le 2 (firnGuard s)
    ++ le 8 k.1 ++ le 8 k.2.1 ++ le 4 k.2.2 ++ le 4 s.firn.rejectedWrites ++ s.firn.plan.bytes ++ zeros 264

/-! ### The start of Firn and a change of plan (R33, R36) -/

/-- Start Firn with the plan in force. The windows whose suspend point falls before the first boundary are
excluded in the first beat (R53). -/
def firnStart (s : State) : State :=
  let f := { s.firn with
    started := true, beat := 0, acc := 0, accTick := s.now, owed := 0, window := 0
    period := s.firn.plan.period, telemDone := false, powerDone := false, periods := [], lastEdge := none }
  let s := firnEnter (if s.firn.plan.source = 0 then .locked else .acquire) { s with firn := f }
  let excl := (List.range s.firn.plan.windows.length).filter fun i =>
    match s.firn.plan.windows[i]? with
    | some w => w.type == .still && firnGuard s > w.start
    | none => false
  firnRestartLoss s.now { s with firn := { s.firn with stillExcluded := excl, suspended := !excl.isEmpty } }

/-- A committed change of beat source: its FIRN_SOURCE record, and the state it enters (R33, R36, R39). -/
def firnSourceChange (old : Nat) (s : State) : State :=
  if old = s.firn.plan.source then s
  else
    let s := { s with firn := { s.firn with
      lastEdge := none, periods := [], active := none, queued := none,
      good := 0, far := 0, bad := 0, acceptedRun := 0 } }
    let s := firnEnter (if s.firn.plan.source = 0 then .locked else .acquire) s
    rimeDev 0x0103 sevNotice true (le 1 old ++ le 1 s.firn.plan.source ++ zeros 2 ++ le 8 s.firn.beat.toNat) s

/-- A plan takes effect at a beat boundary: STILL windows whose suspend point lies in the beat before are
excluded in this beat, unless the old plan already had that suspend point (R47, R53). -/
def firnNewPlan (p : Plan) (s : State) : State :=
  let oldPoints := (s.firn.plan.windows.filter (·.type == .still)).map fun w => firnSuspendPoint s w.start
  let old := s.firn.plan.source
  let samePeriod := s.firn.plan.periodNs == p.periodNs
  let s := { s with firn := { s.firn with plan := p } }
  let excl := (List.range p.windows.length).filter fun i =>
    match p.windows[i]? with
    | some w => w.type == .still && firnGuard s > w.start
        && !(samePeriod && oldPoints.contains (firnSuspendPoint s w.start))
    | none => false
  let s := { s with firn := { s.firn with stillExcluded := excl } }
  let s := firnSetPeriod (firnSourceChange old s)
  -- R37: only an edge restarts the timer; a new source starts it afresh
  if old = p.source then s else firnRestartLoss s.now s

end Sys2Proof.Machine
end

