-- ==== Sys2Proof/Machine/HostOps.lean ====
section
/-! DEFINITION. Operations shared by every command that a host sends (file 03): statuses, the posting of
completion entries and interrupts, asynchronous events, and the end of a command in a slot. -/

namespace Sys2Proof.Machine

/-- CNTLID = 2 x tenant + p (R74). -/
def cntlid (f : Fn) : Nat := 2 * f.tenant + (if f.port = .b then 1 else 0)

/-! ### Statuses (Table 3.9) -/

def stOk : Status := ⟨0, 0x00, false⟩
def stOpcode : Status := ⟨0, 0x01, true⟩
def stField : Status := ⟨0, 0x02, true⟩
def stCidConflict : Status := ⟨0, 0x03, true⟩
def stDataTransfer : Status := ⟨0, 0x04, false⟩
def stInternal : Status := ⟨0, 0x06, false⟩
def stAborted : Status := ⟨0, 0x07, true⟩
def stSqDeleted : Status := ⟨0, 0x08, true⟩
def stNamespace : Status := ⟨0, 0x0B, true⟩
/-- PRESUMED: log entry 31. -/
def stSequence : Status := ⟨0, 0x0C, true⟩
def stSglSegment : Status := ⟨0, 0x0D, true⟩
def stSglLength : Status := ⟨0, 0x0F, true⟩
def stSglType : Status := ⟨0, 0x11, true⟩
def stPrpOffset : Status := ⟨0, 0x13, true⟩
def stSanitize : Status := ⟨0, 0x1D, false⟩
def stProtected : Status := ⟨0, 0x20, true⟩
def stLbaRange : Status := ⟨0, 0x80, true⟩
def stCapacity : Status := ⟨0, 0x81, true⟩
def stNotReady : Status := ⟨0, 0x82, false⟩
def stReservation : Status := ⟨0, 0x83, true⟩
def stFormat : Status := ⟨0, 0x84, false⟩
def stWriteFault : Status := ⟨2, 0x80, false⟩
def stUnrecovered : Status := ⟨2, 0x81, true⟩
def stCompare : Status := ⟨2, 0x85, true⟩
def stInaccessible : Status := ⟨3, 0x02, false⟩

/-! ### Interrupts and completion entries -/

/-- A vector's message: sent, or left pending while the vector's mask bit is set (R70, R83). -/
def sendMsix (f : Fn) (vector : Nat) (s : State) : State :=
  match s.ctrl? f with
  | none => s
  | some c =>
    if (Memory.read (16 * vector + 12) c.msixTable).toNat % 2 = 1 then
      s.setCtrl f fun c => { c with msixPending := if c.msixPending.contains vector then c.msixPending else c.msixPending ++ [vector] }
    else s.emit (.msix f vector)

/-- An entry was posted to an I/O CQ's vector: interrupt coalescing (R83). The admin CQ is not coalesced. -/
def interrupt (f : Fn) (cqid vector : Nat) (s : State) : State :=
  match s.ctrl? f with
  | none => s
  | some c =>
    if cqid = 0 || c.coalThr = 0 || c.coalTime = 0 then sendMsix f vector s
    else
      let old := (get? vector c.coalWaiting).getD (0, s.now)
      if old.1 + 1 > c.coalThr then
        sendMsix f vector (s.setCtrl f fun c => { c with coalWaiting := c.coalWaiting.filter (·.1 != vector) })
      else s.setCtrl f fun c => { c with coalWaiting := put vector (old.1 + 1, old.2) c.coalWaiting }

/-- The completion queue of an SQ: its identifier and vector. -/
def Ctrl.cqOf (c : Ctrl) (sqid : Nat) : Nat × Nat :=
  if sqid = 0 then (0, c.acq.vector)
  else match c.sqs.find? (·.qid == sqid) with
    | none => (0, 0)
    | some q => (q.cqid, ((c.cqs.find? (·.qid == q.cqid)).map (·.vector)).getD 0)

/-- Post a completion entry to a controller (R104). -/
def postCqe (f : Fn) (sqid cid : Nat) (st : Status) (dw0 : Nat) (s : State) : State :=
  match s.ctrl? f with
  | none => s
  | some c =>
    let (cqid, vector) := c.cqOf sqid
    let s := s.emit (.cqe f cqid sqid cid st dw0)
    let step (q : Cq) : Cq := if q.qid = cqid then { q with tail := (q.tail + 1) % max 1 q.size } else q
    let s := s.setCtrl f fun c => { c with acq := step c.acq, cqs := c.cqs.map step }
    interrupt f cqid vector s

/-- The charge a slot still holds goes back to its namespace (R144). -/
def giveBack (sl : Slot) (s : State) : State :=
  let less (c : Nat × Nat) (g : Nat × Nat) : Nat × Nat :=
    if g.1 / 512 % 2 = 0 then (c.1 - g.2, c.2) else (c.1, c.2 - g.2)
  s.setNs sl.sqe.nsid fun n => { n with charged := sl.charge.foldl less n.charged }

/-- Write data of an ended command that has not committed is freed, and its charge goes back (R106, R144). -/
def dropStaged (sl : Slot) (s : State) : State :=
  let dead (p : Staged) : Bool := p.asn == sl.asn && !p.committed
  let less (c : Nat × Nat) (g : Nat × Nat) : Nat × Nat :=
    if g.1 / 512 % 2 = 0 then (c.1 - g.2, c.2) else (c.1, c.2 - g.2)
  let s := (s.staged.filter dead).foldl (fun s p =>
    s.setNs p.nsid fun n => { n with charged := p.charge.foldl less n.charged }) s
  { s with staged := s.staged.filter fun p => !dead p }

/-- Reads of media that nothing needs any more are dropped; an operation already on a die ends unheeded. -/
def dropReads (mine : ReadUse → Bool) (s : State) : State :=
  let gone := (s.media.rebuilding.filter (mine ·.use)).map (·.id)
  let dead (u : ReadUse) : Bool := mine u || match u with
    | .member k => gone.contains k
    | _ => false
  { s with media := { s.media with
    fetches := s.media.fetches.filter (!mine ·.use)
    rebuilding := s.media.rebuilding.filter (!mine ·.use)
    waiting := s.media.waiting.filter fun w => match w.2 with
      | .read u _ _ _ _ => !dead u
      | _ => true } }

/-- The read serves the command with this ASN. -/
def ReadUse.ofHost (asn : Nat) : ReadUse → Bool
  | .host a _ _ => a == asn
  | _ => false

/-- A command ends: its entry is posted unless its controller was reset, and its slot is freed (R72, R104). -/
def finish (ix : Nat) (st : Status) (dw0 : Nat) (s : State) : State :=
  match s.slot? ix with
  | none => s
  | some sl =>
    let s := if sl.orphan then s else postCqe sl.fn sl.sqid sl.sqe.cid st dw0 s
    let ended (e : Nat × Tick × Nat × Option Tick) := if e.1 = sl.asn then (e.1, e.2.1, e.2.2.1, some s.now) else e
    let s := { s with stillLog := s.stillLog.map ended }
    (dropStaged sl (giveBack sl s)).dropSlot ix

/-- A command completes with a status. While the device is stopped by R180 nothing is posted: the entry
follows when service resumes (R185). Aborts that name the command complete after it (R105, R107). -/
def complete (ix : Nat) (st : Status) (dw0 : Nat) (s : State) : State :=
  match s.slot? ix with
  | none => s
  | some sl =>
    if s.pfail.stopped then s.setSlot ix fun sl => { sl with phase := .posted, outcome := some st, dw0 := dw0 }
    else sl.timers.foldl (fun s a => finish a.1 stOk 1 s) (finish ix st dw0 s)

/-- The abort timer of `by_` expires: the command ends with Command Abort Requested, and only that Abort
reports it aborted (R105, R107). -/
def completeAborted (ix by_ dw0 : Nat) (s : State) : State :=
  match s.slot? ix with
  | none => s
  | some sl => sl.timers.foldl (fun s a => finish a.1 stOk (if a.1 = by_ then 0 else 1) s) (finish ix stAborted dw0 s)

/-! ### Asynchronous events -/

/-- Dword 0 of an asynchronous event as NVMe Base 2.1 codes it: type, information and log page.
PRESUMED: log entry 31. -/
def Event.dword : Event → Nat
  | .invalidDoorbellRegister => 0x010000
  | .invalidDoorbellValue => 0x010100
  | .smartWarning => 0x020001
  | .nsAttrChanged => 0x040002
  | .anaChange => 0x0C0302

/-- An outstanding request reports an event; without one the event is held (R85). DEDUCED: log entry 33. -/
def raiseEvent (f : Fn) (ev : Event) (s : State) : State :=
  match s.ctrl? f with
  | none => s
  | some c =>
    match c.aers with
    | [] => s.setCtrl f fun c => if c.events.contains ev then c else { c with events := c.events ++ [ev] }
    | ix :: rest => complete ix stOk ev.dword ((s.setCtrl f fun c => { c with aers := rest }).emit (.aen f ev))

/-- Raise an event on every controller that a test selects. DEDUCED: log entry 33. -/
def raiseAll (p : Ctrl → Bool) (ev : Event) (s : State) : State :=
  (s.ctrls.filter p).foldl (fun s c => raiseEvent c.fn ev s) s

/-- Raise the SMART event on every controller (R100, R169, R170). DEDUCED: log entry 33. -/
def raiseSmart (s : State) : State := raiseAll (fun _ => true) .smartWarning s

/-! ### Idleness (R497) -/

/-- Nothing of R497 holds. DEDUCED: log entry 33. -/
def idleNow (s : State) : Bool :=
  s.slots.isEmpty && s.compute.runs.isEmpty && s.eps.all (·.executing.isNone)
    && s.ctrls.all fun c => c.asq.head == c.asq.tail && c.sqs.all fun q => q.head == q.tail

/-- Keep the tick from which the device is idle. DEDUCED: log entry 76. -/
def touchIdle (s : State) : State :=
  { s with power := { s.power with
    idleSince := if idleNow s then (match s.power.idleSince with
      | none => some s.now
      | some t => some t) else none } }

/-! ### The order of commands -/

/-- ASN order modulo 2^48 (R87). -/
def asnLt (a b : Nat) : Bool := a != b && (b + 2 ^ 48 - a) % 2 ^ 48 < 2 ^ 47

/-- The next ASN is given (R86). -/
def takeAsn (s : State) : State := { s with asn := (s.asn + 1) % 2 ^ 48 }

end Sys2Proof.Machine
end

