-- ==== Sys2Proof/Machine/MediaOps.lean ====
section
/-! DEFINITION. Operations over the media (file 04): grains and the map, versions in ASN order, capacity,
device states, bands and blocks, and the scheduling of the dies. -/

namespace Sys2Proof.Machine

/-! ### Grains (R76, R122, R124) -/

def grainBytes (n : Ns) : Nat := if n.grain32 then 32768 else 4096
def lbaBytes (n : Ns) : Nat := if n.lbaf = 0 then 4096 else 512
def lbasPerGrain (n : Ns) : Nat := grainBytes n / lbaBytes n
def grainFrames (n : Ns) : Nat := grainBytes n / 64
def grainOf (n : Ns) (lba : Nat) : Nat := lba / lbasPerGrain n
/-- The map page of a grain: 512 entries (R131). -/
def pageOf (grain : Nat) : Nat := grain / 512
/-- The address domain of a grain: bit 0 of its map page's number (R122). -/
def domainOf (grain : Nat) : Nat := grain / 512 % 2
/-- NSZE (Table 4.3). -/
def nsze (n : Ns) : Nat := (n.assured + n.stretch) / lbaBytes n

/-- The map entry of a grain; one never written is deallocated (R146). -/
def entryOf (n : Ns) (grain : Nat) : MapEntry := (get? grain n.map).getD {}

/-- The 64 bits of a map entry (Table 4.2). -/
def MapEntry.word (e : MapEntry) : Nat :=
  if e.dealloc then 2 ^ 52 + e.gen.toNat * 2 ^ 56
  else e.frame % 2 ^ 40 + e.len % 2 ^ 12 * 2 ^ 40 + (if e.raw then 2 ^ 53 else 0) + e.gen.toNat * 2 ^ 56

/-- The grains that a range of LBAs touches. -/
def grainsOf (n : Ns) (lba count : Nat) : List Nat :=
  if count = 0 then []
  else (List.range (grainOf n (lba + count - 1) + 1 - grainOf n lba)).map (· + grainOf n lba)

/-- The map pages that a range of LBAs touches. -/
def pagesOf (n : Ns) (lba count : Nat) : List Nat := ((grainsOf n lba count).map pageOf).dedup

/-- A page that has never been written needs no load (R129). -/
def pageResident (n : Ns) (page : Nat) : Bool :=
  n.resident.contains page || !n.written.contains page

/-- Ask for map pages that are not in DRAM (R131). -/
def askPages (nsid : Nat) (pages : List Nat) (s : State) : State :=
  s.setNs nsid fun n => { n with loading := n.loading ++ pages.filter fun p => !pageResident n p && !n.loading.contains p }

/-- Use of resident map pages, for the least recently used of R130: the last in the list was used last. -/
def touchPages (nsid : Nat) (pages : List Nat) (s : State) : State :=
  s.setNs nsid fun n => { n with
    resident := n.resident.filter (!pages.contains ·) ++ pages.filter (pageResident n) }

/-! ### Stored frames (R126, R311, R370) -/

/-- LEN and RAW of the stored form of a grain's bytes: Felt's output only where it takes fewer frames, RAW also where
its verification failed or no compressor is in service (R126, R314, R315). UNVERIFIED: log entry 14. -/
def storedForm (n : Ns) (verified : Bool) (data : List (List Byte)) : Nat × Bool :=
  let l := ceilDiv (Config.feltGrain data.flatten).length 64
  if verified && 1 ≤ l && l < grainFrames n then (l, false) else (grainFrames n, true)

/-- The stored frames of a grain before encryption. -/
def plainFrames (len : Nat) (raw : Bool) (data : List (List Byte)) : List Byte :=
  pad (64 * len) (if raw then data.flatten else Config.feltGrain data.flatten)

/-- The frames as a media lane encrypts them: one data unit, the tweak the grain's index (R370).
DEDUCED: log entry 95. -/
def sealFrames (key : List Byte) (grain : Nat) (plain : List Byte) : List Byte := xtsUnit true key grain plain

/-- The logical data of a stored grain, by LBA, through the media lane under the namespace's key: what the key that
sealed the frames encoded; another key gives only its own decryption of them (R369, R370).
DEDUCED: log entry 95. -/
def openRun (n : Ns) (r : Run) : List (List Byte) :=
  if n.key = some r.key then r.data
  else
    let text := pad (grainBytes n) (xtsUnit false (n.key.getD []) r.grain r.sealed)
    (List.range (lbasPerGrain n)).map fun i => slice text (i * lbaBytes n) (lbaBytes n)

/-! ### The reserve bands (R119, R120, R123, R371) -/

/-- The device-tables key: purpose 5, tenant 0x0100, no label and no owner seed (R371). -/
def tablesKey (s : State) : List Byte := kdf s 0x0100 5 (zeros 32) 512

/-- Write a page of the reserve bands: encrypted under the device-tables key, the tweak its page index (R19, R371).
`what` is the use of Config.reserveBlocks, `num` the page's number there. UNVERIFIED: log entry 13. -/
def reserveWrite (what num : Nat) (bytes : List Byte) (s : State) : State :=
  let ix := Config.reservePage what num
  { s with media := { s.media with reserve := put ix (xtsUnit true (tablesKey s) ix (pad 4096 bytes)) s.media.reserve } }

/-- Write bytes to consecutive pages of the reserve bands. -/
def reservePages (what first : Nat) (bytes : List Byte) (s : State) : State :=
  (List.range (ceilDiv bytes.length 4096)).foldl (fun s i => reserveWrite what (first + i) (slice bytes (4096 * i) 4096) s) s

/-- Write a committed piece to the staging flush region, into a flush image: its ASN, namespace and LBAs with its data (R181,
R371). UNVERIFIED: log entry 13. -/
def flushPiece (image : Nat) (p : Staged) (s : State) : State :=
  reservePages 2 (image * 2 ^ 80 + p.nsid * 2 ^ 48 + p.lba * 128)
    (le 8 p.asn ++ le 4 p.nsid ++ le 8 p.lba ++ le 4 p.data.length ++ p.data.flatten) s

/-- A Rime flush ends: its records stand in the Rime region (R371, R526). UNVERIFIED: log entry 13. -/
def rimeWritten (s : State) : State :=
  let recs := (s.rime.ring.take (s.rime.flushing.getD 0)).map (·.1)
  rimeFlushEnd (reservePages 3 ((recs.head?.map (·.seq)).getD 0) (recs.flatMap fun r => recBytes (r.seq, r)) s)

/-- The blocks of the reserve bands as they lie now, with what they hold. -/
def reserveNow (s : State) : List ((Nat × Nat × Nat) × Nat) :=
  Config.reserveBlocks.map fun x =>
    let home := (x.1, x.2.1, x.2.2.1)
    (((s.media.reserveMoved.find? (·.1 == home)).map (·.2)).getD home, x.2.2.2)

/-! ### Versions in ASN order (R93 to R96) -/

/-- Order of versions by the ASN of their write: 0 stands for an older start and is below every other (R96, R201). -/
def verLt (a b : Nat) : Bool := b != 0 && (a == 0 || asnLt a b)

/-- The member with the highest ASN. DESIGN CHOICE: log entry 35. -/
def newest {α : Type} : List (Nat × α) → Option (Nat × α)
  | [] => none
  | v :: vs => match newest vs with
    | none => some v
    | some w => if verLt w.1 v.1 then some v else some w

/-- The stored run that a map entry points at. -/
def runOf (s : State) (grain : Nat) (e : MapEntry) : Option Run :=
  if e.dealloc then none
  else s.media.runs.find? fun r => r.domain == domainOf grain && r.frame == e.frame

/-- What the media holds of an LBA: the ASN of its write, 0 when older, and its data. DESIGN CHOICE: log entry 35. -/
def mediaVersion (s : State) (n : Ns) (lba : Nat) : Nat × List Byte :=
  match runOf s (grainOf n lba) (entryOf n (grainOf n lba)) with
  | none => (0, zeros (lbaBytes n))
  | some r => (r.asns.getD (lba % lbasPerGrain n) 0, (openRun n r).getD (lba % lbasPerGrain n) (zeros (lbaBytes n)))

/-- A staged piece covers an LBA. -/
def Staged.covers (p : Staged) (nsid lba : Nat) : Bool :=
  p.nsid == nsid && p.lba ≤ lba && lba < p.lba + p.data.length

/-- The staged versions of an LBA that have taken effect. -/
def stagedVersions (s : State) (nsid lba : Nat) : List (Nat × Staged) :=
  (s.staged.filter fun p => p.committed && p.covers nsid lba).map fun p => (p.asn, p)

/-- The version of an LBA that a reading command with ASN `r` returns, and whether it needs a die read
(R94, R98). `kept` are the older versions held for it (R96). DESIGN CHOICE: log entry 35. -/
def readVersion (s : State) (n : Ns) (r : Nat) (kept : List (Nat × Nat × List Byte)) (lba : Nat) :
    List Byte × Bool :=
  let st := (stagedVersions s n.nsid lba).filter fun v => asnLt v.1 r
  let ks := (kept.filter (·.1 == lba)).map fun k => (k.2.1, k.2.2)
  let m := mediaVersion s n lba
  let onMedia := if verLt m.1 r then [(m.1, m.2, !(entryOf n (grainOf n lba)).dealloc)] else []
  let cands := onMedia ++ (st.map fun v => (v.1, v.2.data.getD (lba - v.2.lba) [], false))
    ++ ks.map fun k => (k.1, k.2, false)
  match newest cands with
  | some (_, d) => d
  | none => (m.2, !(entryOf n (grainOf n lba)).dealloc)

/-- The writing commands of a namespace (R93). -/
def Body.writing : Body → Bool
  | .write .. | .writeZeroes .. => true
  | .dsm d _ => d
  | _ => false

def Body.reading : Body → Bool
  | .read .. | .compare .. | .verify .. => true
  | _ => false

/-- The ranges of LBAs that a command names. -/
def Body.ranges : Body → List (Nat × Nat)
  | .read l n _ | .write l n _ | .writeZeroes l n | .compare l n | .verify l n => [(l, n)]
  | .dsm _ rs => rs
  | _ => []

/-- Two ranges have a common LBA. -/
def overlaps (a b : Nat × Nat) : Bool := a.1 < b.1 + b.2 && b.1 < a.1 + a.2

def anyOverlap (xs ys : List (Nat × Nat)) : Bool := xs.any fun x => ys.any fun y => overlaps x y

/-- The command of a slot is a writing command that has neither committed nor failed for one of the LBAs
(R95). -/
def Slot.pendingWrite (sl : Slot) (nsid : Nat) (rs : List (Nat × Nat)) : Bool :=
  Body.writing sl.sqe.body && sl.sqe.nsid == nsid && sl.outcome.isNone &&
  (match sl.phase with
  | .fetched | .mapWait => anyOverlap (Body.ranges sl.sqe.body) rs
  | .dataIn | .programming =>
    sl.pieces.any fun p => !p.committed && !p.faulted && anyOverlap [(p.lba, p.count)] rs
  | _ => false)

/-- A reading command must wait (R95). -/
def mustWait (s : State) (asn nsid : Nat) (rs : List (Nat × Nat)) : Bool :=
  s.slots.any fun sl => asnLt sl.asn asn && sl.pendingWrite nsid rs

/-- A reading command that has not yet chosen its versions and covers the LBA. -/
def Slot.unchosen (sl : Slot) (nsid lba : Nat) : Bool :=
  Body.reading sl.sqe.body && !sl.chosen && sl.sqe.nsid == nsid && anyOverlap (Body.ranges sl.sqe.body) [(lba, 1)]

/-- Before the map of an LBA moves from version `old` to version `new`, keep for each reading command that has
not chosen the version it may still need (R96). DESIGN CHOICE: log entry 35. -/
def keepFor (nsid lba : Nat) (old new : Nat × List Byte) (dropped : Bool) (s : State) : State :=
  { s with slots := s.slots.map fun sl =>
      if !sl.unchosen nsid lba then sl
      else if dropped then
        (if verLt new.1 sl.asn then { sl with kept := (lba, new.1, new.2) :: sl.kept } else sl)
      else if verLt sl.asn new.1 then { sl with kept := (lba, old.1, old.2) :: sl.kept } else sl }

/-! ### Capacity (R137 to R143) -/

def sumBy {α : Type} (f : α → Nat) (l : List α) : Nat := l.foldl (fun a x => a + f x) 0

abbrev channels : Nat := 32

def spareNow (s : State) (ch : Nat) : Nat := Config.spareOn ch - (get? ch s.media.spareUsed).getD 0

def isolatedDies (s : State) : Nat := (s.media.dies.filter (·.isolated.isSome)).length

/-- Frames of one data page, rows of a block, and frames of a band (R117, R122). -/
def pageFrames : Nat := max 1 Config.framesPerPage
def blockRows : Nat := max 1 Config.rowsPerBlock
def bandFrames : Nat := blockRows * 31 * pageFrames

/-- Blocks retired beyond the spare blocks of their channels. -/
def blocksShort (s : State) : Nat :=
  sumBy (fun ch => (get? ch s.media.spareUsed).getD 0 - Config.spareOn ch) (List.range channels)

/-- User pool of a domain, frames: it loses an isolated die's blocks, and the blocks that no spare replaces (R167, R168).
DEDUCED: log entry 53. -/
def userPool (s : State) (dom : Nat) : Nat :=
  Config.userPool dom - isolatedDies s * Config.dieFrames dom - blocksShort s * (blockRows * pageFrames) / 2

/-- Device assured capacity, bytes: 0.85 of the user pool in whole 32 MiB, at most 64 TiB (R137). -/
def dac (s : State) : Nat := min (2 ^ 46) ((userPool s 0 + userPool s 1) * 64 * 85 / 100 / 2 ^ 25 * 2 ^ 25)

/-- A die lies in the still die group (R119). -/
def inStillGroup (s : State) (d : DieId) : Bool := d.pos < s.settings.dev.stillDiePositions

/-- The still pool, frames: it loses the blocks of the isolated dies of its group (R137, R167). -/
def stillPool (s : State) : Nat :=
  Config.stillPool s.settings.dev.stillDiePositions
    - (s.media.dies.filter fun d => d.isolated.isSome && inStillGroup s d.id).length * (Config.dieFrames 0 + Config.dieFrames 1)

/-- Reservation of a namespace in one domain, frames (R142). DEDUCED: log entry 53. -/
def resvFrames (n : Ns) : Nat := n.assured / 64 / 2

/-- LEN of the mapped grains of one domain. -/
def mappedFrames (n : Ns) (dom : Nat) : Nat :=
  sumBy (fun e => if domainOf e.1 = dom then e.2.len else 0) n.map

/-- U_n in one domain (R142). -/
def usedFrames (n : Ns) (dom : Nat) : Nat :=
  mappedFrames n dom + (if dom = 0 then n.charged.1 else n.charged.2)

/-- Frames of the stretched pool of one domain (R141). -/
def stretchedPool (s : State) : Nat := (dac s - sumBy (·.assured) s.nss) / 64 / 2

/-- What a namespace uses above its reservation. -/
def excess (n : Ns) (dom : Nat) : Nat := usedFrames n dom - resvFrames n

/-- The free frames of the stretched pool: what the namespaces draw above their reservations is in use (R142). -/
def freeStretched (s : State) (dom : Nat) : Nat :=
  stretchedPool s - sumBy (fun n => if n.still then 0 else excess n dom) s.nss

/-- The free frames of 0.85 of the still pool, on which alone still-class namespaces draw (R137). -/
def freeStill (s : State) (dom : Nat) : Nat :=
  stillPool s * 85 / 100 / 2 - sumBy (fun n => if n.still then max (usedFrames n dom) (resvFrames n) else 0) s.nss

/-- The charge of a writing command, grain by grain (R143). -/
def chargeOf (n : Ns) (grains : List Nat) : List (Nat × Nat) :=
  grains.map fun g => (g, grainFrames n - (entryOf n g).len)

/-- The writing command is admitted (R143). -/
def admits (s : State) (n : Ns) (charge : List (Nat × Nat)) : Bool :=
  [0, 1].all fun dom =>
    let c := sumBy (fun g => if domainOf g.1 = dom then g.2 else 0) charge
    let before := excess n dom
    let after := usedFrames n dom + c - resvFrames n
    c = 0 || after = 0 || (after - before ≤ (if n.still then freeStill s dom else freeStretched s dom)
      && (s.media.dev == .normal || after ≤ (if dom = 0 then n.leanLimit.1 else n.leanLimit.2)))

/-- The charge is taken. -/
def takeCharge (nsid : Nat) (charge : List (Nat × Nat)) (s : State) : State :=
  let add (c : Nat × Nat) (g : Nat × Nat) : Nat × Nat :=
    if domainOf g.1 = 0 then (c.1 + g.2, c.2) else (c.1, c.2 + g.2)
  s.setNs nsid fun n => { n with charged := charge.foldl add n.charged }

/-- Logical bytes of all mapped grains, and their stored bytes (R141). -/
def mappedBytes (s : State) : Nat × Nat :=
  (sumBy (fun n => grainBytes n * (n.map.filter fun e => !e.2.dealloc).length) s.nss,
    64 * sumBy (fun n => mappedFrames n 0 + mappedFrames n 1) s.nss)

/-- The measured ratio as a fraction, within 1.0 and 4.0, and 1.0 while no grain is mapped (R141). -/
def measuredRatio (s : State) : Nat × Nat :=
  let (l, k) := s.media.measured
  if (mappedBytes s).2 = 0 || k = 0 || l ≤ k then (1, 1) else if 4 * k ≤ l then (4, 1) else (l, k)

/-- The stretch limit, bytes (R141). -/
def stretchLimit (s : State) : Nat :=
  (dac s - sumBy (·.assured) s.nss) * (measuredRatio s).1 / (measuredRatio s).2

/-- A still-class namespace exists. -/
def hasStill (s : State) : Bool := s.nss.any (·.still)

/-- Map pages of 4 KiB that the map region holds: the DRAM less 12 GiB, less the compute memory reservation, less 24 bytes
for each shelf page (R130, R134). -/
def mapRoom (s : State) : Nat :=
  (Config.dramBytes - 12 * 2 ^ 30 - s.settings.dev.computeRes - 24 * s.media.shelf.pages.length) / 4096

/-- The map works as a map cache (R130). -/
def cacheModeNow (s : State) : Bool :=
  sumBy (fun n => ceilDiv (nsze n) (512 * lbasPerGrain n)) s.nss
    > (Config.dramBytes - 12 * 2 ^ 30 - s.settings.dev.computeRes) / 4096

/-! ### Spare blocks and device states (R168 to R170) -/

/-- Available spare of the device, percent, rounded down. -/
def availableSpare (s : State) : Nat :=
  (List.range channels).foldl (fun a ch => min a (spareNow s ch * 100 / max 1 (Config.spareOn ch))) 100

/-- The condition on the user pool in Table 4.9. -/
def poolShort (s : State) : Bool :=
  [0, 1].any fun dom =>
    userPool s dom < sumBy resvFrames s.nss + sumBy (fun n => excess n dom) s.nss + userPool s dom * 5 / 100

def DevState.code : DevState → Nat
  | .normal => 0
  | .lean => 1
  | .preserve => 2

/-- The lean limits (R169). -/
def setLeanLimits (s : State) : State :=
  let tot := sumBy (·.stretch) s.nss
  let lim (n : Ns) (dom : Nat) : Nat := excess n dom + freeStretched s dom * n.stretch / max 1 tot
  { s with nss := s.nss.map fun n => { n with leanLimit := (lim n 0, lim n 1) } }

/-- Move to a device state, with its record and its SMART event. -/
def enterDevState (d : DevState) (cause : Nat) (s : State) : State :=
  let old := s.media.dev
  let s := { s with media := { s.media with dev := d } }
  let s := rimeDev 0x0305 sevCritical true
    (le 1 (DevState.code old) ++ le 1 (DevState.code d) ++ le 1 cause ++ le 1 (availableSpare s)) s
  raiseSmart s

/-- Writing commands that have not committed, or not wholly, fail with Namespace is Write Protected, a Format NVM that
waits included (R170). `but` is the slot whose own data failed (R163). DEDUCED: log entry 96. -/
def failUncommitted (but : Option Nat) (s : State) : State :=
  let open_ (sl : Slot) : Bool := but != some sl.ix && sl.outcome.isNone &&
    (match sl.phase, sl.sqe.body with
    | .dataIn, b | .programming, b => Body.writing b && sl.pieces.any fun p => !p.committed
    | .mapWait, b => Body.writing b
    | .waitEarlier, .format _ => true
    | _, _ => false)
  (s.slots.filter open_).foldl (fun s sl => complete sl.ix stProtected 0 s) s

/-- The moves of Table 4.9 whose conditions hold (R168), and the lean limits after a loss of blocks (R169). -/
def checkDevState (but : Option Nat) (s : State) : State :=
  let leanCause : Option Nat :=
    if availableSpare s < 10 then some 0 else if isolatedDies s > 0 then some 1 else none
  let presCause : Option Nat :=
    if (List.range channels).any fun ch => spareNow s ch < 8 then some 2
    else if poolShort s then some 3
    else if s.media.fault then some 4 else none
  let s := match s.media.dev, leanCause with
    | .normal, some c => enterDevState .lean c (setLeanLimits s)
    | _, _ => s
  match s.media.dev, presCause with
  | .preserve, _ => s
  | _, none => s
  | _, some c => failUncommitted but (enterDevState .preserve c s)

/-- Enter an LBA in the damaged-LBA list; a full list is a media fault (R474, R163). -/
def enterDamaged (nsid lba : Nat) (s : State) : State :=
  if s.media.damaged.contains (nsid, lba) then s
  else if s.media.damaged.length ≥ 65536 then
    if s.media.fault then s else checkDevState none { s with media := { s.media with fault := true } }
  else
    let s := { s with media := { s.media with damaged := s.media.damaged ++ [(nsid, lba)] } }
    rimeTen 0x030A sevError (((s.ns? nsid).map (·.tenant)).getD 0) (le 4 nsid ++ le 8 lba) s

/-- After a loss of blocks: the lean limits are computed again, and the device may change its state (R168, R169). -/
def blocksLost (but : Option Nat) (s : State) : State :=
  checkDevState but (if s.media.dev == .normal then s else setLeanLimits s)

/-- SMART critical warning (R100, R169, R170, R514). -/
def criticalWarning (s : State) : Nat :=
  (if s.media.dev == .normal then 0 else 1)
    + (if s.power.tj ≥ 105 || s.power.tj ≤ -40 then 2 else 0)
    + (if s.media.dev == .preserve then 4 + 8 else 0)
    + (if s.holdup.proven then 0 else 16)

/-! ### Blocks (R119, R155 to R158) -/

def block? (s : State) (d : DieId) (num : Nat) : Block :=
  (s.media.blocks.find? fun b => b.die == d && b.num == num).getD { die := d, num := num }

def setBlock (d : DieId) (num : Nat) (g : Block → Block) (s : State) : State :=
  let bs := if s.media.blocks.any fun b => b.die == d && b.num == num then s.media.blocks
    else s.media.blocks ++ [{ die := d, num := num }]
  { s with media := { s.media with blocks := bs.map fun b => if b.die = d ∧ b.num = num then g b else b } }

/-- Cell mode of a block: 0 SLC, 1 TLC, 2 QLC. User blocks and map pages are native (Table 4.1). -/
def blockMode (s : State) (d : DieId) (num : Nat) : Nat :=
  match (reserveNow s).find? (·.1 == (d.ch, d.pos, num)) with
  | some (_, what) => if what = 0 then Config.cellMode d.ch d.pos else 0
  | none => Config.cellMode d.ch d.pos

/-- The refresh threshold of a block (R157). -/
def threshold (s : State) (d : DieId) (num : Nat) : Nat := Config.refreshThreshold (blockMode s d num)

/-- Queue a block for refresh relocation (R148, R158, R160). DESIGN CHOICE: log entry 28. -/
def queueRefresh (d : DieId) (num : Nat) (s : State) : State :=
  if s.media.refreshQueue.contains (d, num) then s
  else
    let s := setBlock d num (fun b => { b with refresh := true }) s
    { s with media := { s.media with refreshQueue := s.media.refreshQueue ++ [(d, num)] } }

/-- A page read counts, saturating, and a block past its threshold is queued for refresh (R156, R158).
DESIGN CHOICE: log entry 28. -/
def countRead (d : DieId) (num : Nat) (s : State) : State :=
  let b := block? s d num
  let s := setBlock d num (fun b => { b with reads := min 16777215 (b.reads + 1) }) s
  if b.reads + 1 > threshold s d num && !b.refresh then
    queueRefresh d num { s with media := { s.media with refreshByCount := s.media.refreshByCount + 1 } }
  else s

/-! ### Bands (R115 to R122, R155) -/

/-- The parity channel of a band (R116). -/
def parityChannel (serial : Nat) : Nat := serial % 32

def band? (s : State) (serial : Nat) : Option Band := s.media.bands.find? (·.serial == serial)

def setBand (serial : Nat) (g : Band → Band) (s : State) : State :=
  { s with media := { s.media with bands := s.media.bands.map fun b => if b.serial = serial then g b else b } }

/-- The channel of a data column: its place in channel order without the parity channel (R122). -/
def columnChannel (serial col : Nat) : Nat := ((List.range channels).filter (· != parityChannel serial)).getD col 0

/-- Row and channel of a page counted in band order (R117). -/
def pageAt (serial p : Nat) : Nat × Nat := (p / 31, columnChannel serial (p % 31))

/-- The channel is a data column of the band in a row (R118). -/
def Band.usable (b : Band) (row ch : Nat) : Bool :=
  b.columns.contains ch && !(b.dropped.any fun d => d.1 == ch && d.2 ≤ row)

/-- Data columns from a row on. -/
def Band.width (b : Band) (row : Nat) : Nat := (b.columns.filter (b.usable row)).length

/-- The die and block of a band on a channel. -/
def Band.blockOn (b : Band) (ch : Nat) : Option (DieId × Nat) :=
  (b.blocks.find? (·.1 == ch)).map fun x => (⟨ch, x.2.1⟩, x.2.2)

/-- The pages in which a run of frames of a band lies (R115, R122). -/
def framePages (serial frame len : Nat) : List (Nat × Nat) :=
  let a := frame % bandFrames / pageFrames
  let z := (frame % bandFrames + len - 1) / pageFrames
  (List.range (z + 1 - a)).map fun i => pageAt serial (a + i)

def Run.pages (r : Run) : List (Nat × Nat) := framePages r.serial r.frame r.len

/-- The run has a page on a block. -/
def Run.onBlock (s : State) (r : Run) (d : DieId) (num : Nat) : Bool :=
  match band? s r.serial with
  | none => false
  | some b => r.pages.any fun p => b.blockOn p.2 == some (d, num)

/-- The run has a page on a die. -/
def Run.onDie (s : State) (r : Run) (d : DieId) : Bool :=
  match band? s r.serial with
  | none => false
  | some b => r.pages.any fun p => (b.blockOn p.2).map (·.1) == some d

/-- Free bands of a domain, which has at least one band, and their share in units of 0.01 % (R151). UNVERIFIED: log entry
13. UNVERIFIED: log entry 13. -/
def freeBands (s : State) (dom : Nat) : Nat :=
  max 1 (Config.userBands dom) - (s.media.bands.filter (·.domain == dom)).length

def freeShare (s : State) (dom : Nat) : Nat := freeBands s dom * 10000 / max 1 (Config.userBands dom)

/-- A block may join a new band: it exists, no band and no reserve band holds it, and it is neither retired nor waiting
for its erase (R116, R161, R203). -/
def blockFree (s : State) (d : DieId) (num : Nat) : Bool :=
  let b := block? s d num
  !(s.media.bands.any fun x => x.blockOn d.ch == some (d, num)) && !b.retired && !b.erasePending
    && !((reserveNow s).any (·.1 == (d.ch, d.pos, num)))

/-- The free blocks of a channel that suit a band's kind: on dies of the still die group for a still band, on the other
dies else (R119, R155, R166). -/
def suitable (s : State) (still : Bool) (ch : Nat) : List (DieId × Nat) :=
  let dies := ((List.range (Config.diesOn ch)).map fun p => (⟨ch, p⟩ : DieId)).filter fun d =>
    inStillGroup s d == still && (s.die d).isolated.isNone
  dies.flatMap fun d => ((List.range Config.blocksPerDie).filter (blockFree s d)).map fun k => (d, k)

/-- The one with the lowest erase count (R155). DESIGN CHOICE: log entry 21. -/
def leastErased (s : State) (serial : Nat) (l : List (DieId × Nat)) : Option (DieId × Nat) :=
  let key (x : DieId × Nat) : Nat × Nat := ((block? s x.1 x.2).erases, Config.placeRank serial x.1.ch x.1.pos x.2)
  l.foldl (fun a x => match a with
    | none => some x
    | some y => if (key x).1 < (key y).1 || ((key x).1 = (key y).1 && (key x).2 < (key y).2) then some x else some y) none

/-- Before the first still band opens, reserve-band blocks other than the staging flush region leave the still die group:
their contents are copied to blocks outside it (R120). -/
def moveReserve (s : State) : State :=
  let inside := (reserveNow s).filter fun x => x.2 != 2 && x.1.2.1 < s.settings.dev.stillDiePositions
  inside.foldl (fun s x =>
    match leastErased s s.media.serial (suitable s false x.1.1) with
    | none => s
    | some (d, num) =>
      let to_ := (d.ch, d.pos, num)
      let old := s.media.reserveMoved
      let again (m : (Nat × Nat × Nat) × (Nat × Nat × Nat)) := if m.2 = x.1 then (m.1, to_) else m
      let moved := if old.any (·.2 == x.1) then old.map again else old ++ [(x.1, to_)]
      { s with media := { s.media with reserveMoved := moved } }) s

/-- Open a band of a kind in a domain: the next serial, a block of each channel that has a usable one, at least 16 data
columns and the parity block; within the domain's user bands and its 2^40 frame addresses (R116, R118, R119, R122).
DESIGN CHOICE: log entry 21. -/
def openBand (kind : BandKind) (dom : Nat) (s : State) : Option (State × Band) :=
  let s := if kind = .still then moveReserve s else s
  let serial := s.media.serial + 1
  let used := (s.media.bands.filter (·.domain == dom)).map (·.index)
  let index := ((List.range (used.length + 1)).find? fun k => !used.contains k).getD 0
  let blocks := (List.range channels).filterMap fun ch =>
    (leastErased s serial (suitable s (kind == .still) ch)).map fun x => (ch, x.1.pos, x.2)
  let b : Band :=
    { serial := serial, kind := kind, domain := dom, index := index
      columns := (blocks.map (·.1)).filter (· != parityChannel serial), blocks := blocks }
  if index ≥ max 1 (Config.userBands dom) || (index + 1) * bandFrames > 2 ^ 40 || b.columns.length < 16
    || !(blocks.any (·.1 == parityChannel serial)) then none
  else some ({ s with media := { s.media with serial := serial, bands := s.media.bands ++ [b] } }, b)

/-- The open band of a kind and domain outside `not_`, opened when there is none. -/
def bandFor (kind : BandKind) (dom : Nat) (not_ : List Nat) (s : State) : Option (State × Band) :=
  match s.media.bands.find? fun b => b.kind == kind && b.domain == dom && !b.closed && !not_.contains b.serial with
  | some b => some (s, b)
  | none => openBand kind dom s

/-- The first frame from `next` on at which `len` frames lie in columns still in use, and for a still band in one page
(R117, R121, R122). -/
def fitFrames (b : Band) (len : Nat) : Nat → Nat → Nat
  | 0, next => next
  | fuel + 1, next =>
    if (b.kind = .still ∧ next % pageFrames + len > pageFrames)
      ∨ ((framePages b.serial next len).any fun p => !b.usable p.1 p.2)
    then fitFrames b len fuel ((next / pageFrames + 1) * pageFrames) else next

/-! ### Dies -/

/-- Ticks to the first tick of the next suspend point (R41, R52). -/
def ticksToSuspend (s : State) : Option Nat :=
  let ps := (s.firn.plan.windows.filter (·.type == .still)).map fun w =>
    ceilDiv ((firnSuspendPoint s w.start * 2 ^ 36 + 2 ^ 48 - firnAcc s) % 2 ^ 48) (max 1 (firnIncrement s.firn.period))
  ps.foldl (fun a x => match a with
    | none => some x
    | some y => some (min x y)) none

/-- The declared maximum time of an operation, ticks (R149). -/
def opTicks : DieOp → Nat
  | .read .. => Config.tDieReadNs / 2
  | .program .. => Config.tDieProgramNs / 2
  | .erase .. => Config.tDieEraseNs / 2
  | .recal => Config.tDieReadNs / 2

def DieOp.isProgram : DieOp → Bool
  | .program .. | .erase .. => true
  | _ => false

/-- The operation is a read, or the recalibration of the die's read levels. -/
def DieOp.isRead (o : DieOp) : Bool := !DieOp.isProgram o

/-- The read that a member of a row under rebuild is read for (R583). -/
def rebuildUse (s : State) : ReadUse → ReadUse
  | .member k => ((s.media.rebuilding.find? (·.id == k)).map (·.use)).getD (.member k)
  | u => u

/-- An operation may start now on a die (Table 2.7, R48, R52, R55, R151, R152). -/
def startable (s : State) (d : DieId) (o : DieOp) : Bool :=
  let still := inStillGroup s d
  let die := s.die d
  let fits := (Config.suspendSupport d.ch d.pos && !die.noSuspend) ||
    (match ticksToSuspend s with
    | none => true
    | some k => opTicks o < k)
  let readOnly := still && (s.firn.suspended || firnActs s != some .work || !fits)
  match o with
  | .recal => true
  | .read u serial _ ch _ => match rebuildUse s u with
    | .sample _ => firnActs s == some .maint
    | .move .. =>
      let early := match (band? s serial).bind (·.blockOn ch) with
        | some (e, k) => (block? s e k).early
        | none => false
      firnActs s != some .maint && (!still || firnActs s == some .work || early)
    | _ => true
  | .erase _ => !readOnly
  | .program serial _ _ => !readOnly && (match band? s serial with
    | none => true
    | some b => match b.kind with
      | .host => 150 ≤ freeShare s b.domain
      | .relocation => firnActs s != some .maint
      | _ => true)

/-- The order of waiting operations at a die: still-class reads in STILL, host reads, graph reads, the rest
(R18, R61). DESIGN CHOICE: log entry 37. -/
def opRank (s : State) (d : DieId) : DieOp → Nat
  | .read u _ _ _ _ => match rebuildUse s u with
    | .host _ n _ => if inStillGroup s d && firnActs s == some .still && ((s.ns? n).map (·.still)).getD false then 0 else 1
    | .node .. => 2
    | _ => 3
  | _ => 3

/-- The ASN of the command or run that a read serves. -/
def opAsn (s : State) : DieOp → Nat
  | .read u _ _ _ _ => match rebuildUse s u with
    | .host a _ _ | .node a _ _ _ => a
    | _ => 0
  | _ => 0

/-- MEDIA_SHARE of a tenant (R222). -/
def mediaShare (s : State) (t : Nat) : Nat := max 1 (((s.tenant? t).map (·.cfg.mediaShare)).getD 1)

/-- Turn of a weighted round robin: the tenant served next and the new position (R242). -/
def shareTurn (share : Nat → Nat) (pos : Nat × Nat) (waiting : List Nat) : Option (Nat × (Nat × Nat)) :=
  let least (l : List Nat) : Option Nat := l.foldl (fun a k => match a with
    | none => some k
    | some x => some (min x k)) none
  if waiting.contains pos.1 && pos.2 < share pos.1 then some (pos.1, (pos.1, pos.2 + 1))
  else match least (waiting.filter (pos.1 < ·)), least waiting with
    | some k, _ => some (k, (k, 1))
    | none, some k => some (k, (k, 1))
    | none, none => none

/-- The one with the lowest ASN, the first on a tie. -/
def lowestAsn (s : State) (ws : List DieOp) : Option DieOp :=
  ws.foldl (fun b o => match b with
    | none => some o
    | some x => if asnLt (opAsn s o) (opAsn s x) then some o else some x) none

/-- The tenant of a run that a graph read serves. -/
def opTenant (s : State) (o : DieOp) : Nat := ((s.run? (opAsn s o)).map (·.tenant)).getD 0

/-- The waiting operation that an idle die takes, and its new turn: still-class reads in ASN order, host reads, graph
reads in the turn of their tenants and in run ASN order, the rest (R18, R61, R222). DESIGN CHOICE: log entry 37. -/
def bestWaiting (s : State) (d : DieId) : Option (DieOp × (Nat × Nat)) :=
  let ws := ((s.media.waiting.filter (·.1 == d)).map (·.2)).filter (startable s d)
  let rank (k : Nat) : List DieOp := ws.filter fun o => opRank s d o == k
  let turn := (s.die d).turn
  let graph := match shareTurn (mediaShare s) turn ((rank 2).map (opTenant s)) with
    | none => none
    | some (t, turn') => (lowestAsn s ((rank 2).filter fun o => opTenant s o == t)).map fun o => (o, turn')
  match lowestAsn s (rank 0), (rank 1).head?, graph, (rank 3).head? with
  | some o, _, _, _ => some (o, turn)
  | none, some o, _, _ => some (o, turn)
  | none, none, some x, _ => some x
  | none, none, none, some o => some (o, turn)
  | none, none, none, none => none

/-- Drop the first occurrence of a waiting operation. -/
def dropWaiting (d : DieId) (o : DieOp) (s : State) : State :=
  { s with media := { s.media with waiting := s.media.waiting.erase (d, o) } }

/-- Start an operation on a die: the poll timer runs, a channel that programs or erases has WP_N high, and the
clean record is invalid from the first media change on (R149, R199, Table 16.3). DESIGN CHOICE: log entry 37. -/
def dieStart (d : DieId) (o : DieOp) (s : State) : State :=
  let s := s.setDie d fun x => { x with op := some o, pollAt := some (s.now + opTicks o) }
  if DieOp.isProgram o then
    { s with
      pins := { s.pins with wpHigh := if s.pins.wpHigh.contains d.ch then s.pins.wpHigh else d.ch :: s.pins.wpHigh }
      boot := { s.boot with cleanRecord := false } }
  else s

/-- A suspended operation goes on: it is not suspended again (R52). -/
def dieResume (d : DieId) (o : DieOp) (s : State) : State :=
  s.setDie d fun x => { x with held := none, op := some o, pollAt := some (s.now + opTicks o) }

/-- An idle die resumes what it held once the STILL window and its tail are over (Table 2.8), and otherwise takes its next
operation. DESIGN CHOICE: log entry 37. -/
def dieKick (d : DieId) (s : State) : State :=
  let x := s.die d
  let resumes := x.held.isSome && !(inStillGroup s d && s.firn.suspended)
  if x.op.isSome || x.resetting || x.suspendAsked.isSome || s.pfail.stopped || s.power.ps ≥ 3
    || s.repair.fenced.contains (.channel d.ch) then s
  else match x.held, resumes, bestWaiting s d with
    | some o, true, _ => dieResume d o s
    | _, _, some (o, turn) => dieStart d o (dropWaiting d o (s.setDie d fun x => { x with turn := turn }))
    | _, _, none => s

/-- Ask a die for an operation. DEDUCED: log entry 27. -/
def dieAsk (d : DieId) (o : DieOp) (s : State) : State :=
  dieKick d { s with media := { s.media with waiting := s.media.waiting ++ [(d, o)] } }

/-- Every die that has waiting work looks for its next operation. -/
def kickAll (s : State) : State :=
  ((s.media.waiting.map (·.1)) ++ (s.media.dies.filter (·.held.isSome)).map (·.id)).dedup.foldl
    (fun s d => dieKick d s) s

/-! ### Page reads and rebuilds (R147, R148, R167, R583) -/

/-- What became of a page that was asked for. -/
inductive PageAsk where
  | asked | decoded | lost
  deriving DecidableEq, Repr

/-- The members of a row that a rebuild of one page reads: the other data pages that were programmed, and the parity page
once it is programmed. None where the row's parity is neither held nor programmed (R117, R148, R583). -/
def rowMembers (b : Band) (row ch : Nat) : Option (List Nat) :=
  let pc := parityChannel b.serial
  let others := b.columns.filter fun c => c != ch && b.passed.contains (row, c)
  if b.passed.contains (row, pc) then some (others ++ [pc])
  else if (get? row b.parity).isSome then some others else none

/-- Begin to rebuild a page from die parity: every member is read at its own die at once (R148, R167, R583).
DEDUCED: log entry 97. -/
def startRebuild (u : ReadUse) (serial row ch : Nat) (s : State) : State × PageAsk :=
  match (band? s serial).bind fun b => (rowMembers b row ch).map fun m => (b, m) with
  | none => (s, .lost)
  | some (b, members) =>
    let at_ := members.map fun c => (b.blockOn c).filter fun x => (s.die x.1).isolated.isNone
    if at_.any (·.isNone) then (s, .lost)
    else
      let s := { s with media := { s.media with rebuilds := s.media.rebuilds + 1 } }
      if members.isEmpty then (s, .decoded)
      else
        let id := s.media.rebuildSeq + 1
        let s := { s with media := { s.media with
          rebuildSeq := id
          rebuilding := s.media.rebuilding ++ [{ id := id, use := u, serial := serial, row := row, ch := ch, left := members }] } }
        ((members.zip at_).foldl (fun s x => match x.2 with
          | some y => dieAsk y.1 (.read (.member id) serial row x.1 1) s
          | none => s) s, .asked)

/-- Ask for a page: a read at its die, or its rebuild where the die is isolated (R147, R167). -/
def askPage (u : ReadUse) (serial row ch : Nat) (s : State) : State × PageAsk :=
  match (band? s serial).bind (·.blockOn ch) with
  | none => startRebuild u serial row ch s
  | some (d, _) =>
    if (s.die d).isolated.isSome then startRebuild u serial row ch s
    else (dieAsk d (.read u serial row ch 1) s, .asked)

/-- Ask for the pages of a grain's stored frames: `decoded` where none needs a read and no decompressor either. -/
def askFetch (u : ReadUse) (r : Run) (e : MapEntry) (s : State) : State × PageAsk :=
  let s := { s with media := { s.media with
    fetches := s.media.fetches ++ [{ use := u, entry := e, serial := r.serial, left := r.pages }] } }
  let (s, a) := r.pages.foldl (fun (x : State × PageAsk) p =>
    if x.2 = .lost then x
    else
      let (s, a) := askPage u r.serial p.1 p.2 x.1
      match a with
      | .asked => (s, .asked)
      | .lost => (dropReads (· == u) s, .lost)
      | .decoded =>
        let upd (f : Fetch) : Fetch := if f.use = u then { f with left := f.left.erase p, step := 21 } else f
        ({ s with media := { s.media with fetches := s.media.fetches.map upd } }, x.2)) (s, .decoded)
  let move := match u with
    | .move .. => true
    | _ => false
  match a with
  | .decoded =>
    if r.raw || move then (dropReads (· == u) s, .decoded)
    else ({ s with media := { s.media with fetches := s.media.fetches.map fun f =>
      if f.use = u then { f with inflating := true } else f } }, .asked)
  | a => (s, a)

/-! ### Commit to the map (R127, R184, R189) -/

/-- Bytes that the journal holds (R190). -/
def journalBytes (s : State) : Nat := sumBy (·.2) s.media.journal

/-- Add journal bytes to a map page's, or with NSID 0 to those of no map page. -/
def journalPut (key : Nat × Nat) (bytes : Nat) (l : List ((Nat × Nat) × Nat)) : List ((Nat × Nat) × Nat) :=
  if l.any (·.1 == key) then l.map fun x => if x.1 = key then (x.1, x.2 + bytes) else x else l ++ [(key, bytes)]

/-- The 4 KiB of a map page as it is written: 512 entries of 8 bytes (R125, R129). -/
def mapPageBytes (n : Ns) (page : Nat) : List Byte :=
  (List.range 512).flatMap fun i => le 8 (entryOf n (page * 512 + i)).word

/-- Write a changed map page to the reserve bands: its journal records are released (R132, R190). -/
def writeMapPage (nsid page : Nat) (s : State) : State :=
  match s.ns? nsid with
  | none => s
  | some n =>
    let s := reserveWrite 0 (nsid * 2 ^ 24 + page) (mapPageBytes n page) s
    let s := s.setNs nsid fun n => { n with
      dirty := n.dirty.filter (· != page), written := if n.written.contains page then n.written else n.written ++ [page] }
    { s with media := { s.media with journal := s.media.journal.filter (·.1 != (nsid, page)) } }

/-- The changed map pages of all namespaces. -/
def changedPages (s : State) : List (Nat × Nat) := s.nss.flatMap fun n => n.dirty.map fun p => (n.nsid, p)

/-- Write changed map pages, in order, while the journal holds at least `bound` bytes (R190). -/
def writeUntil (bound : Nat) (s : State) : State :=
  (changedPages s).foldl (fun s p => if journalBytes s < bound then s else writeMapPage p.1 p.2 s) s

/-- The delta buffer goes to the journal, encrypted page by page; records that would take the journal past 256 MiB first
have changed map pages written (R189, R190, R371). DESIGN CHOICE: log entry 39. -/
def journalFlush (s : State) : State :=
  let s := if 256 * 2 ^ 20 < journalBytes s + s.media.delta then writeUntil (256 * 2 ^ 20 - s.media.delta) s else s
  let rec_ (u : Nat × Nat × MapEntry) : List Byte :=
    let e := ((s.ns? u.1).map fun n => entryOf n u.2.1).getD {}
    pad 32 (le 4 u.1 ++ le 8 u.2.1 ++ le 8 e.word)
  let bytes := pad s.media.delta (s.media.undo.reverse.flatMap rec_)
  let pages := ceilDiv bytes.length 4096
  let s := (List.range pages).foldl (fun s i => reserveWrite 1 (s.media.journalPages + i) (slice bytes (4096 * i) 4096) s) s
  let j := s.media.undo.foldl (fun j u => journalPut (u.1, pageOf u.2.1) 32 j) s.media.journal
  let rest := s.media.delta - 32 * s.media.undo.length
  let s := { s with media := { s.media with
    journal := if rest = 0 then j else journalPut (0, 0) rest j
    journalPages := s.media.journalPages + pages, delta := 0, undo := [], undoPieces := []
    liveRecs := s.settings.journalled } }
  { s with media := { s.media with
    forcedWrites := 192 * 2 ^ 20 ≤ journalBytes s || (s.media.forcedWrites && 128 * 2 ^ 20 ≤ journalBytes s) } }

/-- Journal records fill the delta buffer, which holds at most 4 MiB (R189). DESIGN CHOICE: log entry 39. -/
def journalAdd (n : Nat) (s : State) : State :=
  let s := if 4 * 2 ^ 20 < s.media.delta + 32 * n then journalFlush s else s
  { s with media := { s.media with delta := s.media.delta + 32 * n } }

/-- The map entry of one grain changes: GEN rises, and its page is changed (R127, R132). -/
def setEntry (nsid grain : Nat) (e : MapEntry) (s : State) : State :=
  let old : MapEntry := match s.ns? nsid with
    | some n => entryOf n grain
    | none => {}
  let s := { s with media := { s.media with undo := (nsid, grain, old) :: s.media.undo } }
  s.setNs nsid fun n => { n with
    map := put grain { e with gen := (entryOf n grain).gen + 1 } n.map
    resident := if n.resident.contains (pageOf grain) then n.resident else n.resident ++ [pageOf grain]
    dirty := if n.dirty.contains (pageOf grain) then n.dirty else n.dirty ++ [pageOf grain] }

/-- The version of an LBA once a piece is merged: the committed version with the highest ASN, those of the piece's own commit
step among them, else the media's (none) (R96, R102, R128). DESIGN CHOICE: log entry 35. -/
def mergedVersion (s : State) (n : Ns) (p : Staged) (lba : Nat) : Option (Nat × Staged) :=
  let mine (q : Staged) : Bool := q.asn == p.asn && q.step == p.step && q.covers n.nsid lba && !q.committed && !q.tomb
  let own := (s.staged.filter mine).map fun q => (q.asn, q)
  match newest (own ++ stagedVersions s n.nsid lba) with
  | some (a, q) => if verLt a (mediaVersion s n lba).1 then none else some (a, q)
  | none => none

/-- The LBAs of a grain. -/
def grainLbas (n : Ns) (grain : Nat) : List Nat := (List.range (lbasPerGrain n)).map (· + grain * lbasPerGrain n)

/-- A merged grain needs data that lies on media only (R128). -/
def mergeReads (s : State) (n : Ns) (p : Staged) (grain : Nat) : Bool :=
  !(entryOf n grain).dealloc && (grainLbas n grain).any fun l => (mergedVersion s n p l).isNone

/-- The whole grain as it stands once a piece is merged, with the ASN of each LBA's version; and whether it is to be
deallocated: one Write Zeroes or deallocation covers it whole and stands for every LBA, or nothing is merged into a
deallocated grain (R96, R128, R145). DESIGN CHOICE: log entry 35. -/
def mergeGrain (s : State) (n : Ns) (p : Staged) (grain : Nat) : List (List Byte) × List Nat × Bool :=
  let one (lba : Nat) : List Byte × Nat × Option Nat := match mergedVersion s n p lba with
    | some (a, q) => (q.data.getD (lba - q.lba) [], a, if q.tomb || q.zeroes then some a else none)
    | none => ((mediaVersion s n lba).2, (mediaVersion s n lba).1, none)
  let xs := (grainLbas n grain).map one
  let first := (xs.head?.bind (·.2.2))
  let whole := first.isSome && xs.all (·.2.2 == first)
  let untouched := (entryOf n grain).dealloc && (grainLbas n grain).all fun l => (mergedVersion s n p l).isNone
  (xs.map (·.1), xs.map (·.2.1), whole || untouched)

/-- Drop staged marks of deallocations that no command in a slot and no staged piece can still be older than.
DESIGN CHOICE: log entry 35. -/
def purgeTombs (s : State) : State :=
  { s with staged := s.staged.filter fun p =>
      !p.tomb || (s.slots.any fun sl => asnLt sl.asn p.asn)
        || s.staged.any fun q => !q.tomb && q.nsid == p.nsid && asnLt q.asn p.asn
          && overlaps (q.lba, q.data.length) (p.lba, p.data.length) }

/-- A map entry, a pin or a read in progress points at the run (R153, R244). -/
def runLive (s : State) (r : Run) : Bool :=
  let names (nsid grain frame : Nat) : Bool := nsid == r.nsid && grain == r.grain && frame == r.frame
  (match s.ns? r.nsid with
  | none => false
  | some n => let e := entryOf n r.grain; !e.dealloc && e.frame == r.frame)
  || (s.media.pins.any fun p => names p.2.1 p.2.2.1 p.2.2.2.frame)
  || s.media.fetches.any fun f => f.serial == r.serial && f.entry.frame == r.frame

end Sys2Proof.Machine
end

