-- ==== Sys2Proof/Machine/Power.lean ====
section
/-! DEFINITION. Power states, the core regulator, PMBus, throttling and temperature (file 13). -/

namespace Sys2Proof.Machine

/-- VDD_CORE bound of a power state, mV (Table 13.1). UNVERIFIED: log entry 17. -/
def vddBound : Nat → Nat
  | 0 => 850
  | 1 => 750
  | 2 => 700
  | _ => 650

/-- The level the device requests for a power state: from 650 to 850 mV in steps of 5 mV, within the bound
(R493, R506). UNVERIFIED: log entry 17. -/
def vddFor (ps : Nat) : Nat := min (vddBound ps) (650 + 5 * (Config.vddStep ps % 41))

/-- DRAM rate of an operational state (Table 13.1). -/
def dramRate : Nat → Nat
  | 0 => 6400
  | 1 => 4800
  | _ => 3200

/-- The state in force on demand (R495, R496). DEDUCED: log entry 76. -/
def psDemand (s : State) : Nat :=
  let votes := (s.ctrls.filter (·.en)).map (·.votePs)
  if hasStill s then 0 else match votes with
    | [] => 0
    | v :: vs => vs.foldl min v

/-- The fastest operational state that a level allows after a regulator fault (R509). -/
def psFallback (level : Nat) : Nat :=
  if vddBound 0 ≤ level then 0 else if vddBound 1 ≤ level then 1 else 2

/-- End of a Write VoltageTarget frame and its 100 us timeout, ticks from the start of the frame (R506, R508).
DEDUCED: log entry 77. -/
abbrev avsWindow : Nat := 800 + 100 * ticksPerUs

/-- Send a Write VoltageTarget frame. DEDUCED: log entry 77. -/
def avsSend (level tries : Nat) (s : State) : State :=
  ({ s with power := { s.power with avs := some (level, s.now + avsWindow, tries), regTried := s.now, regWanted := level } }).emit
    (.avs level)

/-- Ask for a level unless it is in force. DEDUCED: log entry 77. -/
def avsAsk (level : Nat) (s : State) : State :=
  if s.power.vdd = level then s else avsSend level 0 s

/-- A state comes in force: its time and its PS_CHANGE record (R502, R516, R517). DEDUCED: log entry 76. -/
def psReach (n : Nat) (wake : Bool) (s : State) : State :=
  let old := s.power.ps
  let k := old
  let s := { s with
    power := { s.power with
      ps := n
      psTicks := s.power.psTicks.set k (s.power.psTicks.getD k 0 + (s.now - s.power.psSince))
      psSince := s.now }
    repair := { s.repair with rate := if n ≤ 2 then dramRate n else s.repair.rate }
    pins := { s.pins with
      parked := if n ≥ 3 then true else if s.pfail.step = 7 then s.pins.parked else false
      wpHigh := if n ≥ 3 then [] else s.pins.wpHigh } }
  let s := if old = n then s
    else rimeDev 0x0701 sevInfo false (le 1 old ++ le 1 n ++ le 1 (if wake then 1 else 0)) s
  if n ≤ 2 then kickAll s else s

/-- Start an exit to a state (R503). DEDUCED: log entry 76. -/
def psExit (m : Nat) (s : State) : State :=
  if s.power.ps ≤ m then s
  else avsAsk (vddFor m) { s with power := { s.power with exiting := some m } }

/-- Start an exit in the tick after this one (R504). DEDUCED: log entry 76. -/
def psExitNext (m : Nat) (s : State) : State := { psExit m { s with now := s.now + 1 } with now := s.now }

/-- Start an entry to a state (R502): the lowering of PS1 and PS2 begins at once, and the preparation of PS3 and PS4, which
for PS4 writes the Rime ring. DEDUCED: log entry 76. -/
def psEnter (n : Nat) (s : State) : State :=
  let s := { s with power := { s.power with entering := some (n, n < 3), wake := false, entryPend := none } }
  if n < 3 then avsAsk (vddFor n) s else if n = 4 then rimeFlushStart s else s

/-- The preparation's work is done: no die operation is in progress, and for PS4 the staging SRAM is empty and the Rime
flush written (R494, R502). DEDUCED: log entry 76. -/
def psPrepared (s : State) (n : Nat) : Bool :=
  s.media.dies.all (fun x => x.op.isNone && !x.resetting)
    && (n ≠ 4 || (s.staged.all (·.tomb) && s.rime.flushing.isNone))

/-- The preparation ends: for PS4 the journal is written, and the lowering begins (R502). DEDUCED: log entry 76. -/
def psLower (n : Nat) (s : State) : State :=
  let s := if n = 4 then journalFlush s else s
  avsAsk (vddFor n) { s with power := { s.power with entering := some (n, true) } }

/-- A wake event lands (R503, R504). -/
def wake (s : State) : State :=
  let s := { s with power := { s.power with entryPend := none, idleSince := if idleNow s then some s.now else none } }
  if s.power.entering.isSome then
    { s with power := { s.power with wake := true, wakes := s.power.wakes + 1 } }
  else if s.power.exiting.isSome || s.pfail.stopped then s
  else psExit (psDemand s) s

/-- IDLE_MS of a state with its default, none when the timer never expires (R498). -/
def idleMsOf (s : State) (n : Nat) : Option Nat :=
  let v := s.settings.dev.idleMs.getD (n - 1) 0
  if v = 0xFFFFFFFF then none
  else if v = 0 then some ([10, 100, 2000, 600000].getD (n - 1) 0) else some v

/-- An upkeep task is due (R500). DEDUCED: log entry 76. -/
def upkeepDue (s : State) : Bool :=
  let day (x : Nat) : Bool := s.rime.opTicks - x ≥ 24 * ticksPerHour
  s.holdup.due || s.repair.chans.any (fun c => c.due.isSome || !c.failing.isEmpty || (c.inService && day c.trainedAt))
    || s.engines.any (fun e => e.status ≤ 1 && (e.testDue || (e.passedAt.map day).getD true)) || journalBytes s ≥ 192 * 2 ^ 20
    || day s.repair.sramPatrol || day s.repair.dramPatrol
    || (s.media.bands.any (fun b => !b.passed.isEmpty) && s.hours ≥ s.media.passSince + 14 * 24)

/-- The conditions of R499 on entry to state n. DEDUCED: log entry 76. -/
def psAllowed (s : State) (n : Nat) : Bool :=
  let en := s.ctrls.filter (·.en)
  let permits (c : Ctrl) : Bool := n ≥ 3 && (match c.votePerm with
    | some p => n ≤ p
    | none => false)
  let byPermission := n ≥ 3 && !en.isEmpty && en.all permits
  let byIdle := match s.power.idleSince, idleMsOf s n with
    | some t, some ms => s.now - t ≥ ms * ticksPerMs
    | _, _ => false
  s.power.idleSince.isSome && (byIdle || byPermission) && en.all (fun c => c.apste || permits c)
    && (n < 3 || (!upkeepDue s && freeShare s 0 > 600 && freeShare s 1 > 600
      && !s.media.blocks.any (·.refresh) && journalBytes s < 128 * 2 ^ 20))

/-- A retraining or a post-package repair runs on some channel (R463). DEDUCED: log entry 76. -/
def chanBusy (s : State) : Bool := s.repair.chans.any fun c => c.retraining || c.repairing.isSome

/-- The change of state needs a DRAM rate change in a STILL window or still tail, or while a channel is retrained or repaired
(R463, R464, R499). DEDUCED: log entry 76. -/
def rateBlocked (s : State) (n : Nat) : Bool :=
  n ≤ 2 && dramRate n ≠ s.repair.rate && (firnActs s == some .still || s.firn.tailUntil.isSome || chanBusy s)

/-- A DRAM rate change is under way (R463, R464). DEDUCED: log entry 76. -/
def rateChanging (s : State) : Bool :=
  let to_ (n : Nat) : Bool := n ≤ 2 && dramRate n != s.repair.rate
  (s.power.entering.map fun e => to_ e.1).getD false || (s.power.exiting.map to_).getD false

/-- The power-state decision (R496, R499, R500). DEDUCED: log entry 76. -/
def psDecide (s : State) : State :=
  if s.boot.life != .running || s.pfail.stopped || s.power.entering.isSome || s.power.exiting.isSome
    || s.power.regFault || s.fw.pauseSince.isSome then s
  else if s.power.ps > 0 && hasStill s then psExit 0 s
  else if s.power.ps ≥ 3 && upkeepDue s then psExit (psDemand s) s
  else if hasStill s || s.fw.handover.isSome then s
  else match [4, 3, 2, 1].find? fun n => n > psDemand s && n > s.power.ps && psAllowed s n with
    | none => s
    | some n =>
      if rateBlocked s n then { s with power := { s.power with entryPend := some n } } else psEnter n s

/-- An entry that waited for the end of a STILL window or still tail (R499). DEDUCED: log entry 76. -/
def psTryPending (s : State) : State :=
  match s.power.entryPend with
  | none => s
  | some n =>
    if rateBlocked s n || s.power.exiting.isSome || s.pfail.stopped || s.fw.handover.isSome then s else psEnter n s

/-- PS_ENTRY_COMPLETE: the entry's preparation ends, and its lowering begins; once the level is in force, the entry ends, and
a wake that landed during it starts the exit in the next tick (R502, R504). DEDUCED: log entry 76. -/
def psEntryEnd (s : State) : State :=
  match s.power.entering with
  | none => s
  | some (n, false) => if psPrepared s n then psLower n s else s
  | some (n, true) =>
    if s.power.avs.isSome then s
    else
      let woken := s.power.wake
      let k := n - 1
      let s := { s with power := { s.power with
        entering := none, wake := false
        entries := s.power.entries.set k (s.power.entries.getD k 0 + 1) } }
      let s := psReach n woken s
      if s.pfail.stopped then psExitNext 0 s else if woken then psExitNext (psDemand s) s else s

def execPsEntryComplete (t : Tick) (s : State) : Host.Outcome State Fault Refusal :=
  .next (psEntryEnd (s.arrive t))

/-- An acknowledgement: the level is in force and REG_FAULT clears (R506, R508, R509). DEDUCED: log entry 77. -/
def avsAcked (s : State) : State :=
  match s.power.avs with
  | none => s
  | some (level, d, _) =>
    if s.now > d then s
    else
      let fault := s.power.regFault
      let s := { s with power := { s.power with vdd := level, avs := none, regFault := false } }
      let s := { s with pins := { s.pins with alert := s.rime.alertSeq.isSome } }
      if fault && s.power.entering.isNone && s.power.exiting.isNone && s.power.ps > psDemand s
      then { s with power := { s.power with exiting := some (psDemand s) } } else s

/-- DESIGN CHOICE: log entry 93. -/
def execAvsAck (t : Tick) (s : State) : Host.Outcome State Fault Refusal := .next (avsAcked (s.arrive t))

/-- A regulator fault is declared (R508, R509). DEDUCED: log entry 77. -/
def regulatorFault (level : Nat) (s : State) : State :=
  let s := { s with power := { s.power with
    avs := none, regFault := true, regFaults := s.power.regFaults + 1, regTried := s.now, regWanted := level } }
  let s := rimeDev 0x0702 sevError true (le 2 level ++ le 2 s.power.vdd) s
  let s := { s with pins := { s.pins with alert := s.pins.alert || s.settings.dev.telemMask.testBit 1 } }
  if s.power.entering.isSome || s.power.exiting.isSome then
    psReach (psFallback s.power.vdd) false { s with power := { s.power with entering := none, exiting := none, wake := false } }
  else s

/-- A waiting acknowledgement. DEDUCED: log entry 77. -/
def ackEvent : Instr → Option Tick
  | .avsAck t => some t
  | _ => none

/-- REGULATOR_FAULT_RETRY: at most one new request per second (R509). -/
def execRegulatorFaultRetry (t : Tick) (s : State) : Host.Outcome State Fault Refusal :=
  let s := s.arrive t
  .next (if s.power.regFault && s.power.avs.isNone && s.power.regTried + ticksPerS ≤ s.now
    then avsSend s.power.regWanted 0 s else s)

/-! ### PMBus (R510, R511) -/

/-- The time limit of one PMBus transfer, ticks. -/
abbrev pmbusLimit : Nat := 35 * ticksPerMs

/-- Start a PMBus transfer for a step of Table 5.4. DEDUCED: log entry 77. -/
def pmbusStart (use : Nat) (s : State) : State :=
  { s with power := { s.power with pmbus := some (s.now + pmbusLimit, 0), pmbusUse := use } }

/-- PMB_ALERT: STATUS_WORD is read and recorded (R511). -/
def execPmbAlert (t : Tick) (statusWord : Nat) (s : State) : Host.Outcome State Fault Refusal :=
  let s := s.arrive t
  .next (if s.boot.life != .running then s
    else
      let s := ({ s with power := { s.power with statusWord := statusWord % 65536 } }).emit (.pmbusRead 0x40 0x79)
      rimeDev 0x0703 sevWarning false (le 1 0x40 ++ le 1 0 ++ le 2 statusWord) s)

/-! ### Throttling and temperature (R512 to R514) -/

/-- The power level after a sample (R513): the level and the milliseconds below 92 %. DEDUCED: log entry 78. -/
def powerLevel (limit average level below : Nat) : Nat × Nat :=
  if average * 100 > limit * 98 then (min 4 (level + 1), 0)
  else if average * 100 < limit * 92 then
    (if below + 1 ≥ 100 then (level - 1, 0) else (level, below + 1))
  else (level, 0)

/-- Entry temperature of a thermal level. DEDUCED: log entry 78. -/
def thermalEntry : Nat → Int
  | 1 => 100
  | 2 => 103
  | 3 => 106
  | _ => 110

/-- The thermal level after a sample (R514). DEDUCED: log entry 78. -/
def thermalLevel (tj : Int) (level : Nat) : Nat :=
  let rises := ([1, 2, 3, 4].filter fun k => tj ≥ thermalEntry k).length
  let stays := ([1, 2, 3, 4].filter fun k => k ≤ level && tj > thermalEntry k - 3).length
  max rises stays

/-- The throttle level (R513). DEDUCED: log entry 78. -/
def throttle (s : State) : Nat := max s.power.level s.power.thermal

/-- POWER_SAMPLE: once per millisecond (R512 to R515). DEDUCED: log entry 78. -/
def execPowerSample (t : Tick) (averageMw : Nat) (tj : Int) (s : State) : Host.Outcome State Fault Refusal :=
  let s := s.arrive t
  .next (if !s.pins.pwrgd then s
    else
      let p := s.power
      let (level, below) := powerLevel p.limit averageMw p.level p.below
      let thermal := thermalLevel tj p.thermal
      let hotBefore := p.tj ≥ 105 || p.tj ≤ -40
      let s := { s with power := { p with
        average := averageMw, level := level, below := below, thermal := thermal, tj := tj
        tjMax := max p.tjMax tj
        hotSince := if tj ≥ 115 then (match p.hotSince with
          | none => some s.now
          | some x => some x) else none
        msPower := p.msPower + (if level > 0 then 1 else 0)
        msThermal := p.msThermal + (if thermal > 0 then 1 else 0) } }
      if !hotBefore && (tj ≥ 105 || tj ≤ -40) then raiseSmart s else s)

/-! ### Reports (R516, R517) -/

/-- PWR_STAT (Table 13.5). -/
def pwrStat (s : State) : Nat :=
  s.power.ps + (if s.power.entering.isSome then 8 else 0) + (if s.power.exiting.isSome then 16 else 0)
    + 2 ^ 8 * throttle s + 2 ^ 16 * (s.power.tj % 256).toNat + (if s.power.regFault then 2 ^ 24 else 0)

/-- Log page 0xC6 (Table 13.6). -/
def logC6 (s : State) (view : Option Nat) : List Byte :=
  let p := s.power
  let b (x : Bool) : Nat := if x then 1 else 0
  let time (n : Nat) : Nat := (p.psTicks.getD n 0 + (if n = p.ps then s.now - p.psSince else 0)) / ticksPerMs
  le 1 p.ps ++ le 1 (throttle s) ++ le 1 p.thermal
    ++ le 1 (b p.entering.isSome + 2 * b p.exiting.isSome + 4 * b p.regFault + 8 * b p.monitorAbsent)
    ++ leInt 2 p.tj ++ leInt 2 p.tjMax ++ le 4 p.limit ++ le 4 (if view.isSome then 0 else p.average)
    ++ le 2 p.vdd ++ zeros 2 ++ le 4 (sat 4 p.avsTimeouts) ++ (List.range 5).flatMap (fun n => le 8 (time n))
    ++ (List.range 4).flatMap (fun n => le 4 (sat 4 (p.entries.getD n 0))) ++ le 4 (sat 4 p.wakes) ++ le 4 p.regFaults
    ++ le 4 (sat 4 p.msPower) ++ le 4 (sat 4 p.msThermal) ++ le 4 p.thermals ++ le 4 (sat 4 p.pmbusFails) ++ zeros 24

end Sys2Proof.Machine
end

