-- ==== Sys2Proof/Machine/Drain.lean ====
section
/-! DEFINITION. Writing to the media (files 03 and 04): staging room, the commit of write pieces, host
drain, and the commands that wait for lower-ASN commands (Flush, Format, Sanitize, CC.SHN). -/

namespace Sys2Proof.Machine

/-! ### The write cache (R99, R195) -/

/-- The protection state that governs this tick: a change takes effect on the tick after it (R195). -/
def protectedNow (s : State) : Bool :=
  if s.holdup.changedAt = some s.now then !s.holdup.proven else s.holdup.proven

/-- The write cache is in force for a controller (R99). -/
def cacheInForce (s : State) (f : Fn) : Bool := ((s.ctrl? f).map (·.wce)).getD false && protectedNow s

/-! ### Staging room (R20) -/

/-- Bytes of a piece of a command. -/
def pieceBytes (s : State) (sl : Slot) (p : Piece) : Nat :=
  p.count * (((s.ns? sl.sqe.nsid).map lbaBytes).getD 4096)

/-- A staged piece stands for a piece of a command. -/
def isStaged (s : State) (asn nsid lba : Nat) : Bool :=
  s.staged.any fun p => p.asn == asn && p.nsid == nsid && p.lba == lba

/-- The command writes zeros, which take no staging room (R20, R145). DESIGN CHOICE: log entry 36. -/
def Body.zeroing : Body → Bool
  | .writeZeroes .. | .dsm .. => true
  | _ => false

/-- Room taken: pieces that were given room and are not yet in the staging index, and staged data (R20). -/
def roomTaken (s : State) : Nat :=
  sumBy (fun sl => if Body.zeroing sl.sqe.body then 0 else sumBy (fun p =>
      if p.room && !p.committed && !isStaged s sl.asn sl.sqe.nsid p.lba then pieceBytes s sl p else 0) sl.pieces) s.slots
    + sumBy (fun p => if p.tomb || p.zeroes then 0 else sumBy List.length p.data) s.staged

/-- The lowest-ASN piece that waits for room: slot and index (R20). Slots stand in ASN order. -/
def waitingPiece (s : State) : Option (Slot × Nat) :=
  s.slots.findSome? fun sl =>
    if sl.phase != .dataIn then none
    else (sl.pieces.findIdx? fun p => !p.room && !p.faulted).map fun i => (sl, i)

/-- Give room to the lowest-ASN waiting piece if it fits (R20); throttle level 4 only paces the data. -/
def grantOne (s : State) : Option State :=
  match waitingPiece s with
  | none => none
  | some (sl, i) => match sl.pieces[i]? with
    | none => none
    | some p =>
      if roomTaken s + pieceBytes s sl p ≤ s.repair.stagingKib * 1024 then
        some (s.setSlot sl.ix fun sl => { sl with pieces := sl.pieces.set i { p with room := true } })
      else none

/-- Give room while it lasts, at most `n` times. DESIGN CHOICE: log entry 36. -/
def grantRoom : Nat → State → State
  | 0, s => s
  | n + 1, s => match grantOne s with
    | none => s
    | some s' => grantRoom n s'

/-! ### Damaged LBAs (R474) -/

/-- LBAs leave the damaged-LBA list when a writing command that covers them commits. -/
def undamage (nsid lba count : Nat) (s : State) : State :=
  { s with media := { s.media with damaged := s.media.damaged.filter fun d =>
      !(d.1 == nsid && lba ≤ d.2 && d.2 < lba + count) } }

/-! ### Commits -/

/-- A run of a graph that has not yet read an LBA keeps the version it must see (R244). -/
def keepForRuns (nsid lba : Nat) (old new : Nat × List Byte) (dropped : Bool) (s : State) : State :=
  let covers (r : GRun) : Bool := r.reads.any fun x =>
    x.2.1 == nsid && x.2.2.1 ≤ lba && lba < x.2.2.1 + x.2.2.2 && ((get? x.1 r.translate).getD 0) ≤ lba
  let keep (r : GRun) : GRun :=
    if !covers r then r
    else if dropped then (if verLt new.1 r.asn then { r with kept := (nsid, lba, new.1, new.2) :: r.kept } else r)
    else if verLt r.asn new.1 then { r with kept := (nsid, lba, old.1, old.2) :: r.kept } else r
  { s with compute := { s.compute with runs := s.compute.runs.map keep } }

/-- The pins that moving a grain needs: untranslated runs that read it keep its older entry (R244). -/
def newPins (s : State) (n : Ns) (grain : Nat) (asns : List Nat) : List (Nat × Nat × Nat × MapEntry) :=
  let last := grain * lbasPerGrain n + lbasPerGrain n
  let pinners := s.compute.runs.filter fun r => !(s.media.pins.any fun p =>
      p.1 == r.asn && p.2.1 == n.nsid && p.2.2.1 == grain) && r.reads.any fun x =>
    x.2.1 == n.nsid && (grainsOf n x.2.2.1 x.2.2.2).contains grain && ((get? x.1 r.translate).getD 0) < last
  (pinners.filter fun r => asns.any (verLt r.asn ·)).map fun r => (r.asn, n.nsid, grain, entryOf n grain)

/-- A drain of the grain would need a new pin and none is free (R245). -/
def pinsShort (s : State) (n : Ns) (grain : Nat) (p : Staged) : Bool :=
  let k := (newPins s n grain [p.asn]).length
  k ≠ 0 && s.media.pins.length + k > 1048576

/-- The map moves one grain to new data: older versions are kept for the readers that still need them, and
untranslated runs pin the older entry (R96, R244). -/
def moveGrain (n : Ns) (grain : Nat) (e : MapEntry) (data : List (List Byte)) (asns : List Nat) (s : State) : State :=
  let step (s : State) (i : Nat) : State :=
    let lba := grain * lbasPerGrain n + i
    let o := mediaVersion s n lba
    let w := (asns.getD i 0, data.getD i [])
    if o = w then s else keepForRuns n.nsid lba o w false (keepFor n.nsid lba o w false s)
  let s := (List.range (lbasPerGrain n)).foldl step s
  setEntry n.nsid grain e { s with media := { s.media with pins := s.media.pins ++ newPins s n grain asns } }

/-- The charge of a grain of a piece is replaced by its stored LEN (R144). -/
def dropCharge (nsid : Nat) (charge : List (Nat × Nat)) (s : State) : State :=
  let less (c : Nat × Nat) (g : Nat × Nat) : Nat × Nat :=
    if domainOf g.1 = 0 then (c.1 - g.2, c.2) else (c.1, c.2 - g.2)
  s.setNs nsid fun n => { n with charged := charge.foldl less n.charged }

/-- Grains that a staged piece touches. -/
def pieceGrains (n : Ns) (p : Staged) : List Nat := grainsOf n p.lba p.data.length

/-- A piece of a slot is named by its ASN and first LBA. -/
def updPiece (asn lba : Nat) (g : Piece → Piece) (s : State) : State :=
  { s with slots := s.slots.map fun sl =>
      if sl.asn = asn then { sl with pieces := sl.pieces.map fun p => if p.lba = lba then g p else p } else sl }

/-- A writing command is done: every piece has committed and, where asked, is on media (R93, R99, R102).
DESIGN CHOICE: log entry 36. -/
def writeDone (sl : Slot) : Bool :=
  let fua := match sl.sqe.body with
    | .write _ _ f => f
    | _ => false
  Body.writing sl.sqe.body && (sl.phase == .dataIn || sl.phase == .programming) && sl.outcome.isNone
    && sl.pieces.all fun p => p.committed && (!fua || p.onMedia)

/-- A writing command that has ended its work completes (R104, R112). DESIGN CHOICE: log entry 36. -/
def settleWrites (s : State) : State :=
  s.slots.foldl (fun s sl =>
    if writeDone sl then complete sl.ix stOk 0 s
    else
      -- R112: a faulted piece ends the command once every lower piece has committed
      let k := sl.pieces.findIdx (·.faulted)
      if (sl.phase == .dataIn || sl.phase == .programming) && k < sl.pieces.length && sl.outcome.isNone
        && (sl.pieces.take k).all (·.committed)
      then complete sl.ix stDataTransfer 0 s else s) s

/-- The staged pieces of the commit step that a piece belongs to (R102). -/
def stepPieces (s : State) (p : Staged) : List Staged :=
  s.staged.filter fun q => q.asn == p.asn && q.nsid == p.nsid && q.step == p.step && !q.tomb

/-- A grain of a step is verified. -/
def stepReady (s : State) (p : Staged) (grain : Nat) : Bool := (stepPieces s p).any fun q => q.ready.any (·.1 == grain)

/-- Drop what was verified for grains whose merged data has changed since: it is drained again (R96, R128). -/
def dropStale (p : Staged) (s : State) : State :=
  match s.ns? p.nsid with
  | none => s
  | some n =>
    let fresh (q : Staged) (r : Nat × MapEntry × List (List Byte) × List Nat) : Bool :=
      mergeGrain s n q r.1 == (r.2.2.1, r.2.2.2, r.2.1.dealloc)
    { s with staged := s.staged.map fun q =>
        if q.asn = p.asn ∧ q.nsid = p.nsid ∧ q.step = p.step then { q with ready := q.ready.filter (fresh q) } else q }

/-- A commit step whose grains are all verified commits in one journal record, after the lower steps of its command; what
it deallocates leaves its mark for older versions (R96, R102, R145, R184). -/
def commitPieces (p : Staged) (s : State) : State :=
  match s.ns? p.nsid with
  | none => s
  | some n =>
    let lower := s.slots.any fun sl => sl.asn == p.asn && sl.pieces.any fun q => q.step < p.step && !q.committed
    let done (s : State) : Bool := (stepPieces s p).all fun q => (pieceGrains n q).all (stepReady s p)
    if p.tomb || lower || !done s then s
    else
      let s := dropStale p s
      if !done s then s
      else
        let ps := stepPieces s p
        let grains := (ps.flatMap (pieceGrains n)).dedup
        let all := ps.flatMap (·.ready)
        let ready := grains.filterMap fun g => all.find? (·.1 == g)
        let s := ready.foldl (fun s r => match s.ns? p.nsid with
          | none => s
          | some n => moveGrain n r.1 r.2.1 r.2.2.1 r.2.2.2 s) s
        -- versions of this step that a newer write had already replaced stay for their readers (R96)
        let s := ps.foldl (fun s q => (List.range q.data.length).foldl (fun s i =>
          let w := (q.asn, q.data.getD i [])
          match s.ns? q.nsid with
          | none => s
          | some n =>
            if verLt q.asn (mediaVersion s n (q.lba + i)).1
            then keepForRuns q.nsid (q.lba + i) w w true (keepFor q.nsid (q.lba + i) w w true s) else s) s) s
        let s := ps.foldl (fun s q => dropCharge q.nsid q.charge s) s
        let k := lbasPerGrain n
        let tombs := (ready.filter (·.2.1.dealloc)).map fun r =>
          ({ asn := p.asn, nsid := p.nsid, lba := r.1 * k, data := r.2.2.1, tomb := true } : Staged)
        let imaged := (ps.filter (·.image.isSome)).map fun q => { q with ready := [] }
        let s := { s with
          staged := (s.staged.filter fun q => !(q.asn == p.asn && q.nsid == p.nsid && q.step == p.step && !q.tomb)) ++ tombs
          media := { s.media with undoPieces := s.media.undoPieces ++ imaged } }
        let s := ps.foldl (fun s q => if q.committed then s else undamage q.nsid q.lba q.data.length s) s
        let s := ps.foldl (fun s q => updPiece q.asn q.lba (fun x => { x with committed := true, onMedia := true }) s) s
        journalAdd ready.length s

/-- Commit what may commit: steps in the order staged. -/
def commitReady (s : State) : State := purgeTombs (settleWrites (s.staged.foldl (fun s p =>
  match s.staged.find? fun q => q.asn == p.asn && q.nsid == p.nsid && q.lba == p.lba && !q.tomb with
  | some q => commitPieces q s
  | none => s) s))

/-! ### Filling bands (R115 to R117, R121, R126, R370) -/

/-- The stored frames of a grain, encrypted under the namespace's key, not yet given a place (R126, R370). -/
def mkRun (n : Ns) (grain : Nat) (verified : Bool) (data : List (List Byte)) (asns : List Nat) : Run :=
  let (len, raw) := storedForm n verified data
  let key := n.key.getD []
  { domain := domainOf grain, frame := 0, len := len, raw := raw, nsid := n.nsid, grain := grain, data := data, asns := asns,
    key := key, sealed := sealFrames key grain (plainFrames len raw data), serial := 0 }

/-- 64 bytes of a band's frame as programmed: those of the grain placed there, or padding, which passes the cipher lane
too (R19). DESIGN CHOICE: log entry 36. -/
def frameBytes (s : State) (serial frame : Nat) : List Byte :=
  match s.media.placed.find? fun p => p.run.serial == serial && p.run.frame ≤ frame && frame < p.run.frame + p.run.len with
  | some p => slice p.run.sealed ((frame - p.run.frame) * 64) 64
  | none => xtsUnit true (tablesKey s) frame (zeros 64)

/-- The image of a page counted in band order. -/
def pageImage (s : State) (b : Band) (p : Nat) : List Byte :=
  (List.range pageFrames).flatMap fun i => frameBytes s b.serial (b.index * bandFrames + p * pageFrames + i)

/-- XOR a page image into the parity of its row; doing so again takes it out (R117). -/
def foldParity (serial row : Nat) (image : List Byte) (s : State) : State :=
  let sum (b : Band) : List Byte := match get? row b.parity with
    | none => image
    | some x => xorBytes x image
  setBand serial (fun b => { b with parity := put row (sum b) b.parity }) s

/-- Ask for the program of the parity page of each row whose data pages have all been programmed (R117). -/
def issueParity (serial : Nat) (s : State) : State :=
  match band? s serial with
  | none => s
  | some b =>
    let rows := (List.range (b.issued / 31)).filter fun r => !b.parityIssued.contains r
      && b.columns.all fun c => !b.usable r c || b.passed.contains (r, c)
    rows.foldl (fun s r => match b.blockOn (parityChannel serial) with
      | none => s
      | some (d, _) => dieAsk d (.program serial r (parityChannel serial))
          (setBand serial (fun b => { b with parityIssued := b.parityIssued ++ [r] }) s)) s

/-- Ask for the program of one page of a band, unless its column is out of use. -/
def issuePage (serial p : Nat) (s : State) : State :=
  match band? s serial with
  | none => s
  | some b =>
    let (row, ch) := pageAt serial p
    match b.blockOn ch, b.usable row ch with
    | some (d, _), true => dieAsk d (.program serial row ch) (foldParity serial row (pageImage s b p) s)
    | _, _ => s

/-- Ask for the programs of the pages that are full, in band order (R117). -/
def issuePages (serial : Nat) (s : State) : State :=
  match band? s serial with
  | none => s
  | some b =>
    let upto := b.next / pageFrames
    let s := ((List.range (upto - b.issued)).map (b.issued + ·)).foldl (fun s p => issuePage serial p s) s
    issueParity serial (setBand serial (fun b => { b with issued := max b.issued upto, closed := b.closed || bandFrames ≤ b.next }) s)

/-- Fill a band with padding up to a frame. -/
def fillBand (serial upto : Nat) (s : State) : State :=
  issuePages serial (setBand serial (fun b => { b with next := max b.next (min upto bandFrames) }) s)

/-- Fill the rows that share word lines with the last row used, so that its pages can be verified (R184).
DESIGN CHOICE: log entry 36. -/
def fillGroup (serial : Nat) (s : State) : State :=
  match band? s serial with
  | none => s
  | some b =>
    if b.next = 0 then s
    else
      let row := (b.next - 1) / pageFrames / 31
      fillBand serial (((Config.wordLines row).foldl max row + 1) * 31 * pageFrames) s

/-- Put grains one after another into a band; none where they do not fit before its end (R115, R121). -/
def putRuns (serial : Nat) (ps : List Placed) (s : State) : Option State :=
  match band? s serial with
  | none => none
  | some b =>
    let len := sumBy (·.run.len) ps
    let start := fitFrames b len 1024 b.next
    if bandFrames < start + len then none
    else
      let at_ (i : Nat) : Nat := b.index * bandFrames + start + sumBy (·.run.len) (ps.take i)
      let placed := ps.zipIdx.map fun x => { x.1 with run := { x.1.run with frame := at_ x.2, serial := serial } }
      let s := setBand serial (fun b => { b with next := start + len }) s
      some (issuePages serial { s with media := { s.media with placed := s.media.placed ++ placed } })

/-- The kind of band that takes a grain: still bands take all of a still-class namespace, copies else go to relocation bands
(Table 4.1). -/
def kindFor (n : Ns) (copy : Bool) : BandKind := if n.still then .still else if copy then .relocation else .host

/-- Place grains in the open band of a kind and domain; a band without room for them is filled up and the next is opened.
Grains for which no band can be opened wait. DESIGN CHOICE: log entry 36. -/
def placeRuns (kind : BandKind) (dom : Nat) (not_ : List Nat) (ps : List Placed) (s : State) : State :=
  let wait (s : State) : State := { s with media := { s.media with unplaced := s.media.unplaced ++ ps } }
  match bandFor kind dom not_ s with
  | none => wait s
  | some (s, b) => match putRuns b.serial ps s with
    | some s => s
    | none => match bandFor kind dom not_ (fillBand b.serial bandFrames s) with
      | none => wait (fillBand b.serial bandFrames s)
      | some (s, b) => (putRuns b.serial ps s).getD (wait s)

/-! ### Verified grains (R127, R153, R184) -/

/-- A page counts as verified: it and every page that shares its word lines have been programmed and reported pass
(R184). -/
def Band.verified (b : Band) (p : Nat × Nat) : Bool :=
  b.passed.contains p && (Config.wordLines p.1).all fun r => blockRows ≤ r || b.passed.contains (r, p.2)

/-- The frames of a drained grain are verified: they are on media, and its commit step may commit (R184). -/
def drainVerified (p : Placed) (s : State) : State :=
  let r := p.run
  let e : MapEntry := { frame := r.frame, len := r.len, dealloc := false, raw := r.raw }
  let owed := if r.domain = 0 then (s.media.owed.1 + r.len, s.media.owed.2) else (s.media.owed.1, s.media.owed.2 + r.len)
  let s := { s with media := { s.media with
    runs := s.media.runs ++ [r], owed := owed, hostBytes := s.media.hostBytes + 64 * r.len } }
  commitReady { s with staged := s.staged.map fun q =>
    if q.asn = p.asn ∧ q.nsid = r.nsid ∧ q.lba = p.lba ∧ q.tomb = false
    then { q with ready := q.ready ++ [(r.grain, e, r.data, r.asns)] } else q }

/-- A verified copy commits only if the entry still holds the FRAME and GEN that the copy read (R127, R153). -/
def copyVerified (r : Run) (src : MapEntry) (s : State) : State :=
  let s := { s with media := { s.media with relocBytes := s.media.relocBytes + 64 * r.len } }
  match s.ns? r.nsid with
  | none => s
  | some n =>
    let cur := entryOf n r.grain
    if cur.dealloc || cur.frame ≠ src.frame || cur.gen ≠ src.gen then s
    else
      let s := setEntry r.nsid r.grain { frame := r.frame, len := r.len, dealloc := false, raw := r.raw } s
      journalAdd 1 { s with media := { s.media with runs := s.media.runs ++ [r] } }

/-- Commit the grains of a band whose pages are all verified (R153, R184). -/
def settleBand (serial : Nat) (s : State) : State :=
  match band? s serial with
  | none => s
  | some b =>
    let done (p : Placed) : Bool := p.run.serial == serial && p.run.pages.all b.verified
    let ready := s.media.placed.filter done
    let s := { s with media := { s.media with placed := s.media.placed.filter (!done ·) } }
    ready.foldl (fun s p => match p.source with
      | none => drainVerified p s
      | some e => copyVerified p.run e s) s

/-! ### Draining a grain (R126, R128) -/

/-- A grain of a piece is placed and not yet verified, is being read for its merge, or is verified. -/
def inFlight (s : State) (p : Staged) (grain : Nat) : Bool :=
  let is (x : Placed) : Bool := x.source.isNone && x.asn == p.asn && x.run.nsid == p.nsid && x.run.grain == grain
  stepReady s p grain || s.media.placed.any is || s.media.unplaced.any is

/-- A grain is being written or read for a write by anyone: a drain, a merge or a copy.
DESIGN CHOICE: log entry 36. -/
def grainBusy (s : State) (nsid grain : Nat) : Bool :=
  let is (x : Placed) : Bool := x.run.nsid == nsid && x.run.grain == grain
  s.media.placed.any is || s.media.unplaced.any is || s.media.fetches.any fun f => match f.use with
    | .merge _ _ n g _ _ | .move n g => n == nsid && g == grain
    | _ => false

/-- The merged data of a piece's grain is encoded and waits for a place, or the grain is ready to be deallocated
(R126, R128, R145). -/
def encodeGrain (p : Staged) (n : Ns) (grain : Nat) (verified : Bool) (s : State) : State :=
  let (data, asns, dealloc) := mergeGrain s n p grain
  if dealloc then { s with staged := s.staged.map fun q =>
    if q.asn = p.asn ∧ q.nsid = p.nsid ∧ q.lba = p.lba ∧ q.tomb = false
    then { q with ready := q.ready ++ [(grain, { dealloc := true }, data, asns)] } else q }
  else
    let x : Placed := { run := mkRun n grain verified data asns, source := none, asn := p.asn, lba := p.lba }
    { s with media := { s.media with unplaced := s.media.unplaced ++ [x] } }

/-- A staged grain of this kind and domain still waits for its drain. -/
def drainWaits (s : State) (kind : BandKind) (dom : Nat) : Bool :=
  s.staged.any fun p => !p.tomb && !p.parked && match s.ns? p.nsid with
    | none => false
    | some n => kindFor n false == kind && (pieceGrains n p).any fun g => domainOf g = dom && !inFlight s p g

/-- The grains that go into one page together: the aligned 16 KiB group of a still-class namespace, else the grain alone
(R121). -/
def grainGroup (n : Ns) (grain : Nat) : List Nat :=
  if n.still then (List.range 4).map (grain / 4 * 4 + ·) else [grain]

/-- Place the encoded grains of a group once no read for it is outstanding, and fill the band's group of rows when nothing
else waits to be drained into it (R121, R184). DESIGN CHOICE: log entry 36. -/
def placeGroup (n : Ns) (grain : Nat) (s : State) : State :=
  let mine (x : Placed) : Bool := x.run.nsid == n.nsid && (grainGroup n grain).contains x.run.grain
  let ps := s.media.unplaced.filter mine
  let waits := s.media.fetches.any fun f => match f.use with
    | .merge _ _ m g _ _ | .move m g => m == n.nsid && (grainGroup n grain).contains g
    | _ => false
  if ps.isEmpty || waits then s
  else
    let copy := ps.all (·.source.isSome)
    let s := { s with media := { s.media with unplaced := s.media.unplaced.filter (!mine ·) } }
    let s := placeRuns (kindFor n copy) (domainOf grain) (ps.flatMap (·.failedIn)) ps s
    if copy || drainWaits s (kindFor n false) (domainOf grain) then s
    else match s.media.bands.find? fun b => b.kind == kindFor n false && b.domain == domainOf grain && !b.closed with
      | some b => fillGroup b.serial s
      | none => s

/-- The oldest staged piece with a grain that is not on its way. DESIGN CHOICE: log entry 36. -/
def drainable (s : State) (n : Ns) (grain : Nat) : Option Staged :=
  s.staged.find? fun p => !p.tomb && !p.parked && p.nsid == n.nsid && (pieceGrains n p).contains grain && !inFlight s p grain

/-- Ask for the current frames of a grain that a write is merged into, or that a still-class group takes along. -/
def fetchEntry (u : ReadUse) (n : Ns) (grain : Nat) (s : State) : State × PageAsk :=
  let e := entryOf n grain
  match runOf s grain e with
  | none => (s, .decoded)
  | some r => askFetch u r e s

/-- A copy of a grain's frames as stored, without a place yet (R152). -/
def encodeCopy (nsid grain : Nat) (e : MapEntry) (s : State) : State :=
  match runOf s grain e with
  | none => s
  | some r =>
    if r.nsid ≠ nsid then s
    else { s with media := { s.media with unplaced := s.media.unplaced ++ [{ run := r, source := some e }] } }

/-- Put every committed piece on media at once, as a device shutdown does (R198): the grains are placed, their bands filled
to the end of a row, and their pages programmed. -/
def programAll (s : State) : State :=
  let s := s.media.bands.foldl (fun s b => if b.closed || b.next = 0 then s else fillGroup b.serial s) s
  let idle (x : Die) : Die := match x.op with
    | some (.program ..) => { x with op := none, pollAt := none, suspendAsked := none }
    | _ => x
  let keep (w : DieId × DieOp) : Bool := match w.2 with
    | .program .. => false
    | _ => true
  let s := { s with media := { s.media with dies := s.media.dies.map idle, waiting := s.media.waiting.filter keep } }
  let pass (b : Band) : Band :=
    let data := ((List.range b.issued).map (pageAt b.serial)).filter fun p => b.usable p.1 p.2
    let rows := List.range (b.issued / 31)
    { b with
      passed := b.passed ++ ((data ++ rows.map fun r => (r, parityChannel b.serial)).filter (!b.passed.contains ·))
      parityIssued := rows }
  s.media.bands.foldl (fun s b => settleBand b.serial (setBand b.serial pass s)) s

def drainAll (s : State) : State :=
  let one (s : State) (x : Staged × Nat) : State :=
    match s.ns? x.1.nsid, s.staged.find? fun q => q.asn == x.1.asn && q.nsid == x.1.nsid && q.lba == x.1.lba && !q.tomb with
    | some n, some q =>
      if inFlight s q x.2 then s else placeGroup n x.2 (encodeGrain q n x.2 true (dropReads (fun u => match u with
        | .merge _ _ m g _ _ | .move m g => m == n.nsid && (grainGroup n x.2).contains g
        | _ => false) s))
    | _, _ => s
  let todo := (s.staged.filter (!·.tomb)).flatMap fun p => match s.ns? p.nsid with
    | some n => (pieceGrains n p).map fun g => (p, g)
    | none => []
  commitReady (programAll (todo.foldl one s))

/-! ### Erasing a namespace (R146, R410) -/

/-- Every grain of a namespace becomes deallocated, by a commit that raises its GEN, and its staged data is discarded
(R127, R146). -/
def blankNs (nsid : Nat) (s : State) : State :=
  let gone (e : MapEntry) : MapEntry := if e.dealloc then e else { dealloc := true, gen := e.gen + 1 }
  let n? := s.ns? nsid
  let live := ((n?.map (·.map)).getD []).filter fun e => !e.2.dealloc
  let s := journalAdd live.length (s.setNs nsid fun n => { n with
    map := n.map.map fun e => (e.1, gone e.2)
    dirty := n.dirty ++ ((live.map fun e => pageOf e.1).dedup.filter (!n.dirty.contains ·))
    charged := (0, 0) })
  { s with
    staged := s.staged.filter (·.nsid != nsid)
    media := { s.media with
      damaged := s.media.damaged.filter (·.1 != nsid), undo := s.media.undo.filter (·.1 != nsid)
      undoPieces := s.media.undoPieces.filter (·.nsid != nsid) } }

/-- Crypto-erase of a namespace: the key, its salt or verifier, and all data go; a device-held namespace that
remains draws a fresh salt (R410). -/
def cryptoErase (nsid : Nat) (s : State) : State :=
  let s := blankNs nsid s
  let (salt, s) := draw 32 s
  s.setNs nsid fun n =>
    if n.keysrc = 0 then
      let n := { n with salt := salt, verifier := [], marked := s.owner.unlocked }
      { n with key := some (nsDeviceKey s n) }
    else { n with key := none, verifier := [], salt := [] }

/-- Format NVM: the LBA format changes and every grain is deallocated (R76, R146). DESIGN CHOICE: log entry 87. -/
def formatNs (nsid lbaf : Nat) (s : State) : State :=
  (blankNs nsid s).setNs nsid fun n => { n with lbaf := lbaf, busyOp := none }

/-! ### Commands that wait for lower-ASN commands -/

/-- NSIDs that a command names: 0xFFFFFFFF names every namespace attached to the controller (R101). -/
def namedNs (s : State) (f : Fn) (nsid : Nat) : List Nat :=
  if nsid = 0xFFFFFFFF then (s.nss.filter fun n => n.attached.contains f).map (·.nsid) else [nsid]

/-- A lower-ASN writing command of the namespaces is not yet on media (R101). -/
def flushPending (s : State) (asn : Nat) (ns : List Nat) : Bool :=
  (s.slots.any fun sl => Body.writing sl.sqe.body && asnLt sl.asn asn && ns.contains sl.sqe.nsid && sl.phase != .posted)
    || s.staged.any fun p => !p.tomb && asnLt p.asn asn && ns.contains p.nsid

/-- An I/O command of the namespaces with a lower ASN has not completed (R97). -/
def ioPending (s : State) (asn : Nat) (ns : List Nat) : Bool :=
  (s.slots.any fun sl => sl.sqid != 0 && asnLt sl.asn asn
      && (ns.contains sl.sqe.nsid || sl.sqe.nsid == 0xFFFFFFFF))
    || s.compute.runs.any fun r => asnLt r.asn asn && r.reads.any fun x => ns.contains x.2.1

/-- Namespaces of a tenant that hold media data. -/
def tenantNs (s : State) (t : Nat) : List Nat := (s.nss.filter fun n => n.tenant == t).map (·.nsid)

/-- Bands that hold frames of the namespaces. -/
def bandsOf (s : State) (ns : List Nat) : List Nat :=
  ((s.media.runs.filter fun r => ns.contains r.nsid).map (·.serial)).dedup

/-! ### Subsystem local memory (R246, R257, R258) -/

/-- The memory ranges of a run's memory range set. -/
def runRanges (s : State) (r : GRun) : List (Nat × Nat) :=
  ((s.compute.sets.find? fun q => q.tenant == r.tenant && q.id == field r.args 8 4).map (·.ranges)).getD []

/-- The SLM ranges that a command writes, and those it reads (R246). -/
def Body.slmWrites : Body → List (Nat × Nat)
  | .slmWrite o d => [(o, d.length)]
  | .slmFill o l _ => [(o, l)]
  | .slmCopy _ d l => [(d, l)]
  | _ => []

def Body.slmReads : Body → List (Nat × Nat)
  | .slmRead o l => [(o, l)]
  | .slmCopy f _ l => [(f, l)]
  | _ => []

/-- A lower-ASN SLM writing command or run with overlapping ranges has not completed (R246). -/
def slmWaits (s : State) (asn tenant : Nat) (rs : List (Nat × Nat)) : Bool :=
  (s.slots.any fun sl => asnLt sl.asn asn && sl.fn.tenant == tenant && anyOverlap (Body.slmWrites sl.sqe.body) rs)
    || s.compute.runs.any fun r => asnLt r.asn asn && r.tenant == tenant && anyOverlap (runRanges s r) rs

/-- An SLM command must wait: for earlier runs and writers of its bytes, and a writer for earlier readers. -/
def slmMustWait (s : State) (sl : Slot) : Bool :=
  let w := Body.slmWrites sl.sqe.body
  slmWaits s sl.asn sl.fn.tenant (w ++ Body.slmReads sl.sqe.body)
    || s.slots.any fun x => asnLt x.asn sl.asn && x.fn.tenant == sl.fn.tenant && x.phase == .waitEarlier
      && anyOverlap (Body.slmReads x.sqe.body) w

/-- The bytes of a tenant's SLM. -/
def slmOf (s : State) (tenant : Nat) : List Host.Cell := (get? tenant s.compute.slm).getD []

/-- Write SLM bytes; a line that is written whole loses its poison (R457). -/
def slmPut (tenant off : Nat) (bs : List Byte) (s : State) : State :=
  { s with compute := { s.compute with
    slm := put tenant (Memory.writeN (slmOf s tenant) off bs) s.compute.slm
    slmPoison := s.compute.slmPoison.filter fun q =>
      !(q.1 == tenant && off ≤ q.2 * 64 && q.2 * 64 + 64 ≤ off + bs.length) } }

/-- Poisoned lines of a range of a tenant's SLM, lowest first. -/
def slmBad (s : State) (tenant off len : Nat) : List Nat :=
  (List.range ((off + len + 63) / 64 - off / 64)).map (· + off / 64) |>.filter fun l => s.compute.slmPoison.contains (tenant, l)

/-- Carry out an SLM command (Table 6.16, Table 12.1). -/
def slmRun (sl : Slot) (s : State) : State :=
  let t := sl.fn.tenant
  match sl.sqe.body with
  | .slmRead o l =>
    let (len, st) := match slmBad s t o l with
      | [] => (l, none)
      | b :: _ => (b * 64 - o, some stUnrecovered)
    s.setSlot sl.ix fun x => { x with phase := .dma, data := [Memory.readN (slmOf s t) o len], outcome := st }
  | .slmWrite o d => complete sl.ix stOk 0 (slmPut t o d s)
  | .slmFill o l p =>
    complete sl.ix stOk 0 (slmPut t o ((List.range l).map fun i => p.getD (i % max 1 p.length) 0) s)
  | .slmCopy f d l =>
    let bad := slmBad s t f l
    let s := slmPut t d (Memory.readN (slmOf s t) f l) s
    let lines := (bad.flatMap fun b =>
      let a := max f (b * 64) - f + d
      let z := min (f + l) (b * 64 + 64) - f + d
      [a / 64, (z - 1) / 64]).dedup
    let s := { s with compute := { s.compute with slmPoison := (s.compute.slmPoison ++ lines.map fun x => (t, x)).dedup } }
    complete sl.ix (if bad.isEmpty then stOk else stUnrecovered) 0 s
  | _ => s

/-- No run of a program index is held or in flight (R257). -/
def indexIdle (s : State) (tenant index : Nat) : Bool :=
  !s.compute.runs.any fun r => r.tenant == tenant && r.index == index

/-- Discard a graph image. -/
def dropImage (tenant index : Nat) (s : State) : State :=
  { s with compute := { s.compute with images := s.compute.images.filter fun i => !(i.tenant == tenant && i.index == index) } }

def updImage (tenant index : Nat) (g : Image → Image) (s : State) : State :=
  { s with compute := { s.compute with images := s.compute.images.map fun i =>
      if i.tenant = tenant ∧ i.index = index then g i else i } }

/-- Start a waiting command whose turn has come (R97, R101, R413, R414). -/
def startWaiting (s : State) (sl : Slot) : State :=
  match sl.sqe.body with
  | .flush => if flushPending s sl.asn (namedNs s sl.fn sl.sqe.nsid) then s else complete sl.ix stOk 0 s
  | .format lbaf =>
    let ns := namedNs s sl.fn sl.sqe.nsid
    if ioPending s sl.asn ns then s else complete sl.ix stOk 0 (ns.foldl (fun s n => formatNs n lbaf s) s)
  | .sanitize action =>
    let ns := tenantNs s sl.fn.tenant
    if ioPending s sl.asn ns then s
    else
      let s := ns.foldl (fun s n => cryptoErase n s) s
      if action = 2 then
        let s := s.setTenant sl.fn.tenant fun x => { x with sanitize := some (sl.asn, true) }
        let s := { s with media := { s.media with relocQueue := s.media.relocQueue ++ (bandsOf s ns).map Victim.band } }
        complete sl.ix stOk 0 s
      else
        let s := s.setTenant sl.fn.tenant fun x => { x with sanitized := true }
        complete sl.ix stOk 0 (ns.foldl (fun s n => s.setNs n fun x => { x with busyOp := none }) s)
  | .unloadProgram i =>
    if indexIdle s sl.fn.tenant i then complete sl.ix stOk 0 (dropImage sl.fn.tenant i s) else s
  | .activate i _ =>
    if indexIdle s sl.fn.tenant i
    then complete sl.ix stOk 0 (updImage sl.fn.tenant i (fun x => { x with active := false, deactivating := false }) s) else s
  | .slmRead .. | .slmWrite .. | .slmFill .. | .slmCopy .. => if slmMustWait s sl then s else slmRun sl s
  | _ => s

/-- A Block Erase ends when no block holds frames of the tenant's namespaces any more (R414).
DESIGN CHOICE: log entry 87. -/
def settleSanitize (s : State) : State :=
  (s.tenants.filter (·.sanitize.isSome)).foldl (fun s x =>
    let ns := tenantNs s x.num
    if (bandsOf s ns).isEmpty then
      ns.foldl (fun s n => s.setNs n fun x => { x with busyOp := none })
        (s.setTenant x.num fun x => { x with sanitize := none, sanitized := true })
    else s) s

/-- A CC.SHN request completes once the tenant's completed writes are on media (R198). DEDUCED: log entry 86. -/
def settleShutdown (s : State) : State :=
  { s with ctrls := s.ctrls.map fun c =>
      if c.shst = 1 && !(s.staged.any fun p => !p.tomb && p.committed && (tenantNs s c.fn.tenant).contains p.nsid)
      then { c with shst := 2 } else c }

/-- What follows once commands have ended: waiting commands in ASN order, shutdown requests, idleness. -/
def settle (s : State) : State :=
  let s := s.slots.foldl (fun s sl => if sl.phase = .waitEarlier then startWaiting s sl else s) s
  touchIdle (settleShutdown (settleSanitize s))

end Sys2Proof.Machine
end

