-- ==== Sys2Proof/Machine/NvmeIo.lean ====
section
/-! DEFINITION. The NVM I/O commands (file 03): the checks of Table 3.8, reading and writing in ASN order,
staging, Flush and reservations. -/

namespace Sys2Proof.Machine

/-! ### The checks of Table 3.8 (R110) -/

/-- The opcode is an admin opcode. -/
def Body.admin : Body → Bool
  | .abort .. | .aer | .createSq .. | .createCq .. | .deleteSq _ | .deleteCq _ | .setQueues .. | .setArb .. | .setWce _
  | .setPm .. | .setApst _ | .setCoal .. | .getFeatures .. | .identify .. | .getLog .. | .nsCreate .. | .nsDelete
  | .nsAttach .. | .format _ | .sanitize _ | .fwDownload .. | .fwCommit .. | .selfTest _ | .miSend | .miReceive
  | .virtMgmt .. | .mailbox .. | .loadProgram .. | .unloadProgram _ | .activate .. | .rangeSetCreate _
  | .rangeSetDelete _ => true
  | _ => false

/-- Checks 1 to 3: opcode and queue, reserved fields, features refused by R80. DESIGN CHOICE: log entry 7. -/
def checkForm (sl : Slot) : Option Status :=
  let q := sl.sqe
  let admin := Body.admin q.body
  let mailbox := match q.body with
    | .mailbox .. => true
    | _ => false
  if admin != (sl.sqid == 0) then some stOpcode
  else if q.reservedSet then some stField
  else if q.fused || q.dptr.psdt = 3 || q.asksRefused || (admin && !mailbox && q.dptr.psdt ≠ 0)
    || q.dptr.sglKeyedOrBitBucket then some stField
  else none

/-- Checks 8 to 11 on the data pointer, for a transfer of `bytes`. -/
def checkData (q : Sqe) (bytes : Nat) : Option Status :=
  if q.dptr.prpOffsetBad then some stPrpOffset
  else if q.dptr.sglTypeBad then some stSglType
  else if q.dptr.sglMalformed then some stSglSegment
  else match q.dptr.sglLength with
    | some l => if l < bytes then some stSglLength else none
    | none => none

/-- A registrant of the namespace. -/
def Resv.registered (r : Resv) (f : Fn) : Bool := r.registrants.any (·.1 == f)

/-- The command breaks a reservation held by another host (check 16; the types of NVMe Base 2.1).
PRESUMED: log entry 88. -/
def resvConflict (r : Resv) (f : Fn) (writes reads : Bool) : Bool :=
  match r.holder with
  | none => false
  | some h =>
    let mine := h == f
    let reg := r.registered f
    match r.rtype with
    | 1 => writes && !mine
    | 2 => (writes || reads) && !mine
    | 3 | 5 => writes && !reg
    | 4 | 6 => (writes || reads) && !reg
    | _ => false

/-- Bytes that a command moves and MDTS bounds (check 6). -/
def moves (n : Ns) : Body → Nat
  | .read _ c _ | .write _ c _ | .compare _ c | .verify _ c => c * lbaBytes n
  | _ => 0

/-- The data pointer of a command describes a transfer of this many bytes. -/
def transfers (n : Ns) : Body → Nat
  | .read _ c _ | .write _ c _ | .compare _ c => c * lbaBytes n
  | .dsm _ rs => 16 * rs.length
  | _ => 0

/-- All grains that a command touches. -/
def touched (n : Ns) (b : Body) : List Nat := ((Body.ranges b).flatMap fun r => grainsOf n r.1 r.2).dedup

/-! ### Format NVM and Sanitize in ASN order (R97, R399, R400) -/

/-- The tenant exists, is not being destroyed, and is exposed on the function's port (R405). -/
def exposed (s : State) (f : Fn) : Bool :=
  match s.tenant? f.tenant with
  | none => false
  | some t => t.state != .destroying && t.cfg.ports.testBit (if f.port = .b then 1 else 0)

/-- Command Prohibited by Command and Feature Lockdown (R399). -/
def stLockdown : Status := ⟨0, 0x2A, true⟩
def stInvalidFormat : Status := ⟨1, 0x0A, true⟩

/-- HOST_ADMIN of the function's tenant allows the command (R400). -/
def adminMay (s : State) (f : Fn) (bit : Nat) : Bool :=
  exposed s f && ((s.tenant? f.tenant).map fun t => t.cfg.hostAdmin.testBit bit).getD false

/-- A Format NVM or a Sanitize of one of the namespaces runs: the status that a further one meets. -/
def opRunning (s : State) (tenant : Nat) (ns : List Nat) : Option Status :=
  if ((s.tenant? tenant).bind (·.sanitize)).isSome then some stSanitize
  else (s.nss.find? fun n => ns.contains n.nsid && n.busyOp.isSome).map fun n =>
    if (n.busyOp.map (·.2)).getD false then stSanitize else stFormat

/-- The namespaces that a Format NVM or a Sanitize affects. -/
def erasedNs (s : State) (sl : Slot) : List Nat :=
  match sl.sqe.body with
  | .format _ => (namedNs s sl.fn sl.sqe.nsid).filter fun k => ((s.ns? k).map (·.tenant)) == some sl.fn.tenant
  | .sanitize _ => tenantNs s sl.fn.tenant
  | _ => []

/-- The status with which a Format NVM or a Sanitize ends at once, none when it erases: Block Erase (2) and Crypto Erase (4)
do, Overwrite is not supported (R97, R170, R400, R413, R414). -/
def eraseCheck (s : State) (sl : Slot) : Option Status :=
  let ns := erasedNs s sl
  match sl.sqe.body with
  | .format lbaf =>
    if !adminMay s sl.fn 1 then some stLockdown
    else if ns.isEmpty && sl.sqe.nsid ≠ 0xFFFFFFFF then some stNamespace
    else if lbaf > 1 then some stInvalidFormat
    else if s.media.dev == .preserve then some stProtected
    else opRunning s sl.fn.tenant ns
  | .sanitize action =>
    if !adminMay s sl.fn 2 then some stLockdown
    else if action = 1 then some stOk
    else if action ≠ 2 ∧ action ≠ 4 then some stField
    else if action = 2 && s.media.dev == .preserve then some stProtected
    else opRunning s sl.fn.tenant ns
  | _ => none

/-- A Format NVM or Sanitize of the namespace with a lower ASN has not completed: it has started, waits, or stands in its
slot and will pass its checks (check 14, R97). DEDUCED: log entry 87. -/
def busyStatus (s : State) (n : Ns) (asn : Nat) : Option Status :=
  let erases (sl : Slot) : Bool := sl.phase == .fetched && asnLt sl.asn asn && (erasedNs s sl).contains n.nsid
    && (checkForm sl).isNone && (eraseCheck s sl).isNone
  match n.busyOp, s.slots.find? erases with
  | some (a, san), fetched =>
    if asnLt a asn then some (if san then stSanitize else stFormat)
    else fetched.map fun sl => if (match sl.sqe.body with
      | .format _ => true
      | _ => false) then stFormat else stSanitize
  | none, fetched => fetched.map fun sl => if (match sl.sqe.body with
      | .format _ => true
      | _ => false) then stFormat else stSanitize

/-- The namespace's ANA group is Inaccessible for the controller (check 5, R79). -/
def inaccessible (s : State) (f : Fn) : Bool := ((s.tenant? f.tenant).map (·.state)) == some .destroying

/-- The first check of Table 3.8 that an I/O command fails, none when it passes them all. -/
def checkIo (s : State) (sl : Slot) : Option Status :=
  let q := sl.sqe
  match checkForm sl with
  | some st => some st
  | none => match s.ns? q.nsid with
    | none => some stNamespace
    | some n =>
      let isDsm := match q.body with
        | .dsm .. => true
        | _ => false
      let outside (r : Nat × Nat) : Bool := r.1 + r.2 > nsze n
      if !n.attached.contains sl.fn then some stNamespace
      else if inaccessible s sl.fn then some stInaccessible
      else if moves n q.body > 2 * 2 ^ 20 then some stField
      else if !isDsm && (Body.ranges q.body).any outside then some stLbaRange
      else match checkData q (transfers n q.body) with
        | some st => some st
        | none =>
          if isDsm && (Body.ranges q.body).any outside then some stLbaRange
          else if n.key.isNone then some stNotReady
          else
            let w := Body.writing q.body
            match busyStatus s n sl.asn with
            | some st => some st
            | none =>
              if w && s.media.dev == .preserve then some stProtected
              else if resvConflict n.resv sl.fn w (Body.reading q.body) then some stReservation
              else if w && !admits s n (chargeOf n (touched n q.body)) then some stCapacity
              else none

/-! ### Reading (R94, R95, R98) -/

/-- A read ends with Unrecovered Read Error: it is counted and recorded, and the error log names the first failing LBA
(R114, R147, R172). -/
def noteUnrecovered (ix lba : Nat) (s : State) : State :=
  match s.slot? ix with
  | none => s
  | some sl =>
    let s := { s with media := { s.media with unrecovered := s.media.unrecovered + 1 } }
    let s := rimeTen 0x0309 sevError sl.fn.tenant (le 4 sl.sqe.nsid ++ le 8 lba) s
    s.setCtrl sl.fn fun c => { c with errorLog := some (sl.sqid, sl.sqe.cid, lba, sl.sqe.nsid) }

/-- The media work of a reading command is done: a Read starts its transfer, of the LBAs below the first failing one where
one failed; the others complete (R114). -/
def readMediaDone (ix : Nat) (s : State) : State :=
  match s.slot? ix with
  | none => s
  | some sl => match sl.sqe.body, sl.lost with
    | .read slba _ _, some l =>
      noteUnrecovered ix l (s.setSlot ix fun sl => { sl with phase := .dma, data := sl.data.take (l - slba), outcome := some stUnrecovered })
    | _, some l => complete ix stUnrecovered 0 (noteUnrecovered ix l s)
    | .compare .., none => complete ix (if sl.cmp = sl.data then stOk else stCompare) 0 s
    | .verify .., none => complete ix stOk 0 s
    | _, none => s.setSlot ix fun sl => { sl with phase := .dma }

/-- The first LBA of a grain that a command reads. -/
def firstIn (n : Ns) (b : Body) (grain : Nat) : Nat := max (((Body.ranges b).head?.map (·.1)).getD 0) (grain * lbasPerGrain n)

/-- An LBA of a reading command cannot be restored: the lowest one counts (R114). -/
def loseLba (ix lba : Nat) (s : State) : State :=
  s.setSlot ix fun sl => { sl with extra := true, lost := some (min lba (sl.lost.getD lba)) }

/-- Issue the reads of a command's grains (R147, R167). -/
def issueReads (ix : Nat) (grains : List Nat) (s : State) : State :=
  match s.slot? ix with
  | none => s
  | some sl => match s.ns? sl.sqe.nsid with
    | none => s
    | some n =>
      grains.foldl (fun s g =>
        let done (s : State) : State := s.setSlot ix fun sl => { sl with reads := sl.reads.erase g }
        match runOf s g (entryOf n g) with
        | none => done s
        | some r => match askFetch (.host sl.asn n.nsid g) r (entryOf n g) s with
          | (s, .asked) => s
          | (s, .decoded) => done (s.setSlot ix fun sl => { sl with extra := true })
          | (s, .lost) => done (loseLba ix (firstIn n sl.sqe.body g) s)) s

/-- Die reads that a still-class read counts as: one within an aligned 16 KiB group, two otherwise (R59). -/
def stillDieReads (n : Ns) (slba nlb : Nat) : Nat :=
  if slba * lbaBytes n / 16384 = (slba + nlb - 1) * lbaBytes n / 16384 then 1 else 2

/-- Die reads that the device counts at the doorbell tick of a still-class read, for the other still-class reads in flight
then: those that have started, and those whose doorbell had arrived and that have not (R58, R59). -/
def stillFlying (s : State) (sl : Slot) : Nat :=
  let at_ := sl.bell.tick
  let started := s.stillLog.filter fun e => e.1 != sl.asn && e.2.1 ≤ at_ && (match e.2.2.2 with
    | none => true
    | some d => at_ < d)
  sumBy (·.2.2.1) started + sumBy (fun x => match x.sqe.body, s.ns? x.sqe.nsid with
    | .read slba nlb _, some n =>
      if n.still && !x.chosen && x.asn != sl.asn && x.bell.tick ≤ at_ then stillDieReads n slba nlb else 0
    | _, _ => 0) s.slots

/-- Still-class reads that no read with an older doorbell can count any more leave the log. -/
def purgeStill (s : State) : State :=
  let bells := (s.slots.filter (!·.chosen)).map (·.bell.tick)
    ++ s.ctrls.flatMap fun c => c.sqs.flatMap fun q => q.bells.map (·.tick)
  { s with stillLog := s.stillLog.filter fun e => match e.2.2.2 with
      | none => true
      | some d => bells.any (· < d) }

/-- The conditions of R58 held for a still-class read at its doorbell tick: those of BOUND, its length, the residence of its
map pages then, and the budget. A read that needs no die read is within the budget (R62). -/
def boundHeld (s : State) (n : Ns) (sl : Slot) (slba nlb : Nat) (dieReads : Nat) : Bool :=
  sl.bell.bound && 4096 ≤ nlb * lbaBytes n && nlb * lbaBytes n ≤ 16384
    && (pagesOf n slba nlb).all (fun p => !sl.bell.absent.contains (n.nsid, p))
    && (dieReads = 0 || stillFlying s sl + dieReads ≤ stillBudget)

/-- A reading command proceeds: its versions are chosen, and what lies on media is read (R94, R98, R131).
DESIGN CHOICE: log entry 35. -/
def startRead (ix : Nat) (s : State) : State :=
  match s.slot? ix with
  | none => s
  | some sl => match s.ns? sl.sqe.nsid, (Body.ranges sl.sqe.body).head? with
    | some n, some (slba, nlb) =>
      let unloaded := (pagesOf n slba nlb).filter (!pageResident n ·)
      if mustWait s sl.asn n.nsid [(slba, nlb)] then s.setSlot ix fun sl => { sl with phase := .waiting }
      else if !unloaded.isEmpty then askPages n.nsid unloaded (s.setSlot ix fun sl => { sl with phase := .mapWait })
      else
        let lbas := (List.range nlb).map (· + slba)
        let vs := lbas.map fun l => readVersion s n sl.asn sl.kept l
        let needs := (lbas.zip vs).filter (·.2.2)
        let grains := (needs.map fun x => grainOf n x.1).dedup
        let bad := lbas.find? fun l => s.media.damaged.contains (n.nsid, l)
        let dieReads := if grains.isEmpty then 0 else stillDieReads n slba nlb
        let held := n.still && boundHeld s n sl slba nlb dieReads
        let s := touchPages n.nsid (pagesOf n slba nlb) (s.setSlot ix fun sl => { sl with
          chosen := true, data := vs.map (·.1), reads := grains, phase := .media, bound := held, lost := bad })
        let s := if n.still then purgeStill { s with
          stillLog := s.stillLog ++ [(sl.asn, sl.bell.tick, dieReads, none)] } else s
        let s := issueReads ix grains s
        if ((s.slot? ix).map (·.reads.isEmpty)).getD false then readMediaDone ix s else s
    | _, _ => s

/-- A reading command is checked and starts. DESIGN CHOICE: log entry 35. -/
def runRead (ix : Nat) (s : State) : State :=
  match s.slot? ix with
  | none => s
  | some sl => match checkIo s sl with
    | some st => complete ix st 0 s
    | none => startRead ix s

/-- The command in a slot, fetched and not yet executed, satisfies a test. DESIGN CHOICE: log entry 7. -/
def fetched (s : State) (ix : Nat) (p : Body → Bool) : Bool :=
  match s.slot? ix with
  | none => false
  | some sl => sl.phase == .fetched && p sl.sqe.body && s.serving

/-- READ. -/
def execRead (t : Tick) (ix : Nat) (s : State) : Host.Outcome State Fault Refusal :=
  let s := s.arrive t
  .next (if fetched s ix (fun b => match b with
      | .read .. => true
      | _ => false) then settle (runRead ix s) else s)

/-- COMPARE: `data` is what the host's buffer holds. -/
def execCompare (t : Tick) (ix : Nat) (data : List (List Byte)) (s : State) : Host.Outcome State Fault Refusal :=
  let s := s.arrive t
  .next (if fetched s ix (fun b => match b with
      | .compare .. => true
      | _ => false) then settle (runRead ix (s.setSlot ix fun sl => { sl with cmp := data })) else s)

/-- VERIFY. -/
def execVerify (t : Tick) (ix : Nat) (s : State) : Host.Outcome State Fault Refusal :=
  let s := s.arrive t
  .next (if fetched s ix (fun b => match b with
      | .verify .. => true
      | _ => false) then settle (runRead ix s) else s)

/-- READ_WAIT_RELEASE: the lower-ASN writes have committed or failed (R95). -/
def execReadWaitRelease (t : Tick) (ix : Nat) (s : State) : Host.Outcome State Fault Refusal :=
  let s := s.arrive t
  .next (match s.slot? ix with
    | none => s
    | some sl => if sl.phase == .waiting && s.serving then settle (startRead ix s) else s)

/-- Count a still-class read at its completion (R62, R64, R67). DESIGN CHOICE: log entry 25. -/
def countStill (sl : Slot) (s : State) : State :=
  match s.ns? sl.sqe.nsid, sl.sqe.body with
  | some n, .read .. =>
    if !n.still then s
    else
      let t := sl.fn.tenant
      let within := sl.bound && !sl.extra
      let miss := within && s.now > sl.bell.tick + 90 * ticksPerUs
      let old := (get? t s.firn.stillReads).getD (0, 0, 0)
      let new := (old.1 + (if within then 1 else 0), old.2.1 + (if within then 0 else 1), old.2.2 + (if miss then 1 else 0))
      let s := { s with firn := { s.firn with stillReads := put t new s.firn.stillReads } }
      if miss then rimeTen 0x0105 sevWarning t
        (le 4 n.nsid ++ le 4 (2 * (s.now - sl.bell.tick)) ++ le 4 (sl.asn % 2 ^ 32)) s else s
  | _, _ => s

/-- HOST_DMA_COMPLETE: the last byte of a command's data has crossed, and its entry is posted. None stands in the host's
memory before. DESIGN CHOICE: log entry 105. -/
def execHostDmaComplete (t : Tick) (ix : Nat) (s : State) : Host.Outcome State Fault Refusal :=
  let s := s.arrive t
  .next (match s.slot? ix with
    | none => s
    | some sl =>
      if sl.phase != .dma || !s.serving then s
      else
        let s := s.emit (.hostWrite sl.fn sl.data)
        settle (complete ix (sl.outcome.getD stOk) sl.dw0 (countStill sl s)))

/-! ### Writing (R93, R99, R102) -/

/-- The pieces of R102 of a range: cut at each 256 KiB boundary of the byte address, each one commit step. -/
def piecesOf (n : Ns) (lba count : Nat) : List Piece :=
  let u := 262144 / lbaBytes n
  if count * lbaBytes n ≤ 262144 then [{ lba := lba, count := count }]
  else
    let last := (lba + count - 1) / u
    (List.range (last + 1 - lba / u)).map fun i =>
      let k := lba / u + i
      let a := max lba (k * u)
      { lba := a, count := min (lba + count) ((k + 1) * u) - a, step := i }

/-- Ranges in ascending order, those that overlap or touch joined. -/
def joinRanges (rs : List (Nat × Nat)) : List (Nat × Nat) :=
  let add (acc : List (Nat × Nat)) (r : Nat × Nat) : List (Nat × Nat) :=
    let (near, far) := acc.partition fun x => x.1 ≤ r.1 + r.2 && r.1 ≤ x.1 + x.2
    let lo := near.foldl (fun a x => min a x.1) r.1
    let hi := near.foldl (fun a x => max a (x.1 + x.2)) (r.1 + r.2)
    (far.filter (·.1 < lo)) ++ [(lo, hi - lo)] ++ far.filter (lo < ·.1)
  (rs.filter (0 < ·.2)).foldl add []

/-- The pieces of a command that writes zeros: one commit step where they cover at most 256 KiB, else one for each 256 KiB
unit that they touch, in ascending order (R102, R145). DESIGN CHOICE: log entry 36. -/
def zeroPieces (n : Ns) (ranges : List (Nat × Nat)) : List Piece :=
  let rs := joinRanges ranges
  let u := 262144 / lbaBytes n
  if sumBy (·.2) rs * lbaBytes n ≤ 262144 then rs.map fun r => { lba := r.1, count := r.2 }
  else rs.flatMap fun r =>
    (List.range ((r.1 + r.2 - 1) / u + 1 - r.1 / u)).map fun i =>
      let k := r.1 / u + i
      let a := max r.1 (k * u)
      { lba := a, count := min (r.1 + r.2) ((k + 1) * u) - a, step := k }

/-- Enter arrived pieces in the staging index: with the write cache in force a commit step takes effect once all its pieces
have arrived, after the lower steps; otherwise it waits there for its programs (R93, R99, R102). The whole grains that zeros
cover need no program (R145). -/
def landPieces (ix : Nat) (s : State) : State :=
  match s.slot? ix with
  | none => s
  | some sl => sl.pieces.foldl (fun s p =>
      match s.slot? ix, s.ns? sl.sqe.nsid, p.arrived with
      | some cur, some n, some data =>
        let lower := cur.pieces.all fun q => q.step ≥ p.step || q.committed
        let whole := cur.pieces.all fun q => q.step ≠ p.step || q.arrived.isSome
        let faulted := cur.pieces.any fun q => q.step ≤ p.step && q.faulted
        let wb := cacheInForce s sl.fn
        if faulted || p.committed || isStaged s sl.asn n.nsid p.lba then s
        else if wb && !(lower && whole) then s
        else
          let k := lbasPerGrain n
          let grains := grainsOf n p.lba p.count
          let mine := cur.charge.filter fun c => grains.contains c.1
          let s := s.setSlot ix fun c => { c with
            charge := c.charge.filter fun c => !grains.contains c.1
            pieces := c.pieces.map fun q => if q.lba = p.lba then { q with committed := wb } else q }
          let zeroes := Body.zeroing sl.sqe.body
          let gone := grains.filter fun g => zeroes && p.lba ≤ g * k && (g + 1) * k ≤ p.lba + p.count
          let q : Staged :=
            { asn := sl.asn, nsid := n.nsid, lba := p.lba, data := data, committed := wb, charge := mine, step := p.step,
              zeroes := zeroes }
          let s := { s with staged := s.staged ++ [q] }
          let s := gone.foldl (fun s g => if (mergeGrain s n q g).2.2 then encodeGrain q n g true s else s) s
          if wb then undamage n.nsid p.lba p.count s else s
      | _, _, _ => s) s

/-- Land the arrived pieces of every writing command. -/
def landAll (s : State) : State := settleWrites (s.slots.foldl (fun s sl => landPieces sl.ix s) s)

/-- An admitted writing command: its charge is taken and its pieces wait for room and data; zeros need neither (R20, R102,
R143, R145). -/
def startWrite (ix : Nat) (s : State) : State :=
  match s.slot? ix with
  | none => s
  | some sl => match s.ns? sl.sqe.nsid with
    | none => s
    | some n =>
      let charge := chargeOf n (touched n sl.sqe.body)
      let zeroes := Body.zeroing sl.sqe.body
      let ps := match sl.sqe.body with
        | .write slba nlb _ => piecesOf n slba nlb
        | b => (zeroPieces n (Body.ranges b)).map fun p => { p with
            room := true, arrived := some (List.replicate p.count (zeros (lbaBytes n))) }
      let s := takeCharge n.nsid charge (s.setSlot ix fun sl => { sl with phase := .dataIn, pieces := ps, charge := charge })
      let s := checkDevState none (touchPages n.nsid ((touched n sl.sqe.body).map pageOf).dedup s)
      if zeroes then commitReady (landPieces ix s) else grantRoom ps.length s

/-- A writing command is checked, waits for the map pages that its charge needs, and starts (R110, R131, R143). A Dataset
Management without the Deallocate attribute changes nothing. -/
def runWrite (ix : Nat) (s : State) : State :=
  match s.slot? ix with
  | none => s
  | some sl => match checkIo s sl, s.ns? sl.sqe.nsid with
    | none, some n | some ⟨0, 0x81, _⟩, some n =>
      let unloaded := ((touched n sl.sqe.body).map pageOf).dedup.filter (!pageResident n ·)
      if !Body.writing sl.sqe.body then complete ix stOk 0 s
      else if !unloaded.isEmpty then askPages n.nsid unloaded (s.setSlot ix fun sl => { sl with phase := .mapWait })
      else if (checkIo s sl).isSome then complete ix stCapacity 0 s
      else startWrite ix s
    | some st, _ => complete ix st 0 s
    | none, none => s

/-- WRITE: the command is checked, admitted and divided, and room is given in ASN order (R20, R102, R143). -/
def execWrite (t : Tick) (ix : Nat) (s : State) : Host.Outcome State Fault Refusal :=
  let s := s.arrive t
  .next (if fetched s ix (fun b => match b with
      | .write .. => true
      | _ => false) then settle (runWrite ix s) else s)

/-- STAGING_ROOM_GRANT: freed room goes to the lowest-ASN waiting piece (R20). -/
def execStagingRoomGrant (t : Tick) (s : State) : Host.Outcome State Fault Refusal :=
  let s := s.arrive t
  .next (if s.serving then grantRoom 1 s else s)

/-- WRITE_DATA_ARRIVAL: the last data byte of a piece lands in staging SRAM (R93, R102). -/
def execWriteDataArrival (t : Tick) (ix i : Nat) (data : List (List Byte)) (s : State) :
    Host.Outcome State Fault Refusal :=
  let s := s.arrive t
  .next (match s.slot? ix with
    | none => s
    | some sl => match sl.pieces[i]? with
      | none => s
      | some p =>
        -- R180: a commit in the tick in which PFAIL_N lands is kept, and the flush image takes it
        let last := s.boot.life == .running && s.pins.pfail && s.moraine.fatal.isNone && s.pfail.landedAt = s.now
          && cacheInForce s sl.fn
        if sl.phase != .dataIn || !(s.serving || last) || !p.room || p.arrived.isSome || p.faulted || data.length ≠ p.count
        then s
        else
          let s := s.setSlot ix fun sl => { sl with pieces := sl.pieces.set i { p with arrived := some data } }
          let s := settle (settleWrites (landPieces ix s))
          if s.pfail.stopped && 2 < s.pfail.step then { s with pfail := { s.pfail with step := 2 } } else s)

/-- DATA_FETCH_FAULT: the data of a piece, or the range list of a Dataset Management, cannot be fetched
(R110, R112). A Compare has no pieces, and goes on. DESIGN CHOICE: log entry 106. -/
def execDataFetchFault (t : Tick) (ix i : Nat) (s : State) : Host.Outcome State Fault Refusal :=
  let s := s.arrive t
  .next (match s.slot? ix with
    | none => s
    | some sl => match sl.sqe.body, sl.pieces[i]? with
      | .dsm .., _ | .slmWrite .., _ | .execute .., _ => if sl.phase == .fetched && s.serving then settle (complete ix stDataTransfer 0 s) else s
      | _, some p =>
        if sl.phase != .dataIn || !s.serving || p.arrived.isSome then s
        else
          let s := s.setSlot ix fun sl => { sl with pieces := sl.pieces.set i { p with faulted := true } }
          settle (settleWrites s)
      | _, none => s)

/-! ### Zeros (R145) -/

/-- WRITE_ZEROES. -/
def execWriteZeroes (t : Tick) (ix : Nat) (s : State) : Host.Outcome State Fault Refusal :=
  let s := s.arrive t
  .next (if fetched s ix (fun b => match b with
      | .writeZeroes .. => true
      | _ => false) then settle (runWrite ix s) else s)

/-- DATASET_MANAGEMENT: with the Deallocate attribute the ranges are deallocated; without it nothing is. -/
def execDatasetManagement (t : Tick) (ix : Nat) (s : State) : Host.Outcome State Fault Refusal :=
  let s := s.arrive t
  .next (if fetched s ix (fun b => match b with
      | .dsm .. => true
      | _ => false) then settle (runWrite ix s) else s)

/-! ### Flush (R101) -/

/-- The checks of Table 3.8 that apply to a command without LBAs: 1 to 5 and 14. -/
def checkNs (s : State) (sl : Slot) (nsid : Nat) : Option Status :=
  match checkForm sl, s.ns? nsid with
  | some st, _ => some st
  | none, none => some stNamespace
  | none, some n =>
    if !n.attached.contains sl.fn then some stNamespace
    else if inaccessible s sl.fn then some stInaccessible
    else busyStatus s n sl.asn

/-- FLUSH: it waits for the lower-ASN writing commands of the namespaces it names. -/
def execFlush (t : Tick) (ix : Nat) (s : State) : Host.Outcome State Fault Refusal :=
  let s := s.arrive t
  .next (match s.slot? ix with
    | none => s
    | some sl =>
      if !(fetched s ix (· == .flush)) then s
      else
        let bad := if sl.sqe.nsid = 0xFFFFFFFF
          then (match checkForm sl with
            | some st => some st
            | none => (namedNs s sl.fn sl.sqe.nsid).findSome? (checkNs s sl))
          else checkNs s sl sl.sqe.nsid
        match bad with
        | some st => settle (complete ix st 0 s)
        | none => settle (s.setSlot ix fun sl => { sl with phase := .waitEarlier }))

/-! ### Reservations (R78; the actions of NVMe Base 2.1) -/

/-- Bytes of data that a reservation command transfers from the host (NVMe Base 2.1). PRESUMED: log entry 88. -/
def resvBytes : Body → Nat
  | .resvRegister .. | .resvAcquire .. => 16
  | .resvRelease .. => 8
  | _ => 0

/-- The checks of a reservation command: 1 to 5, 8 to 11 and 14 of Table 3.8. PRESUMED: log entry 88. -/
def resvCheck (s : State) (sl : Slot) : Option Status :=
  match checkForm sl, s.ns? sl.sqe.nsid with
  | some st, _ => some st
  | none, none => some stNamespace
  | none, some n =>
    if !n.attached.contains sl.fn then some stNamespace
    else if inaccessible s sl.fn then some stInaccessible
    else match checkData sl.sqe (resvBytes sl.sqe.body) with
      | some st => some st
      | none => busyStatus s n sl.asn

/-- Carry out a reservation action: a status other than success leaves the reservation as it was. -/
def resvRun (ix : Nat) (g : Resv → Fn → Status × Resv) (s : State) : State :=
  match s.slot? ix with
  | none => s
  | some sl => match resvCheck s sl, s.ns? sl.sqe.nsid with
    | none, some n =>
      let (st, r) := g n.resv sl.fn
      complete ix st 0 (if st = stOk then s.setNs n.nsid fun n => { n with resv := r } else s)
    | some st, _ => complete ix st 0 s
    | none, none => s

/-- Register (0), unregister (1) or replace (2) a key. PRESUMED: log entry 88. -/
def resvRegister (action key newKey : Nat) (r : Resv) (f : Fn) : Status × Resv :=
  let mine := (r.registrants.find? (·.1 == f)).map (·.2)
  match action with
  | 0 => match mine with
    | none => (stOk, { r with registrants := r.registrants ++ [(f, newKey)], gen := r.gen + 1 })
    | some k => if k = newKey then (stOk, r) else (stReservation, r)
  | 1 => match mine with
    | none => (stReservation, r)
    | some k =>
      if k ≠ key then (stReservation, r)
      else
        let rest := r.registrants.filter (·.1 != f)
        let ends := r.holder == some f && (r.rtype ≤ 4 || rest.isEmpty)
        (stOk, { r with registrants := rest, gen := r.gen + 1
                        holder := if ends then none else r.holder, rtype := if ends then 0 else r.rtype })
  | 2 => match mine with
    | none => (stReservation, r)
    | some k =>
      if k ≠ key then (stReservation, r)
      else (stOk, { r with registrants := r.registrants.map (fun x => if x.1 = f then (f, newKey) else x), gen := r.gen + 1 })
  | _ => (stField, r)

/-- Acquire (0) or preempt (1, 2) a reservation. PRESUMED: log entry 88. -/
def resvAcquire (action rtype key preKey : Nat) (r : Resv) (f : Fn) : Status × Resv :=
  if rtype < 1 || rtype > 6 then (stField, r)
  else if !(r.registrants.contains (f, key)) then (stReservation, r)
  else match action with
    | 0 => match r.holder with
      | none => (stOk, { r with holder := some f, rtype := rtype })
      | some h =>
        if (h == f || (r.rtype ≥ 5 && r.registered f)) && r.rtype = rtype then (stOk, r) else (stReservation, r)
    | 1 | 2 =>
      let rest := r.registrants.filter fun x => x.1 == f || x.2 != preKey
      let holderKey := (r.holder.bind fun h => r.registrants.find? (·.1 == h)).map (·.2)
      let takes := holderKey == some preKey || (r.rtype ≥ 5 && preKey == 0)
      if r.holder.isNone && !(r.registrants.any (·.2 == preKey)) then (stReservation, r)
      else (stOk, { r with
        registrants := if r.rtype ≥ 5 && preKey = 0 then [(f, key)] else rest
        holder := if takes then some f else r.holder
        rtype := if takes then rtype else r.rtype
        gen := r.gen + 1 })
    | _ => (stField, r)

/-- Release (0) or clear (1) a reservation. PRESUMED: log entry 88. -/
def resvRelease (action rtype key : Nat) (r : Resv) (f : Fn) : Status × Resv :=
  if !(r.registrants.contains (f, key)) then (stReservation, r)
  else match action with
    | 0 =>
      if r.holder.isNone || !(r.holder == some f || (r.rtype ≥ 5 && r.registered f)) then (stOk, r)
      else if r.rtype ≠ rtype then (stField, r)
      else (stOk, { r with holder := none, rtype := 0 })
    | 1 => (stOk, { r with holder := none, rtype := 0, registrants := [], gen := r.gen + 1 })
    | _ => (stField, r)

/-- RESERVATION_REGISTER. -/
def execReservationRegister (t : Tick) (ix : Nat) (s : State) : Host.Outcome State Fault Refusal :=
  let s := s.arrive t
  .next (match s.slot? ix with
    | none => s
    | some sl => match sl.sqe.body with
      | .resvRegister a k k' =>
        if sl.phase != .fetched || !s.serving then s else settle (resvRun ix (resvRegister a k k') s)
      | _ => s)

/-- RESERVATION_ACQUIRE. -/
def execReservationAcquire (t : Tick) (ix : Nat) (s : State) : Host.Outcome State Fault Refusal :=
  let s := s.arrive t
  .next (match s.slot? ix with
    | none => s
    | some sl => match sl.sqe.body with
      | .resvAcquire a ty k p =>
        if sl.phase != .fetched || !s.serving then s else settle (resvRun ix (resvAcquire a ty k p) s)
      | _ => s)

/-- RESERVATION_RELEASE. -/
def execReservationRelease (t : Tick) (ix : Nat) (s : State) : Host.Outcome State Fault Refusal :=
  let s := s.arrive t
  .next (match s.slot? ix with
    | none => s
    | some sl => match sl.sqe.body with
      | .resvRelease a ty k =>
        if sl.phase != .fetched || !s.serving then s else settle (resvRun ix (resvRelease a ty k) s)
      | _ => s)

/-- The Reservation Status data structure of NVMe Base 2.1: generation, type, registrants. PRESUMED: log entry 88. -/
def resvReport (r : Resv) : List Byte :=
  le 4 r.gen ++ le 1 r.rtype ++ le 2 r.registrants.length ++ zeros 2 ++ le 1 1 ++ zeros 14
    ++ r.registrants.flatMap fun x =>
      le 2 (cntlid x.1) ++ le 1 (if r.holder == some x.1 || r.rtype ≥ 5 then 1 else 0) ++ zeros 5 ++ le 8 (cntlid x.1) ++ le 8 x.2

/-- RESERVATION_REPORT. -/
def execReservationReport (t : Tick) (ix : Nat) (s : State) : Host.Outcome State Fault Refusal :=
  let s := s.arrive t
  .next (match s.slot? ix with
    | none => s
    | some sl =>
      if !(fetched s ix (· == .resvReport)) then s
      else match resvCheck s sl, s.ns? sl.sqe.nsid with
        | none, some n => s.setSlot ix fun sl => { sl with phase := .dma, data := [resvReport n.resv] }
        | some st, _ => settle (complete ix st 0 s)
        | none, none => s)

end Sys2Proof.Machine
end

