-- ==== Sys2Proof/Machine/Graph.lean ====
section
/-! DEFINITION. Graph images (file 06, with the unit parameters of files 08 and 09): the header and tables,
the checks of Table 6.4, and the fields of the unit parameters. -/

namespace Sys2Proof.Machine

/-! ### The image (Tables 6.1 to 6.3) -/

/-- A node table entry (Table 6.2), with its program's PROG_ID and its parameters. -/
structure GNode where
  typ : Nat
  flags : Nat
  nin : Nat
  nout : Nat
  reps : Nat
  prog : Nat
  watchdog : Nat
  poff : Nat
  plen : Nat
  deriving DecidableEq, Repr

/-- An edge table entry (Table 6.3). -/
structure GEdge where
  src : Nat
  sport : Nat
  dst : Nat
  dport : Nat
  clog : Nat
  depth : Nat
  record : Nat
  deriving DecidableEq, Repr

def gNNodes (im : List Byte) : Nat := field im 0x06 2
def gNEdges (im : List Byte) : Nat := field im 0x08 2
def gNProgs (im : List Byte) : Nat := field im 0x0A 2
def gArgMin (im : List Byte) : Nat := field im 0x14 4

/-- Offsets of the node table, the edge table and the parameter area. -/
def gNodeAt (im : List Byte) : Nat := 0x40 + 8 * gNProgs im
def gEdgeAt (im : List Byte) : Nat := gNodeAt im + 32 * gNNodes im
def gParamAt (im : List Byte) : Nat := gEdgeAt im + 16 * gNEdges im

def gNode (im : List Byte) (i : Nat) : GNode :=
  let e := slice im (gNodeAt im + 32 * i) 32
  { typ := field e 0 1, flags := field e 1 1, nin := field e 2 1, nout := field e 3 1, reps := field e 4 1
    prog := field e 5 1, watchdog := field e 8 4, poff := field e 0xC 4, plen := field e 0x10 4 }

def gEdge (im : List Byte) (i : Nat) : GEdge :=
  let e := slice im (gEdgeAt im + 16 * i) 16
  { src := field e 0 1, sport := field e 1 1, dst := field e 2 1, dport := field e 3 1, clog := field e 4 1
    depth := field e 5 1, record := field e 6 2 }

def gNodes (im : List Byte) : List GNode := (List.range (gNNodes im)).map (gNode im)
def gEdges (im : List Byte) : List GEdge := (List.range (gNEdges im)).map (gEdge im)

/-- PROG_ID of a program table entry. -/
def gProgId (im : List Byte) (i : Nat) : Nat := field im (0x40 + 8 * i) 4

/-- The parameters of a node. -/
def gParam (im : List Byte) (n : GNode) : List Byte := slice im (gParamAt im + n.poff) n.plen

/-- The edge at an output port, and at an input port, of a node: its index. -/
def gOut (im : List Byte) (node port : Nat) : Option Nat :=
  (gEdges im).findIdx? fun e => e.src == node && e.sport == port
def gIn (im : List Byte) (node port : Nat) : Option Nat :=
  (gEdges im).findIdx? fun e => e.dst == node && e.dport == port

/-! ### Node types (Table 6.5) -/

abbrev ntMediaRead : Nat := 0x01
abbrev ntMediaXts : Nat := 0x02
abbrev ntMediaInflate : Nat := 0x03
abbrev ntHostSource : Nat := 0x04
abbrev ntSlmSource : Nat := 0x05
abbrev ntSieve : Nat := 0x10
abbrev ntFeltPack : Nat := 0x11
abbrev ntFeltUnpack : Nat := 0x12
abbrev ntTwill : Nat := 0x13
abbrev ntCipher : Nat := 0x14
abbrev ntDigest : Nat := 0x15
abbrev ntEngine : Nat := 0x20
abbrev ntFork : Nat := 0x21
abbrev ntHostSink : Nat := 0x30
abbrev ntSlmSink : Nat := 0x31
abbrev ntCountSink : Nat := 0x32

def knownTypes : List Nat :=
  [ntMediaRead, ntMediaXts, ntMediaInflate, ntHostSource, ntSlmSource, ntSieve, ntFeltPack, ntFeltUnpack, ntTwill,
   ntCipher, ntDigest, ntEngine, ntFork, ntHostSink, ntSlmSink, ntCountSink]

/-- Ports, REPLICAS and PARAM_LEN of Table 6.5: least and most of each. -/
def typeRow : Nat → (Nat × Nat) × (Nat × Nat) × Nat × (Nat × Nat)
  | 0x01 => ((0, 0), (1, 1), 1, (24, 24))
  | 0x02 => ((1, 1), (1, 1), 1, (0, 0))
  | 0x03 => ((1, 1), (1, 1), 1, (0, 0))
  | 0x04 => ((0, 0), (1, 1), 1, (8, 8))
  | 0x05 => ((0, 0), (1, 1), 1, (24, 24))
  | 0x10 => ((1, 1), (1, 2), 16, (240, 240))
  | 0x11 => ((1, 1), (1, 1), 4, (24, 24))
  | 0x12 => ((1, 1), (1, 1), 4, (24, 24))
  | 0x13 => ((1, 2), (1, 1), 1, (8, 8))
  | 0x14 => ((1, 1), (1, 1), 4, (64, 64))
  | 0x15 => ((1, 1), (0, 1), 1, (64, 64))
  | 0x20 => ((0, 4), (0, 4), 64, (0, 256))
  | 0x21 => ((1, 1), (2, 4), 1, (0, 0))
  | 0x30 => ((1, 1), (0, 0), 1, (8, 8))
  | 0x31 => ((1, 1), (0, 0), 1, (24, 24))
  | _ => ((1, 1), (0, 0), 1, (0, 0))

def inRange (r : Nat × Nat) (v : Nat) : Bool := r.1 ≤ v && v ≤ r.2

def allZero (bs : List Byte) : Bool := bs.all (· == 0)

/-! ### Sieve descriptors (R327 to R334) -/

/-- Bytes of a field of TYPE 0x01 to 0x0A, whether it is signed, and whether it is a float (Table 8.6). -/
def sieveWidth : Nat → Nat
  | 1 | 5 => 1
  | 2 | 6 => 2
  | 3 | 7 | 9 => 4
  | _ => 8
def sieveSigned (t : Nat) : Bool := 5 ≤ t && t ≤ 8
def sieveFloat (t : Nat) : Bool := t == 9 || t == 10

/-- The bits of a float field are a NaN. -/
def sieveNan (t v : Nat) : Bool :=
  if t = 9 then v / 2 ^ 23 % 256 == 255 && v % 2 ^ 23 != 0
  else t == 10 && v / 2 ^ 52 % 2048 == 2047 && v % 2 ^ 52 != 0

/-- The value of a field's bits, for comparison: floats order by sign and magnitude, with −0 equal to +0
(R329). -/
def sieveKey (t v : Nat) : Int :=
  let w := 8 * sieveWidth t
  let v := v % 2 ^ w
  if sieveFloat t then (if v ≥ 2 ^ (w - 1) then -((v - 2 ^ (w - 1) : Nat) : Int) else (v : Int))
  else if sieveSigned t && v ≥ 2 ^ (w - 1) then (v : Int) - 2 ^ w
  else (v : Int)

/-- A constant stands in 64 bits as R329 asks. -/
def sieveConstOk (t v : Nat) : Bool :=
  let w := 8 * sieveWidth t
  let low := v % 2 ^ w
  let high := v / 2 ^ w
  !sieveNan t low &&
  (if w = 64 then true
   else if sieveSigned t && low ≥ 2 ^ (w - 1) then high == 2 ^ (64 - w) - 1 else high == 0)

/-- The value of predicate operation `op` (Table 8.7). DEDUCED: log entry 59. -/
def sieveOp (t op v a b : Nat) : Bool :=
  if sieveNan t v then op == 2 || op == 8
  else
    let k := sieveKey t
    match op with
    | 1 => k v == k a
    | 2 => k v != k a
    | 3 => k v < k a
    | 4 => k v ≤ k a
    | 5 => k v > k a
    | 6 => k v ≥ k a
    | 7 => k a ≤ k v && k v ≤ k b
    | 8 => k v < k a || k v > k b
    | 9 => Nat.land v a != 0
    | 10 => Nat.land v a == a
    | 11 => Nat.land v a == 0
    | _ => false

/-- A predicate entry is valid for records of `rec` bytes. -/
def sievePredOk (rec : Nat) (e : List Byte) : Bool :=
  let off := field e 0 2
  let t := field e 2 1
  let op := field e 3 1
  let a := field e 8 8
  let b := field e 16 8
  let two := op == 7 || op == 8
  1 ≤ t && t ≤ 10 && 1 ≤ op && op ≤ 11 && field e 4 4 == 0 && off + sieveWidth t ≤ rec
    && (op ≤ 8 || t ≤ 4) && sieveConstOk t a && (if two then sieveConstOk t b && sieveKey t a ≤ sieveKey t b else b == 0)

/-- An operand byte names an existing predicate, or a tree entry below `lim` (Table 8.8). -/
def sieveOperandOk (npred lim v : Nat) : Bool :=
  v / 32 % 4 == 0 && (if v / 16 % 2 = 0 then v % 16 < npred else v % 16 < lim)

/-- A sieve descriptor obeys R327 to R333 for its edges. -/
def sieveOk (rec clogIn nout : Nat) (p : List Byte) : Bool :=
  let npred := field p 2 1
  let output := field p 3 1
  let ntree := field p 4 1
  let pred (i : Nat) : List Byte := slice p (0x10 + 24 * i) 24
  let tree (i : Nat) : List Byte := slice p (0xD0 + 4 * i) 4
  field p 0 2 == rec && rec != 0 && 1 ≤ npred && npred ≤ 8 && output ≤ 2 && ntree ≤ 7
    && allZero (slice p 6 10) && allZero (slice p 0xEC 4)
    && ((List.range 8).all fun i => if i < npred then sievePredOk rec (pred i) else allZero (pred i))
    && ((List.range 7).all fun i =>
      if i < ntree then
        let e := tree i
        (field e 0 1 == 1 || field e 0 1 == 2) && field e 1 1 == 0 && sieveOperandOk npred i (field e 2 1)
          && sieveOperandOk npred i (field e 3 1)
      else allZero (tree i))
    && sieveOperandOk npred ntree (field p 5 1)
    && (output != 1 || (rec ≤ 64 && 2 ^ clogIn ≥ 8 * rec * rec))
    && nout == (if output = 2 then 2 else 1)

/-- The value of an operand; `fuel` bounds the depth of the tree. -/
def sieveOperand (p rec : List Byte) : Nat → Nat → Bool
  | 0, _ => false
  | fuel + 1, v =>
    let raw :=
      if v / 16 % 2 = 0 then
        let e := slice p (0x10 + 24 * (v % 16)) 24
        let t := field e 2 1
        sieveOp t (field e 3 1) (field rec (field e 0 2) (sieveWidth t)) (field e 8 8 % 2 ^ (8 * sieveWidth t))
          (field e 16 8 % 2 ^ (8 * sieveWidth t))
      else
        let e := slice p (0xD0 + 4 * (v % 16)) 4
        let l := sieveOperand p rec fuel (field e 2 1)
        let r := sieveOperand p rec fuel (field e 3 1)
        if field e 0 1 = 1 then l && r else l || r
    if v ≥ 128 then !raw else raw

/-- A record matches (R331). DEDUCED: log entry 59. -/
def sieveMatch (p rec : List Byte) : Bool := sieveOperand p rec 9 (field p 5 1)

/-! ### Felt, Twill, cipher and digest parameters -/

/-- Felt node parameters (Table 8.3). -/
def feltOk (pack : Bool) (reps recOut : Nat) (p : List Byte) : Bool :=
  let fmt := field p 0 1
  let mode := field p 1 1
  let bl := field p 2 1
  let fl := field p 3 1
  let outmax := field p 8 8
  1 ≤ fmt && fmt ≤ 5 && mode ≤ 1 && (reps == 1 || mode == 1) && field p 4 4 == 0 && field p 16 8 == 0 && fl < 16
    && (if pack then
      (mode == 0 || fmt == 3 || fmt == 5) && [16, 18, 20, 22].contains bl && fl % 8 == 0 && (fl == 0 || fmt == 5)
        && outmax == 0 && recOut == 0
    else bl == 0 && fl < 8 && (fl / 4 % 2 == 1 || outmax ≥ 1))

/-- Result bytes of a digest function, none for a reserved ALG (Table 9.10). -/
def algBytes : Nat → Option Nat
  | 0x01 => some 32
  | 0x02 => some 48
  | 0x03 => some 64
  | 0x04 => some 32
  | 0x05 => some 48
  | 0x11 => some 32
  | 0x12 => some 48
  | 0x13 => some 64
  | _ => none

/-- CIPHER parameters (Table 9.5, R375, R376, R378). `sinkType` is the type of the node the output edge ends
at. -/
def cipherOk (reps clogIn clogOut sinkType : Nat) (p : List Byte) : Bool :=
  let mode := field p 0 1
  let src := field p 1 1
  let slot := field p 2 2
  let gen := field p 4 2
  let fl := field p 6 2
  let ivoff := field p 8 4
  let aad := field p 12 4
  1 ≤ mode && mode ≤ 7 && (src == 1 || src == 2) && fl ≤ 1
    && (if src = 1 then 16 ≤ slot && slot ≤ 1023 && allZero (slice p 0x10 32) else slot == 0 && gen == 0)
    && (fl == 1 || ivoff == 0) && (mode ≤ 2 || aad == 0) && (fl == 0 || allZero (slice p 0x30 16))
    && (mode > 2 || fl == 1 || field p 0x3C 4 == 0)
    && (reps == 1 || ([3, 6, 7].contains mode && clogIn == clogOut))
    && (mode != 2 || sinkType == ntHostSink || sinkType == ntSlmSink)

/-- DIGEST parameters (Table 9.11, R388). -/
def digestOk (nout clogIn clogOut : Nat) (p : List Byte) : Bool :=
  let alg := field p 0 1
  let dest := field p 1 1
  let result := field p 2 1
  let cmp := field p 3 1
  let kslot := field p 4 2
  let kgen := field p 6 2
  let outslot := field p 8 2
  let cmpoff := field p 12 4
  let pol := field p 16 8
  let hmac := alg ≥ 0x11
  match algBytes alg with
  | none => false
  | some n =>
    dest ≤ 2 && (dest != 0 || !hmac) && (dest != 1 || hmac)
      && (if dest = 0 then result ≤ 15 else result == 0)
      && (cmp == 0 || (16 ≤ cmp && cmp ≤ n)) && (dest != 2 || cmp ≥ 16)
      && (if hmac then 16 ≤ kslot && kslot ≤ 1023 else kslot == 0 && kgen == 0)
      && (if dest = 1 then 16 ≤ outslot && outslot ≤ 1023 else outslot == 0 && pol == 0)
      && field p 10 2 == 0 && (cmp != 0 || cmpoff == 0)
      && Nat.land pol (2 ^ 17 + 2 ^ 21 + 2 ^ 22 + 2 ^ 23 + 2 ^ 25) == pol && allZero (slice p 0x18 40)
      && (nout == 0 || clogIn == clogOut)

/-! ### The checks of Table 6.4 -/

/-- Check 0x01 to 0x04: the reason of the first that fails. `bytes` is what was delivered. -/
def imageForm (im : List Byte) : Option Nat :=
  let len := field im 0x0C 4
  let zeroed := im.take 0x20 ++ zeros 32 ++ im.drop 0x40
  let nodes := (List.range (gNNodes im)).map fun i => slice im (gNodeAt im + 32 * i) 32
  let edges := (List.range (gNEdges im)).map fun i => slice im (gEdgeAt im + 16 * i) 16
  if len ≠ im.length ∨ Config.digest 1 [] zeroed ≠ slice im 0x20 32 then some 0x01
  else if field im 0 4 ≠ 0x46474831 ∨ field im 4 2 ≠ 1 then some 0x02
  else if !(inRange (2, 256) (gNNodes im) && inRange (1, 1024) (gNEdges im) && gNProgs im ≤ 16
    && inRange (64, 4096) (gArgMin im) && len ≤ 2 ^ 20
    && len == gParamAt im + field im 0x10 4) then some 0x03
  else if !(field im 0x18 8 == 0 && ((List.range (gNProgs im)).all fun i => field im (0x44 + 8 * i) 4 == 0)
    && (nodes.all fun e =>
      field e 1 1 / 2 == 0 && (field e 1 1 % 2 == 0 || field e 0 1 == ntHostSink || field e 0 1 == ntSlmSink)
        && field e 6 2 == 0 && allZero (slice e 0x14 12))
    && edges.all fun e => field e 8 8 == 0) then some 0x04
  else none

/-- Check 0x05: every port is joined by exactly one edge, and every edge joins two ports. -/
def portsOk (im : List Byte) : Bool :=
  let ns := gNodes im
  let es := gEdges im
  (es.all fun e => e.src < ns.length && e.dst < ns.length && e.sport < (gNode im e.src).nout && e.dport < (gNode im e.dst).nin)
    && ((List.range ns.length).all fun i =>
      ((List.range (gNode im i).nin).all fun p => (es.filter fun e => e.dst == i && e.dport == p).length == 1)
        && (List.range (gNode im i).nout).all fun p => (es.filter fun e => e.src == i && e.sport == p).length == 1)

/-- Nodes that remain when those without an incoming edge are taken away again and again. -/
def peel (es : List GEdge) : Nat → List Nat → List Nat
  | 0, ns => ns
  | fuel + 1, ns =>
    let rest := ns.filter fun n => es.any fun e => e.dst == n && ns.contains e.src
    if rest.length = ns.length then ns else peel es fuel rest

/-- Check 0x06: no cycle. -/
def acyclic (im : List Byte) : Bool :=
  (peel (gEdges im) (gNNodes im + 1) (List.range (gNNodes im))).isEmpty

/-- The edge lies inside a media chain. -/
def chainEdge (im : List Byte) (e : GEdge) : Bool :=
  (gNode im e.src).typ == ntMediaRead || (gNode im e.src).typ == ntMediaXts

/-- Check 0x07: media chains are whole (R218). -/
def chainsOk (im : List Byte) : Bool :=
  (gEdges im).all fun e =>
    let s := (gNode im e.src).typ
    let d := (gNode im e.dst).typ
    (s == ntMediaRead) == (d == ntMediaXts) && (s == ntMediaXts) == (d == ntMediaInflate)
      && (!chainEdge im e || (e.clog == 0 && e.depth == 0 && e.record == 0))

/-- An input or output edge of a node, blank when the port has none. -/
def edgeAt (im : List Byte) (i : Option Nat) : GEdge := (i.map (gEdge im)).getD ⟨0, 0, 0, 0, 0, 0, 0⟩

/-- The parameters of a node are valid for its type (check 0x08). -/
def paramsOk (s : State) (tenant : Nat) (im : List Byte) (i : Nat) : Bool :=
  let n := gNode im i
  let p := gParam im n
  let ein := edgeAt im (gIn im i 0)
  let eout := edgeAt im (gOut im i 0)
  match n.typ with
  | 0x01 => field p 4 4 ≤ 1 && ((s.ns? (field p 0 4)).map fun x => x.tenant == tenant).getD false
  | 0x04 | 0x30 => field p 4 4 == 0
  | 0x05 | 0x31 => field p 4 4 == 0
  | 0x10 => sieveOk ein.record ein.clog n.nout p
  | 0x11 => feltOk true n.reps eout.record p
  | 0x12 => feltOk false n.reps eout.record p
  | 0x13 =>
    field p 0 4 ≤ 1 && field p 4 4 == 0 && (n.nin == 1 || field p 0 4 == 1) && eout.record == 32
      && ((List.range n.nin).all fun k => (edgeAt im (gIn im i k)).record == 32)
      && ((s.tenant? tenant).map (·.cfg.twillSlots)).getD 0 != 0
  | 0x14 => cipherOk n.reps ein.clog eout.clog (gNode im eout.dst).typ p
  | 0x15 => digestOk n.nout ein.clog eout.clog p
  | _ => true

/-- Check 0x08 for one node. -/
def nodeOk (s : State) (tenant : Nat) (im : List Byte) (i : Nat) : Bool :=
  let n := gNode im i
  let r := typeRow n.typ
  inRange r.1 n.nin && inRange r.2.1 n.nout && 1 ≤ n.reps && n.reps ≤ r.2.2.1
    && inRange r.2.2.2 n.plen && n.poff + n.plen ≤ field im 0x10 4
    && (if n.typ = ntEngine then n.prog < gNProgs im && n.watchdog ≥ 1 else n.prog == 0)
    && paramsOk s tenant im i

/-- Check 0x09 for one edge. -/
def edgeOk (im : List Byte) (e : GEdge) : Bool :=
  chainEdge im e || (inRange (8, 16) e.clog && inRange (2, 64) e.depth
    && (e.record == 0 || (inRange (16, 256) e.record && 2 ^ e.clog % e.record == 0)))

/-- A source has no input port and a sink no output port (check 0x0A). -/
def sinksOf (im : List Byte) : List Nat := (List.range (gNNodes im)).filter fun i => (gNode im i).nout == 0
def sourcesOf (im : List Byte) : List Nat := (List.range (gNNodes im)).filter fun i => (gNode im i).nin == 0

/-- The edges of a SIEVE node have one RECORD. -/
def sieveRecords (im : List Byte) : Bool :=
  (List.range (gNNodes im)).all fun i =>
    (gNode im i).typ != ntSieve ||
      (List.range (gNode im i).nout).all fun k => (edgeAt im (gOut im i k)).record == (edgeAt im (gIn im i 0)).record

/-- A tenant's installed program image. -/
def progOf (s : State) (tenant id : Nat) : Option ProgImage :=
  (s.tenant? tenant).bind fun t => t.progs.find? (·.id == id)

/-- The result of the load checks: none when the image passes; the reason with false; the index of the first
node of an unknown type with true (R216). DEDUCED: log entry 60. -/
def imageCheck (s : State) (tenant : Nat) (im : List Byte) : Option (Bool × Nat) :=
  match imageForm im with
  | some r => some (false, r)
  | none => match (gNodes im).findIdx? fun n => !knownTypes.contains n.typ with
    | some i => some (true, i)
    | none =>
      if !portsOk im then some (false, 0x05)
      else if !acyclic im then some (false, 0x06)
      else if !chainsOk im then some (false, 0x07)
      else if !(List.range (gNNodes im)).all (nodeOk s tenant im) then some (false, 0x08)
      else if !((gEdges im).all (edgeOk im) && sieveRecords im) then some (false, 0x09)
      else if (sourcesOf im).isEmpty || (sinksOf im).isEmpty || (sinksOf im).length > 16 then some (false, 0x0A)
      else if !(List.range (gNProgs im)).all (fun i => (progOf s tenant (gProgId im i)).isSome) then some (false, 0x0B)
      else none

/-! ### What a run of an image needs (R211, R234, R238) -/

/-- Ops: one per replica of each node. -/
def gOps (im : List Byte) : Nat := sumBy (·.reps) (gNodes im)

/-- Engine replicas. -/
def gEngines (im : List Byte) : Nat := sumBy (fun n => if n.typ = ntEngine then n.reps else 0) (gNodes im)

/-- A replica of this node answers chunk by chunk (R308). -/
def answersByChunk (im : List Byte) (node : Nat) : Bool :=
  let n := gNode im node
  n.typ == ntSieve || ((n.typ == ntFeltPack || n.typ == ntFeltUnpack) && field (gParam im n) 1 1 == 1)

/-- REPLICAS at the two ends of an edge. -/
def gReps (im : List Byte) (i : Nat) : Nat × Nat :=
  ((gNode im (gEdge im i).src).reps, (gNode im (gEdge im i).dst).reps)

/-- The source lanes of the edge are dealt again to destination lanes: the counts differ and are above 1, or
answers of several replicas are packed (R230, R308). -/
def redealt (im : List Byte) (i : Nat) : Bool :=
  let (m, n) := gReps im i
  m > 1 && m != n && (n > 1 || answersByChunk im (gEdge im i).src)

/-- Several source lanes are read in turn by one destination. -/
def merged (im : List Byte) (i : Nat) : Bool :=
  let (m, n) := gReps im i
  m > 1 && n == 1 && !redealt im i

/-- Lanes of an edge: source lanes with indexes from 0, and destination lanes of a redealt edge from 256
(R230). -/
def gLanes (im : List Byte) (i : Nat) : List Nat :=
  let (m, n) := gReps im i
  if chainEdge im (gEdge im i) then []
  else if redealt im i then List.range m ++ (List.range n).map (256 + ·)
  else if m = 1 then List.range n
  else List.range m

/-- The lane a source replica writes now, and the lane a destination replica reads now; `turn` is the edge's next
destination and source lane. -/
def outLane (im : List Byte) (i rep : Nat) (turn : Nat × Nat) : Nat :=
  let (m, n) := gReps im i
  if m = 1 && n > 1 then turn.1 else rep

def inLane (im : List Byte) (i rep : Nat) (turn : Nat × Nat) : Nat :=
  if merged im i then turn.2 else if redealt im i then 256 + rep else rep

/-- Bytes of cluster SRAM of one lane's buffer, and the lanes of an edge that have one. -/
def laneBytes (im : List Byte) (i : Nat) : Nat := (gEdge im i).depth * 2 ^ (gEdge im i).clog

def bufferLanes (im : List Byte) (i : Nat) : List Nat :=
  let (_, n) := gReps im i
  if redealt im i && n = 1 then (gLanes im i).filter (· < 256) else gLanes im i

end Sys2Proof.Machine
end

