-- ==== Sys2Proof/Machine/Runs.lean ====
section
/-! DEFINITION. Runs of graphs (file 06): lanes and credits, the turns of replicated nodes, media chains,
release, the ends of nodes and of runs. -/

namespace Sys2Proof.Machine

/-! ### Lanes, turns and replicas -/

def GRun.lane (r : GRun) (edge ix : Nat) : Lane :=
  (r.lanes.find? fun l => l.edge == edge && l.ix == ix).getD { edge := edge, ix := ix, credits := 0 }

def updLane (asn edge ix : Nat) (g : Lane → Lane) (s : State) : State :=
  s.setRun asn fun r => { r with lanes := r.lanes.map fun l => if l.edge = edge ∧ l.ix = ix then g l else l }

/-- The next destination and source lane of an edge. -/
def GRun.turn (r : GRun) (edge : Nat) : Nat × Nat := (get? edge r.turns).getD (0, 0)

def setTurn (asn edge : Nat) (t : Nat × Nat) (s : State) : State :=
  s.setRun asn fun r => { r with turns := put edge t r.turns }

def GRun.rep (r : GRun) (node ix : Nat) : Replica :=
  (r.replicas.find? fun x => x.node == node && x.ix == ix).getD { node := node, ix := ix }

def updRep (asn node ix : Nat) (g : Replica → Replica) (s : State) : State :=
  s.setRun asn fun r => { r with replicas := r.replicas.map fun x => if x.node = node ∧ x.ix = ix then g x else x }

/-- A replica starts, with its watchdog (R243, R250). -/
def startRep (asn node ix : Nat) (s : State) : State :=
  match s.run? asn with
  | none => s
  | some r =>
    let w := (gNode r.image node).watchdog
    updRep asn node ix (fun x => if x.state = .waiting then
        { x with
          state := .running, startedAt := some s.now
          watchdogAt := if w = 0 then none else some (s.now + w * ticksPerUs) }
      else x) s

/-! ### Use counts (Tables 6.11 and 6.12) -/

def engUse (s : State) (pos tenant : Nat) : EngUse :=
  (s.compute.engUse.find? fun u => u.pos == pos && u.tenant == tenant).getD { pos := pos, tenant := tenant }

def setEngUse (pos tenant : Nat) (g : EngUse → EngUse) (s : State) : State :=
  let us := if s.compute.engUse.any fun u => u.pos == pos && u.tenant == tenant then s.compute.engUse
    else s.compute.engUse ++ [{ pos := pos, tenant := tenant }]
  { s with compute := { s.compute with engUse := us.map fun u => if u.pos = pos ∧ u.tenant = tenant then g u else u } }

/-- A chunk of a unit class is served. Classes 0 to 7 are in the order of Table 6.12's last field. -/
def countUnit (cls tenant bytes : Nat) (s : State) : State :=
  let us := if s.compute.unitUse.any fun u => u.cls == cls && u.tenant == tenant then s.compute.unitUse
    else s.compute.unitUse ++ [{ cls := cls, tenant := tenant }]
  { s with compute := { s.compute with unitUse := us.map fun u =>
      if u.cls = cls ∧ u.tenant = tenant then { u with chunks := u.chunks + 1, bytes := u.bytes + bytes } else u } }

/-- Note how many replicas of a unit class wait: of one tenant, and of all. -/
def noteWaiting (cls tenant mine all : Nat) (s : State) : State :=
  { s with compute := { s.compute with
    unitUse := s.compute.unitUse.map fun u =>
      if u.cls = cls ∧ u.tenant = tenant then { u with waiting := max u.waiting mine } else u
    highWaiting := put cls (max ((get? cls s.compute.highWaiting).getD 0) all) s.compute.highWaiting } }

/-- Host transfers of sources and sinks, and media chains, that have a chunk to move. -/
def moversWaiting (s : State) (cls : Nat) (mine : Nat → Bool) : Nat :=
  sumBy (fun r => ((List.range (gNNodes r.image)).filter fun i =>
      let t := (gNode r.image i).typ
      let out := ((gOut r.image i 0).map fun e => !(r.lane e 0).backlog.isEmpty).getD false
      let inn := ((gIn r.image i 0).map fun e => r.lanes.any fun l => l.edge == e && !l.chunks.isEmpty).getD false
      if cls = 6 then (t == ntHostSource && out) || (t == ntHostSink && inn) else t == ntMediaInflate && out).length)
    (s.compute.runs.filter fun r => r.released.isSome && mine r.tenant)

/-- A chunk that the host DMA (class 6) or a media chain (class 7) moves is counted (Table 6.12). -/
def countMoved (typ tenant bytes : Nat) (s : State) : State :=
  let count (cls : Nat) : State :=
    noteWaiting cls tenant (moversWaiting s cls (· == tenant)) (moversWaiting s cls fun _ => true)
      (countUnit cls tenant bytes s)
  if typ = ntHostSource ∨ typ = ntHostSink then count 6 else if typ = ntMediaInflate then count 7 else s

/-- Whether a lane's source is stopped for credit (R235). -/
def Lane.stopped (l : Lane) (chunk : Nat) : Bool :=
  l.credits == 0 && (l.backlog.length ≥ chunk || (l.backlogEnd && !l.backlog.isEmpty))

/-- Keep the stall times of a run's lanes (Table 6.12). -/
def touchStalls (asn : Nat) (s : State) : State :=
  match s.run? asn with
  | none => s
  | some r =>
    let add := sumBy (fun l => match l.stalled with
      | some t => if l.stopped (2 ^ (gEdge r.image l.edge).clog) then 0 else s.now - t
      | none => 0) r.lanes
    let mark (l : Lane) : Lane :=
      if l.stopped (2 ^ (gEdge r.image l.edge).clog)
      then { l with stalled := some (l.stalled.getD s.now) } else { l with stalled := none }
    (s.setRun asn fun r => { r with lanes := r.lanes.map mark }).setCount r.tenant fun c =>
      { c with edgeStall := c.edgeStall + add }

/-! ### How a run ends (R248 to R256) -/

/-- The status of a run for a failing node (Table 6.10). DEDUCED: log entry 65. -/
def nodeOutcome : Nat → Status
  | 4 => stUnrecovered
  | 7 => stDataTransfer
  | _ => ⟨7, 0xC7, true⟩

def stGraphAborted : Status := ⟨7, 0xC8, false⟩

/-- The run report (Table 6.7). -/
def runReport (s : State) (r : GRun) (st : Status) (fail : Option (Nat × Nat × Nat)) : List Byte :=
  let rel := r.released.getD s.now
  let sinks := (sinksOf r.image).map fun i =>
    let t := (gNode r.image i).typ
    if t = ntHostSink ∨ t = ntSlmSink then (r.rep i 0).written else 0
  le 1 st.sct ++ le 1 st.sc ++ le 2 ((fail.map (·.1)).getD 0xFFFF) ++ le 1 ((fail.map (·.2.1)).getD 0)
    ++ le 1 ((fail.map (·.2.2)).getD 0) ++ zeros 2 ++ le 8 r.asn ++ le 4 ((s.now - rel) / ticksPerUs)
    ++ le 4 ((rel - r.fetchedAt) / ticksPerUs) ++ le 8 r.mediaBytes ++ le 8 r.failLba ++ le 8 r.discarded ++ zeros 16
    ++ pad 128 (sinks.flatMap fun w => le 8 w) ++ zeros 64

/-- Scrub an engine: every register, bank and instruction word is zero (R241, R251). DEDUCED: log entry 64. -/
def scrubEngine (e : Engine) : Engine :=
  { e with
    job := none, d := Vector.replicate 16 0, a := Vector.replicate 16 0, acc := Vector.replicate 4 0
    ph := 0, pl := 0, pc := 0, n := false, z := false, c := false, v := false, openMode := false, slim := 0
    loops := [], cycle := 0, flight := [], delay := none, imem := [], x := [], y := [], bad := [], trap := none
    halted := false }

/-- The dispatch at an engine position ends: its time is counted and the engine is scrubbed. -/
def endDispatch (asn node rep : Nat) (s : State) : State :=
  match s.run? asn with
  | none => s
  | some r =>
    let s := (s.compute.dispatched.filter fun d => d.2 == (asn, node, rep)).foldl (fun s d =>
      let from_ := (r.rep node rep).startedAt.getD s.now
      setEngUse d.1 r.tenant (fun u => { u with
        busy := u.busy + (s.now - from_), beat := u.beat + (s.now - max from_ s.compute.beatAt) }) s) s
    { s with
      compute := { s.compute with dispatched := s.compute.dispatched.filter fun d => d.2 != (asn, node, rep) }
      engines := s.engines.map fun e => if e.job = some (asn, node, rep) then scrubEngine e else e }

/-- Give back what a run holds: ready-list places, engines, unit contexts, claims, pins and die reads (R256). -/
def reclaimRun (asn : Nat) (s : State) : State :=
  let s := (s.compute.dispatched.filter fun d => d.2.1 == asn).foldl (fun s d => endDispatch asn d.2.2.1 d.2.2.2 s) s
  let clean (u : Unit8) : Unit8 :=
    { u with job := u.job.filter (·.asn != asn), store := u.store.filter (·.asn != asn) }
  let s := dropReads (fun u => match u with
    | .node a _ _ _ => a == asn
    | _ => false) s
  { s with
    compute := { s.compute with
      runs := s.compute.runs.filter (·.asn != asn)
      ready := s.compute.ready.map fun q => (q.1, q.2.filter (·.1 != asn)) }
    units := { s.units with
      lanes := s.units.lanes.map clean
      digests := s.units.digests.map clean
      waiting := s.units.waiting.filter (·.2.1 != asn)
      wrapped := s.units.wrapped.filter (·.2.2.asn != asn)
      felts := s.units.felts.map fun f => { f with contexts := f.contexts.filter (·.1 != asn) }
      keys := s.units.keys.map fun k => if (k.claimed.map (·.1)) = some asn then { k with claimed := none } else k }
    media := { s.media with pins := s.media.pins.filter (·.1 != asn) } }

/-- The sink of a GCM-DEC node, whose tag has not been found good, is zero-filled (R378, R379). -/
def zeroSinks (asn : Nat) (s : State) : State :=
  match s.run? asn with
  | none => s
  | some r =>
    (List.range (gNNodes r.image)).foldl (fun s i =>
      let n := gNode r.image i
      if n.typ = ntCipher && field (gParam r.image n) 0 1 = 2 && !(r.rep i 0).bulkDone then
        let k := (edgeAt r.image (gOut r.image i 0)).dst
        let p := gParam r.image (gNode r.image k)
        let s := updRep asn k 0 (fun x => { x with written := 0 }) s
        let s := if (gNode r.image k).typ = ntSlmSink then
          match s.compute.sets.find? (fun q => q.tenant == r.tenant && q.id == field r.args 8 4) with
          | none => s
          | some q =>
            let base := (q.ranges.getD (field p 0 4) (0, 0)).1 + field p 8 8
            { s with compute := { s.compute with
              slm := put r.tenant (Memory.clear ((get? r.tenant s.compute.slm).getD []) base (field p 16 8)) s.compute.slm } }
          else s
        s.emit (.sinkZero asn k)
      else s) s

/-- A run completes with a status: the report, the counts, the reclaim and the completion entry (R232, R248,
R259). DEDUCED: log entry 65. -/
def completeRun (asn : Nat) (st : Status) (fail : Option (Nat × Nat × Nat)) (report : Bool) (s : State) : State :=
  match s.run? asn with
  | none => s
  | some r =>
    let s := if report && field r.args 0 8 ≠ 0 then s.emit (.runReport asn (runReport s r st fail)) else s
    let aborted := st == stAborted || st == stGraphAborted
    let s := if r.released.isNone then s else s.setCount r.tenant fun c => { c with
      ok := c.ok + (if st = stOk then 1 else 0)
      aborted := c.aborted + (if aborted then 1 else 0)
      failed := c.failed + (if st != stOk && !aborted then 1 else 0) }
    let dw0 := match fail with
      | none => 0xFFFF
      | some f => f.1 + 2 ^ 16 * f.2.1 + 2 ^ 24 * f.2.2
    complete r.slot st dw0 (reclaimRun asn s)

/-- A node replica fails: the run stops and completes with the status of the failure (R249). -/
def failNode (asn node rep status detail : Nat) (s : State) : State :=
  match s.run? asn with
  | none => s
  | some r =>
    let s := zeroSinks asn s
    let s := s.setRun asn fun r => { r with replicas := r.replicas.map fun x =>
      if x.node = node ∧ x.ix = rep then { x with state := .ended, status := status, detail := detail }
      else if x.state = .running then { x with state := .ended, status := 8 } else x }
    let s := s.setCount r.tenant fun c => { c with
      traps := if status = 1 then bump detail 1 c.traps else c.traps
      watchdogs := c.watchdogs + (if status = 2 then 1 else 0)
      poisons := c.poisons + (if status = 3 then 1 else 0) }
    completeRun asn (nodeOutcome status) (some (node, status, detail)) true s

/-! ### Reading from lanes -/

/-- Every source lane of a merged edge has ended. -/
def mergedDone (r : GRun) (edge : Nat) : Bool :=
  (List.range (gReps r.image edge).1).all fun k =>
    let l := r.lane edge k
    l.endTaken || (l.chunks.isEmpty && l.ended)

/-- The end mark of a replica's input has arrived and every chunk before it is consumed. -/
def atEnd (r : GRun) (edge rep : Nat) : Bool :=
  if merged r.image edge then mergedDone r edge
  else
    let l := r.lane edge (inLane r.image edge rep (r.turn edge))
    l.endTaken || (l.chunks.isEmpty && l.ended)

/-- The chunk at the head of a replica's input. -/
def headChunk (r : GRun) (edge rep : Nat) : Option Chunk :=
  (r.lane edge (inLane r.image edge rep (r.turn edge))).chunks.head?

/-- The source replica behind a lane noted a failure, which takes effect now that the end mark is consumed
(R324, R393). DEDUCED: log entry 62. -/
def noteFailure (asn edge lane : Nat) (s : State) : State :=
  match s.run? asn with
  | none => s
  | some r =>
    let src := (gEdge r.image edge).src
    let m := (gReps r.image edge).1
    let suspects := r.replicas.filter fun x => x.node == src && x.failing.isSome && (m == 1 || lane ≥ 256 || x.ix == lane)
    match suspects.head? with
    | none => s
    | some x => match x.failing with
      | none => s
      | some (st, d) => failNode asn src x.ix st d s

/-- The destination consumes the end mark of its input. DEDUCED: log entry 62. -/
def takeEnd (asn edge rep : Nat) (s : State) : State :=
  match s.run? asn with
  | none => s
  | some r =>
    if merged r.image edge then
      let s := (List.range (gReps r.image edge).1).foldl (fun s k => updLane asn edge k (fun l => { l with endTaken := true }) s) s
      noteFailure asn edge 256 s
    else
      let k := inLane r.image edge rep (r.turn edge)
      noteFailure asn edge k (updLane asn edge k (fun l => { l with endTaken := true }) s)

/-- The destination has consumed its head chunk: the credit returns, and the turn of a merged edge passes
(R230, R234). DEDUCED: log entry 62. -/
def consume (asn edge rep : Nat) (s : State) : State :=
  match s.run? asn with
  | none => s
  | some r =>
    let t := r.turn edge
    let k := inLane r.image edge rep t
    let s := updLane asn edge k (fun l => { l with chunks := l.chunks.drop 1, taken := 0, credits := l.credits + 1 }) s
    if merged r.image edge then setTurn asn edge (t.1, (t.2 + 1) % (gReps r.image edge).1) s else s

/-! ### Writing to lanes -/

/-- The lane that gathers what a source replica writes. -/
def backLane (im : List Byte) (edge rep : Nat) : Nat := if (gReps im edge).1 = 1 then 0 else rep

/-- A replica writes bytes to an output port. DEDUCED: log entry 62. -/
def emitBytes (asn edge rep : Nat) (bs : List Byte) (s : State) : State :=
  match s.run? asn with
  | none => s
  | some r => updLane asn edge (backLane r.image edge rep) (fun l => { l with backlog := l.backlog ++ bs }) s

/-- A replica ends an output stream. -/
def emitEnd (asn edge rep : Nat) (s : State) : State :=
  match s.run? asn with
  | none => s
  | some r => updLane asn edge (backLane r.image edge rep) (fun l => { l with backlogEnd := true }) s

/-- A replica gives one answer (R308): packed on a redealt edge, a plain run of bytes otherwise. -/
def emitAnswer (asn edge rep : Nat) (bs : List Byte) (s : State) : State :=
  match s.run? asn with
  | none => s
  | some r =>
    if redealt r.image edge then updLane asn edge rep (fun l => { l with answers := l.answers ++ [bs] }) s
    else emitBytes asn edge rep bs s

/-- Room for an answer: the earlier answers are written to the lane's buffer (R308). -/
def answerRoom (r : GRun) (edge rep : Nat) : Bool :=
  let e := gEdge r.image edge
  if redealt r.image edge then
    sumBy (fun a => ceilDiv a.length (2 ^ e.clog)) (r.lane edge rep).answers ≤ e.depth
  else (r.lane edge (backLane r.image edge rep)).backlog.length < 2 ^ e.clog

/-- A lane has a credit that its source could spend now. -/
def hasCredit (r : GRun) (edge rep : Nat) : Bool :=
  (r.lane edge (outLane r.image edge rep (r.turn edge))).credits > 0

/-- Place one chunk on a lane (R234). DEDUCED: log entry 62. -/
def placeChunk (asn edge lane : Nat) (c : Chunk) (s : State) : State :=
  updLane asn edge lane (fun l => { l with chunks := l.chunks ++ [c], credits := l.credits - 1, ended := l.ended || c.last }) s

/-- Send what a source replica has gathered: one chunk, or the end mark, none when it cannot (R233, R234).
DEDUCED: log entry 62. -/
def pumpSource (s : State) (asn edge rep : Nat) : Option State :=
  match s.run? asn with
  | none => none
  | some r =>
    let e := gEdge r.image edge
    let size := 2 ^ e.clog
    let (m, n) := gReps r.image edge
    let b := backLane r.image edge rep
    let l := r.lane edge b
    let t := r.turn edge
    let k := outLane r.image edge rep t
    let dealt := m = 1 && n > 1
    if (redealt r.image edge && answersByChunk r.image e.src) || l.ended then none
    else if l.backlog.isEmpty then
      if !l.backlogEnd then none
      else some ((if dealt then List.range n else [b]).foldl (fun s k => updLane asn edge k (fun l => { l with ended := true }) s) s)
    else
      let last := l.backlogEnd && l.backlog.length ≤ size
      if (l.backlog.length < size && !last) || (r.lane edge k).credits = 0 then none
      else
        let c : Chunk := { bytes := l.backlog.take size, last := last }
        if e.record ≠ 0 && c.bytes.length % e.record ≠ 0 then some (failNode asn e.src rep 6 0x01 s)
        else
          let s := updLane asn edge b (fun l => { l with backlog := l.backlog.drop size }) s
          let s := countMoved (gNode r.image e.src).typ r.tenant c.bytes.length (placeChunk asn edge k c s)
          let s := if dealt then setTurn asn edge ((t.1 + 1) % n, t.2) s else s
          some (if last && dealt then (List.range n).foldl (fun s k => updLane asn edge k (fun l => { l with ended := true }) s) s else s)

/-- Pass the turn of an edge over a source lane that has ended. -/
def passEnded (asn edge : Nat) (r : GRun) (s : State) : Option State :=
  let m := (gReps r.image edge).1
  let t := r.turn edge
  let l := r.lane edge t.2
  if !(l.ended && l.chunks.isEmpty && l.answers.isEmpty) || ((List.range m).all fun k => (r.lane edge k).endTaken) then none
  else some (setTurn asn edge (t.1, (t.2 + 1) % m) (updLane asn edge t.2 (fun l => { l with endTaken := true }) s))

/-- Move one chunk or one answer of a redealt edge, or its end (R230, R308, R309). DEDUCED: log entry 62. -/
def pumpRedeal (s : State) (asn edge : Nat) : Option State :=
  match s.run? asn with
  | none => none
  | some r =>
    let e := gEdge r.image edge
    let size := 2 ^ e.clog
    let (m, n) := gReps r.image edge
    let t := r.turn edge
    let src := r.lane edge t.2
    let dst := r.lane edge (256 + t.1)
    let endAll (s : State) : State :=
      (List.range n).foldl (fun s k => updLane asn edge (256 + k) (fun l => { l with ended := true }) s) s
    let allTaken := (List.range m).all fun k => (r.lane edge k).endTaken
    if !redealt r.image edge || dst.ended then none
    else if answersByChunk r.image e.src then
      let packed := (r.lane edge 0).packed
      if packed.length ≥ size || (allTaken && !packed.isEmpty) then
        if dst.credits = 0 then none
        else
          let last := allTaken && packed.length ≤ size
          let c : Chunk := { bytes := packed.take size, last := last }
          if e.record ≠ 0 && c.bytes.length % e.record ≠ 0 then some (failNode asn e.src 0 6 0x01 s)
          else
            let s := updLane asn edge 0 (fun l => { l with packed := l.packed.drop size }) s
            let s := setTurn asn edge ((t.1 + 1) % n, t.2) (placeChunk asn edge (256 + t.1) c s)
            some (if last then endAll s else s)
      else if allTaken then some (endAll s)
      else match src.answers with
        | a :: rest =>
          let s := updLane asn edge t.2 (fun l => { l with answers := rest }) s
          let s := updLane asn edge 0 (fun l => { l with packed := l.packed ++ a }) s
          -- R324: the answers of later turns than a failing one are discarded
          if rest.isEmpty && src.ended && (r.rep e.src t.2).failing.isSome then
            some ((List.range m).foldl (fun s k => updLane asn edge k (fun l => { l with answers := [], ended := true, endTaken := true }) s) s)
          else some (setTurn asn edge (t.1, (t.2 + 1) % m) s)
        | [] =>
          if src.endTaken then some (setTurn asn edge (t.1, (t.2 + 1) % m) s) else passEnded asn edge r s
    else if allTaken then some (endAll s)
    else match src.chunks with
      | c :: _ =>
        if dst.credits = 0 then none
        else
          let s := updLane asn edge t.2 (fun l => { l with chunks := l.chunks.drop 1, credits := l.credits + 1 }) s
          let s := placeChunk asn edge (256 + t.1) { c with last := false } s
          some (setTurn asn edge ((t.1 + 1) % n, (t.2 + 1) % m) s)
      | [] => if src.endTaken then some (setTurn asn edge (t.1, (t.2 + 1) % m) s) else passEnded asn edge r s

/-- Pass the turn of a merged edge over lanes that have ended. DEDUCED: log entry 62. -/
def pumpMerge (s : State) (asn edge : Nat) : Option State :=
  match s.run? asn with
  | none => none
  | some r =>
    if !merged r.image edge || ((List.range (gReps r.image edge).1).all fun k => (r.lane edge k).endTaken) then none
    else
      let t := r.turn edge
      if (r.lane edge t.2).endTaken then some (setTurn asn edge (t.1, (t.2 + 1) % (gReps r.image edge).1) s)
      else passEnded asn edge r s

/-! ### Media chains (R219 to R223, R244) -/

/-- The MEDIA_INFLATE node of a chain and its output edge. DEDUCED: log entry 63. -/
def chainOut (im : List Byte) (node : Nat) : Nat × Nat :=
  let xts := (edgeAt im (gOut im node 0)).dst
  let inf := (edgeAt im (gOut im xts 0)).dst
  (inf, (gOut im inf 0).getD 0)

/-- Stored bytes that a chain has read or asked for and not yet consumed. DEDUCED: log entry 63. -/
def framesHeld (r : GRun) (node : Nat) : Nat := sumBy (fun f => if f.1 = node then 64 * f.2.2 else 0) r.frames

/-- The chain may hold `len` more frames (R221). DEDUCED: log entry 63. -/
def framesFit (r : GRun) (node len : Nat) : Bool := framesHeld r node + 64 * len ≤ 4 * 2 ^ 20

/-- The entry of a grain that a run must see: a pinned older one, or the map's (R244). -/
def pinnedEntry (s : State) (asn : Nat) (n : Ns) (grain : Nat) : MapEntry :=
  ((s.media.pins.find? fun p => p.1 == asn && p.2.1 == n.nsid && p.2.2.1 == grain).map (·.2.2.2)).getD (entryOf n grain)

/-- A grain's pages are asked for a MEDIA_READ node; a page that no member of its row can rebuild ends the run, and the
failing LBA is noted (R147, R222). -/
def nodeFetch (asn node nsid g lba : Nat) (m : Run) (e : MapEntry) (s : State) : State :=
  match askFetch (.node asn node nsid g) m e s with
  | (s, .asked) => s
  | (s, .decoded) => s.setRun asn fun r => { r with dieReads := r.dieReads.erase (node, g) }
  | (s, .lost) => failNode asn node 0 4 0 (s.setRun asn fun r => { r with
      failLba := lba, dieReads := r.dieReads.erase (node, g) })

/-- Translate the next grain of a chain: choose its data, free its pin, and issue its die read (R220, R221,
R244). None when it cannot. DEDUCED: log entry 63. -/
def translateGrain (s : State) (asn : Nat) (x : Nat × Nat × Nat × Nat) : Option State :=
  let (node, nsid, slba, nlb) := x
  match s.run? asn, s.ns? nsid with
  | some r, some n =>
    let pos := (get? node r.translate).getD slba
    let (_, oe) := chainOut r.image node
    if pos ≥ slba + nlb then none
    else
      let g := grainOf n pos
      let stop := min (slba + nlb) ((g + 1) * lbasPerGrain n)
      let lbas := (List.range (stop - pos)).map (pos + ·)
      if !pageResident n (pageOf g) then
        if n.loading.contains (pageOf g) then none else some (askPages nsid [pageOf g] s)
      else match lbas.find? fun l => s.media.damaged.contains (nsid, l) with
        | some _ => some (failNode asn node 0 4 0 (s.setRun asn fun r => { r with failLba := g * lbasPerGrain n }))
        | none =>
          let kept := (r.kept.filter (·.1 == nsid)).map fun k => k.2
          let vs := lbas.map fun l => readVersion s n asn kept l
          let e := pinnedEntry s asn n g
          let next (s : State) : State :=
            let s := s.setRun asn fun r => { r with
              translate := put node stop r.translate
              mediaReady := r.mediaReady ++ (lbas.zip vs).map fun v => (node, v.1, v.2.1)
              kept := r.kept.filter fun k => !(k.1 == nsid && lbas.contains k.2.1) }
            { s with media := { s.media with pins := s.media.pins.filter fun p =>
                !(p.1 == asn && p.2.1 == nsid && p.2.2.1 == g) } }
          let pinned := s.media.pins.any fun p => p.1 == asn && p.2.1 == nsid && p.2.2.1 == g
          if vs.any (·.2) || (pinned && !e.dealloc) then
            if !framesFit r node e.len then none
            else match runOf s g e with
              | none => some (next s)
              | some m =>
                let s := (next s).setRun asn fun r => { r with
                  dieReads := r.dieReads ++ [(node, g)], frames := r.frames ++ [(node, g, e.len)] }
                some (nodeFetch asn node nsid g (g * lbasPerGrain n) m e s)
          else if (r.mediaReady.any (·.1 == node)) || (r.lane oe 0).backlog.length ≥ 2 ^ (gEdge r.image oe).clog then none
          else some (next s)
  | _, _ => none

/-- Deliver the next LBA of a chain to the MEDIA_INFLATE output while it has room (R220, R221).
DEDUCED: log entry 63. -/
def deliverLba (s : State) (asn : Nat) (x : Nat × Nat × Nat × Nat) : Option State :=
  let (node, nsid, slba, nlb) := x
  match s.run? asn, s.ns? nsid with
  | some r, some n =>
    let pos := (get? node r.mediaNext).getD slba
    let (_, oe) := chainOut r.image node
    let l := r.lane oe 0
    if pos ≥ slba + nlb then (if l.backlogEnd then none else some (emitEnd asn oe 0 s))
    else
      let g := grainOf n pos
      if l.backlog.length ≥ 2 ^ (gEdge r.image oe).clog || r.dieReads.contains (node, g) then none
      else match r.mediaReady.find? fun m => m.1 == node && m.2.1 == pos with
        | none => none
        | some m =>
          let lastOfGrain := pos + 1 ≥ slba + nlb || grainOf n (pos + 1) ≠ g
          let s := s.setRun asn fun r => { r with
            mediaNext := put node (pos + 1) r.mediaNext
            mediaBytes := r.mediaBytes + m.2.2.length
            mediaReady := r.mediaReady.filter fun y => !(y.1 == node && y.2.1 == pos)
            frames := if lastOfGrain then r.frames.filter fun f => !(f.1 == node && f.2.1 == g) else r.frames }
          let s := s.setCount r.tenant fun c => { c with mediaBytes := c.mediaBytes + m.2.2.length }
          some (emitBytes asn oe 0 m.2.2 s)
  | _, _ => none

/-! ### The pump -/

/-- A node type that passes the end of its input on by itself: FORK, SIEVE, sinks. -/
def passesEnd (typ : Nat) : Bool :=
  [ntFork, ntSieve, ntHostSink, ntSlmSink, ntCountSink].contains typ

/-- A replica of such a node takes its end mark and ends its outputs. -/
def pumpEnd (s : State) (asn node rep : Nat) : Option State :=
  match s.run? asn with
  | none => none
  | some r =>
    let n := gNode r.image node
    match gIn r.image node 0 with
    | none => none
    | some e =>
      let k := inLane r.image e rep (r.turn e)
      if !passesEnd n.typ || !atEnd r e rep || (r.lane e k).endTaken && !merged r.image e
        || (merged r.image e && ((List.range (gReps r.image e).1).all fun k => (r.lane e k).endTaken)
          && (r.rep node rep).bulkDone) then none
      else
        let s := startRep asn node rep s
        let s := updRep asn node rep (fun x => { x with bulkDone := true }) (takeEnd asn e rep s)
        some ((List.range n.nout).foldl (fun s p => match gOut r.image node p with
          | none => s
          | some o =>
            if redealt r.image o then updLane asn o rep (fun l => { l with ended := true }) s
            else emitEnd asn o rep s) s)

/-- The first step of a list of steps that can be made. -/
def firstStepOf (fs : List (Unit → Option State)) : Option State := fs.findSome? fun f => f ()

/-- One step of a run's data flow. -/
def pumpOnce (s : State) (asn : Nat) : Option State :=
  match s.run? asn with
  | none => none
  | some r =>
    if r.released.isNone then none
    else
      let es := List.range (gNEdges r.image)
      let live := es.filter fun i => !(gLanes r.image i).isEmpty
      (r.reads.findSome? fun x => deliverLba s asn x)
      |>.orElse fun _ => (r.reads.findSome? fun x => translateGrain s asn x)
      |>.orElse fun _ => (live.findSome? fun i =>
        (List.range (gReps r.image i).1).findSome? fun k => pumpSource s asn i k)
      |>.orElse fun _ => (live.findSome? fun i => pumpRedeal s asn i)
      |>.orElse fun _ => (live.findSome? fun i => pumpMerge s asn i)
      |>.orElse fun _ => (r.replicas.findSome? fun x => pumpEnd s asn x.node x.ix)

/-- Steps until nothing moves. -/
def pumpN : Nat → Nat → State → State
  | 0, _, s => s
  | n + 1, asn, s => match pumpOnce s asn with
    | none => s
    | some s' => pumpN n asn s'

/-- A bound on the steps that one event can set off: credits, chunks and answers each move a few times. -/
def pumpFuel (r : GRun) : Nat :=
  16 + 8 * r.replicas.length + sumBy (fun l => 16 + 4 * (l.credits + l.chunks.length + l.answers.length) + l.backlog.length / 64) r.lanes
    + 4 * r.mediaReady.length + 256 * r.reads.length

/-- The next grain of a chain does not fit beside the frames it holds (R221). -/
def chainStopped (s : State) (r : GRun) : Bool :=
  r.reads.any fun x => match s.ns? x.2.1 with
    | none => false
    | some n =>
      let pos := (get? x.1 r.translate).getD x.2.2.1
      pos < x.2.2.1 + x.2.2.2 && framesHeld r x.1 > 0 && !framesFit r x.1 (pinnedEntry s r.asn n (grainOf n pos)).len

/-- Keep the time for which a run's chains are stopped under R221. -/
def touchChain (asn : Nat) (s : State) : State :=
  match s.run? asn with
  | none => s
  | some r =>
    let stop := chainStopped s r
    let s := match r.chainStall with
      | some t => if stop then s else s.setCount r.tenant fun c => { c with chainStall := c.chainStall + (s.now - t) }
      | none => s
    s.setRun asn fun r => { r with chainStall := if stop then some (r.chainStall.getD s.now) else none }

/-- A CIPHER or DIGEST replica has input, or the end of it, and output credit (R380). -/
def jobReady (s : State) (r : GRun) (node rep : Nat) : Bool :=
  let n := gNode r.image node
  let x := r.rep node rep
  (n.typ == ntCipher || n.typ == ntDigest) && s.serving && x.state != .ended && x.failing.isNone && x.result.isEmpty
    && (match gIn r.image node 0 with
    | none => false
    | some e =>
      let l := r.lane e (inLane r.image e rep (r.turn e))
      (headChunk r e rep).isSome || (atEnd r e rep && !l.endTaken))
    && ((List.range n.nout).filterMap (gOut r.image node)).all fun o =>
      let l := r.lane o (backLane r.image o rep)
      !l.backlogEnd && !l.ended && l.backlog.length < 2 ^ (gEdge r.image o).clog

/-- A job runs on some unit of its class. -/
def jobRuns (s : State) (asn node rep : Nat) : Bool :=
  (s.units.lanes ++ s.units.digests).any fun u => (u.job.map fun j => j.asn == asn && j.node == node && j.replica == rep).getD false

/-- Enter the jobs of a run that have become ready for a unit (R380). -/
def noteJobs (asn : Nat) (s : State) : State :=
  match s.run? asn with
  | none => s
  | some r => r.replicas.foldl (fun s x =>
      let k := ((gNode r.image x.node).typ == ntDigest, asn, x.node, x.ix)
      if jobReady s r x.node x.ix && !jobRuns s asn x.node x.ix && !s.units.waiting.contains k
      then { s with units := { s.units with waiting := s.units.waiting ++ [k] } } else s) s

/-- Let the data of a run flow (R235). -/
def pump (asn : Nat) (s : State) : State :=
  match s.run? asn with
  | none => s
  | some r => noteJobs asn (touchChain asn (touchStalls asn (pumpN (pumpFuel r) asn s)))

/-! ### Ends of replicas (R243) -/

/-- A replica has consumed the end of every input and delivered the end of every output. -/
def repDone (s : State) (r : GRun) (node rep : Nat) : Bool :=
  let n := gNode r.image node
  let ins := (List.range n.nin).filterMap (gIn r.image node)
  let outs := (List.range n.nout).filterMap (gOut r.image node)
  let inDone (e : Nat) : Bool :=
    if merged r.image e then (List.range (gReps r.image e).1).all fun k => (r.lane e k).endTaken
    else (r.lane e (inLane r.image e rep (r.turn e))).endTaken
  let outDone (o : Nat) : Bool :=
    let l := r.lane o (backLane r.image o rep)
    l.ended && (!redealt r.image o || l.answers.isEmpty)
  if n.typ = ntMediaRead ∨ n.typ = ntMediaXts then
    r.reads.all fun x =>
      let k := (edgeAt r.image (gOut r.image x.1 0)).dst
      !(x.1 == node || k == node) || (get? x.1 r.mediaNext).getD x.2.2.1 ≥ x.2.2.1 + x.2.2.2
  else if n.typ = ntMediaInflate then outs.all outDone
  else if n.typ = ntEngine then
    (s.engines.any fun e => e.job == some (r.asn, node, rep) && e.halted) && ins.all inDone && outs.all outDone
  else (r.rep node rep).failing.isNone && ins.all inDone && outs.all outDone

/-- A DIGEST replica that ends places its result: a digest register, or the slot it claimed (R390, R391).
DEDUCED: log entry 57. -/
def placeResult (asn node rep : Nat) (s : State) : State :=
  match s.run? asn with
  | none => s
  | some r =>
    let n := gNode r.image node
    let p := gParam r.image n
    let v := (r.rep node rep).result
    if n.typ ≠ ntDigest then s
    else if field p 1 1 = 0 then
      let g : DigestReg := { tenant := r.tenant, ix := field p 2 1, alg := field p 0 1, asn := asn, value := v }
      { s with units := { s.units with
        digestRegs := (s.units.digestRegs.filter fun q => !(q.tenant == g.tenant && q.ix == g.ix)) ++ [g] } }
    else if field p 1 1 = 1 then
      let pol := field p 16 8
      let fill (k : KeySlot) : KeySlot :=
        if k.claimed = some (asn, node) then
          { k with
            owner := r.tenant, valid := true, persist := pol.testBit 17, size := (v.length - 32) / 16 % 4
            uMedia := false, uEnc := pol.testBit 21, uDec := pol.testBit 22, uHmac := pol.testBit 23, uKdf := false
            exportable := pol.testBit 25, origin := 3, gen := if k.gen ≥ 65535 then 1 else k.gen + 1
            key := pad 64 v, marked := s.owner.unlocked, claimed := none }
        else k
      { s with units := { s.units with keys := s.units.keys.map fill } }
    else s

/-- A replica ends normally; with the last one the run completes (R243, R248). -/
def endReplica (asn node rep : Nat) (s : State) : State :=
  let s := placeResult asn node rep s
  let s := endDispatch asn node rep (updRep asn node rep (fun x => { x with state := .ended, status := 0 }) s)
  match s.run? asn with
  | none => s
  | some r => if r.replicas.all (·.state == .ended) then completeRun asn stOk none true s else s

end Sys2Proof.Machine
end

