-- ==== Sys2Proof/Machine/RunCtl.lean ====
section
/-! DEFINITION. Release, dispatch and end of runs (file 06, R238 to R254), and engine faults (file 12, R481 to
R488). -/

namespace Sys2Proof.Machine

/-! ### Placing a run (R236, R238, R240) -/

/-- Length of a tenant's partition in a cluster, bytes (R267). -/
def partLen (s : State) (tenant cluster : Nat) : Nat :=
  ((s.tenant? tenant).map fun t => 65536 * t.cfg.sramPart.getD cluster 0).getD 0

/-- Edge buffers of a tenant in a cluster: offset and length. -/
def buffersIn (runs : List GRun) (tenant cluster : Nat) : List (Nat × Nat) :=
  ((runs.filter (·.tenant == tenant)).flatMap (·.buffers)).filterMap fun b => if b.1 = cluster then some b.2 else none

/-- The highest offset at which a buffer fits (R267: from the top downward). DEDUCED: log entry 61. -/
def allocTop (part len : Nat) (used : List (Nat × Nat)) : Option Nat :=
  let free (o : Nat) : Bool := o + len ≤ part && used.all fun u => o + len ≤ u.1 || u.1 + u.2 ≤ o
  let cands := (part :: used.map (·.1)).filterMap fun top => if len ≤ top ∧ free (top - len) then some (top - len) else none
  cands.foldl (fun b c => some (max (b.getD 0) c)) none

/-- Allocate several buffers in one cluster. -/
def allocAll (part : Nat) : List Nat → List (Nat × Nat) → Option (List (Nat × Nat))
  | [], used => some used
  | l :: ls, used => match allocTop part l used with
    | none => none
    | some o => allocAll part ls (used ++ [(o, l)])

/-- The engine replica that a lane's buffer is placed with (R236), none when it may stand in any cluster. -/
def laneOwner (im : List Byte) (edge ix : Nat) : Option (Nat × Nat) :=
  let e := gEdge im edge
  let (m, n) := gReps im edge
  let isEng (k : Nat) : Bool := (gNode im k).typ == ntEngine
  if ix ≥ 256 then (if isEng e.dst then some (e.dst, ix - 256) else none)
  else if redealt im edge then (if isEng e.src then some (e.src, ix) else none)
  else if isEng e.dst then some (e.dst, if n = 1 then 0 else ix)
  else if isEng e.src then some (e.src, if m = 1 then 0 else ix)
  else none

/-- Buffer lengths of the lanes that belong to `owner`. -/
def ownedBuffers (im : List Byte) (owner : Option (Nat × Nat)) : List Nat :=
  (List.range (gNEdges im)).flatMap fun i =>
    ((bufferLanes im i).filter fun k => laneOwner im i k == owner).map fun _ => laneBytes im i

/-- Engine replicas of an image, in node order. -/
def engineReps (im : List Byte) : List (Nat × Nat) :=
  (List.range (gNNodes im)).flatMap fun i =>
    if (gNode im i).typ = ntEngine then (List.range (gNode im i).reps).map fun k => (i, k) else []

/-- The engine in service at a logical position. -/
def engineAt (s : State) (pos : Nat) : Option Engine :=
  s.engines.find? fun e => e.status == 0 && !e.fenced && e.pos == some pos

/-- Work assigned to an engine position. -/
def engineLoad (s : State) (pos : Nat) : Nat :=
  ((get? pos s.compute.ready).getD []).length + (s.compute.dispatched.filter (·.1 == pos)).length

/-- Choose the least loaded of the positions, the lowest on a tie (R240). DEDUCED: log entry 61. -/
def leastLoaded (load : Nat → Nat) : List Nat → Option Nat
  | [] => none
  | p :: ps => match leastLoaded load ps with
    | none => some p
    | some q => if load q < load p then some q else some p

/-- Assign the engine replicas one by one, each with its lanes' buffers in the engine's cluster.
DEDUCED: log entry 61. -/
def assignEngines (s : State) (tenant : Nat) (im : List Byte) (runs : List GRun) :
    List (Nat × Nat) → List (Nat × Nat × Nat) × List (Nat × Nat × Nat) → Option (List (Nat × Nat × Nat) × List (Nat × Nat × Nat))
  | [], acc => some acc
  | (node, rep) :: rest, (asg, bufs) =>
    let lens := ownedBuffers im (some (node, rep))
    let usedIn (c : Nat) : List (Nat × Nat) :=
      buffersIn runs tenant c ++ bufs.filterMap fun b => if b.1 = c then some b.2 else none
    let fits (p : Nat) : Bool := partLen s tenant (p / 8) > 0 && (allocAll (partLen s tenant (p / 8)) lens (usedIn (p / 8))).isSome
    let cands := (List.range 64).filter fun p => (engineAt s p).isSome && fits p
    let load (p : Nat) : Nat := engineLoad s p + (asg.filter (·.2.2 == p)).length
    match leastLoaded load cands with
    | none => none
    | some p =>
      let c := p / 8
      let before := usedIn c
      let after := (allocAll (partLen s tenant c) lens before).getD before
      assignEngines s tenant im runs rest (asg ++ [(node, rep, p)], bufs ++ (after.drop before.length).map fun b => (c, b))

/-- Place the lanes that belong to no engine replica in the first cluster with room.
DESIGN CHOICE: log entry 21, DEDUCED: log entry 61. -/
def placeFree (s : State) (tenant : Nat) (runs : List GRun) :
    List Nat → List (Nat × Nat × Nat) → Option (List (Nat × Nat × Nat))
  | [], bufs => some bufs
  | l :: ls, bufs =>
    let usedIn (c : Nat) : List (Nat × Nat) :=
      buffersIn runs tenant c ++ bufs.filterMap fun b => if b.1 = c then some b.2 else none
    match (List.range 8).findSome? fun c => (allocTop (partLen s tenant c) l (usedIn c)).map fun o => (c, o, l) with
    | none => none
    | some b => placeFree s tenant runs ls (bufs ++ [b])

/-- Engines and buffers for a run of an image beside the runs given; none when they do not fit. -/
def placeRun (s : State) (tenant : Nat) (im : List Byte) (runs : List GRun) :
    Option (List (Nat × Nat × Nat) × List (Nat × Nat × Nat)) :=
  match assignEngines s tenant im runs (engineReps im) ([], []) with
  | none => none
  | some (asg, bufs) => (placeFree s tenant runs (ownedBuffers im none) bufs).map fun b => (asg, b)

/-! ### The conditions of release (R238, R239, R246) -/

/-- Ops of a tenant's released runs that have not ended (R211). -/
def opsInFlight (s : State) (p : GRun → Bool) : Nat :=
  sumBy (fun r => (r.replicas.filter (·.state != .ended)).length) (s.compute.runs.filter fun r => r.released.isSome && p r)

/-- Engine replicas of a tenant's released runs. -/
def enginesOf (s : State) (tenant : Nat) : Nat :=
  sumBy (fun r => gEngines r.image) (s.compute.runs.filter fun r => r.released.isSome && r.tenant == tenant)

/-- The run could not be released even with no other run of its tenant in flight (R239). DEDUCED: log entry 61. -/
def neverFits (s : State) (tenant : Nat) (im : List Byte) : Bool :=
  match s.tenant? tenant with
  | none => true
  | some t =>
    let alone := { s with compute := { s.compute with ready := [], dispatched := [] } }
    gOps im > t.cfg.opQuota || gOps im > 4096 || gEngines im > t.cfg.engineQuota || (placeRun alone tenant im []).isNone

/-- Every condition of R238 but the placing. DEDUCED: log entry 61. -/
def mayRelease (s : State) (r : GRun) : Bool :=
  s.serving && s.fw.pauseSince.isNone && firnActs s == some .work && r.released.isNone && throttle s = 0
    && ((s.tenant? r.tenant).map fun t => t.state == .running && !t.draining).getD false
    && !(s.compute.runs.any fun q => q.tenant == r.tenant && q.released.isNone && asnLt q.asn r.asn)
    && !(r.reads.any fun x => mustWait s r.asn x.2.1 [(x.2.2.1, x.2.2.2)])
    && !slmWaits s r.asn r.tenant (runRanges s r)
    && gOps r.image + opsInFlight s (fun q => q.tenant == r.tenant) ≤ ((s.tenant? r.tenant).map (·.cfg.opQuota)).getD 0
    && gOps r.image + opsInFlight s (fun _ => true) ≤ 4096
    && gEngines r.image + enginesOf s r.tenant ≤ ((s.tenant? r.tenant).map (·.cfg.engineQuota)).getD 0

/-! ### Release (R240, R260) -/

/-- A failure found at release: the node, and the status of the command (R260). DEDUCED: log entry 61. -/
def releaseFault (s : State) (r : GRun) : Option (Nat × Status) :=
  r.reads.findSome? fun x => match s.ns? x.2.1 with
    | none => some (x.1, stNamespace)
    | some n =>
      if x.2.2.1 + x.2.2.2 > nsze n then some (x.1, stLbaRange)
      else if n.key.isNone then some (x.1, stNotReady) else none

/-- A unit class that a node type needs has no unit in service (R490). DEDUCED: log entry 59. -/
def classOut (s : State) (typ : Nat) : Bool :=
  match typ with
  | 0x10 => s.units.sievesOut.length ≥ 16
  | 0x11 => (s.units.felts.filter fun f => f.ix < 4 && f.inService).isEmpty
  | 0x12 | 0x03 => (s.units.felts.filter fun f => f.ix ≥ 4 && f.inService).isEmpty
  | 0x13 => !s.units.twillIn
  | 0x14 => (s.units.lanes.filter (·.inService)).isEmpty
  | 0x15 => (s.units.digests.filter (·.inService)).isEmpty
  | _ => false

/-- What HOST_SOURCE and SLM_SOURCE nodes deliver (R226). -/
def sourceBytes (s : State) (r : GRun) (node : Nat) : List Byte × Bool :=
  let n := gNode r.image node
  let p := gParam r.image n
  if n.typ = ntHostSource then
    let k := ((List.range node).filter fun i => (gNode r.image i).typ == ntHostSource).length
    (r.hostData.getD k [], false)
  else
    let base := ((runRanges s r).getD (field p 0 4) (0, 0)).1 + field p 8 8
    let len := field p 16 8
    let bad := s.compute.slmPoison.any fun q => q.1 == r.tenant && base / 64 ≤ q.2 && q.2 * 64 < base + len
    (Memory.readN ((get? r.tenant s.compute.slm).getD []) base len, bad)

/-- Sources start at release and hold their bytes for the credits they get (R226, R243). DEDUCED: log entry 61. -/
def startSources (asn : Nat) (s : State) : State :=
  match s.run? asn with
  | none => s
  | some r => (List.range (gNNodes r.image)).foldl (fun s i =>
      let t := (gNode r.image i).typ
      if t = ntHostSource ∨ t = ntSlmSource then
        match gOut r.image i 0 with
        | none => s
        | some o =>
          let (bs, poison) := sourceBytes s r i
          let s := startRep asn i 0 s
          -- R237: a poisoned line never reaches a sink
          if poison then updRep asn i 0 (fun x => { x with failing := some (3, 0) }) (emitEnd asn o 0 s)
          else emitEnd asn o 0 (emitBytes asn o 0 bs s)
      else if t = ntMediaRead then startRep asn i 0 s
      else if t = ntMediaXts ∨ t = ntMediaInflate then startRep asn i 0 s
      else s) s

/-- Note the depth of a ready list (Table 6.12). -/
def noteDepth (pos tenant : Nat) (s : State) : State :=
  let d := ((get? pos s.compute.ready).getD []).length
  setEngUse pos tenant (fun u => { u with depth := max u.depth d }) s

/-- Put a replica at the tail of a ready list. -/
def enqueue (pos asn node rep : Nat) (s : State) : State :=
  let q := (get? pos s.compute.ready).getD []
  { s with compute := { s.compute with
    ready := put pos (q ++ [(asn, node, rep)]) s.compute.ready
    headSince := if q.isEmpty then put pos s.now s.compute.headSince else s.compute.headSince } }

/-- Release a run: its ops and buffers are taken, its replicas enter their lists, its sources start (R238, R240).
DEDUCED: log entry 61. -/
def releaseRun (r : GRun) (asg : List (Nat × Nat × Nat)) (bufs : List (Nat × Nat × Nat)) (s : State) : State :=
  let im := r.image
  let reps := (List.range (gNNodes im)).flatMap fun i => (List.range (gNode im i).reps).map fun k =>
    ({ node := i, ix := k, engine := ((asg.find? fun a => a.1 == i && a.2.1 == k).map (·.2.2)) } : Replica)
  let lanes := (List.range (gNEdges im)).flatMap fun i => (gLanes im i).map fun k =>
    ({ edge := i, ix := k, credits := (gEdge im i).depth } : Lane)
  let s := s.setRun r.asn fun r => { r with
    released := some s.now, replicas := reps, lanes := lanes, buffers := bufs }
  let s := { s with slots := s.slots.map fun sl => if sl.ix = r.slot then { sl with phase := .running } else sl }
  let s := asg.foldl (fun s a => noteDepth a.2.2 r.tenant (enqueue a.2.2 r.asn a.1 a.2.1 s)) s
  let s := s.setCount r.tenant fun c => { c with
    released := c.released + 1
    highOps := max c.highOps (opsInFlight s fun q => q.tenant == r.tenant) }
  let s := { s with compute := { s.compute with highOps := max s.compute.highOps (opsInFlight s fun _ => true) } }
  match releaseFault s r with
  | some (i, st) => completeRun r.asn st (some (i, 9, 0)) true s
  | none => match (List.range (gNNodes im)).find? fun i => classOut s (gNode im i).typ with
    | some i => completeRun r.asn stInternal (some (i, 8, 0)) true s
    | none => pump r.asn (startSources r.asn s)

/-- Release a run if every condition of R238 holds now. DEDUCED: log entry 61. -/
def tryRelease (asn : Nat) (s : State) : State :=
  match s.run? asn with
  | none => s
  | some r =>
    if !mayRelease s r then s
    else match placeRun s r.tenant r.image s.compute.runs with
      | none => s
      | some (asg, bufs) => releaseRun r asg bufs s

/-- Release every held run that may go, in ASN order (R49, R238). -/
def releaseAll (s : State) : State := (s.compute.runs.filter (·.released.isNone)).foldl (fun s r => tryRelease r.asn s) s

/-- RUN_RELEASE. -/
def execRunRelease (t : Tick) (asn : Nat) (s : State) : Host.Outcome State Fault Refusal :=
  .next (settle (tryRelease asn (s.arrive t)))

/-! ### Engine faults and Calving (R481 to R485, R488) -/

/-- Party and index of a RECLAIM or UNIT_FENCED record. DEDUCED: log entry 72. -/
def Party.codes : Party → Nat × Nat
  | .engine p => (0, p)
  | .lane i => (1, i)
  | .digest i => (2, i)
  | .felt i => (3, i)
  | .sieve i => (4, i)
  | .twill => (5, 0)
  | .function f => (6, cntlid f)
  | .channel c => (7, c)
  | .pair i => (8, i)

/-- Fence a party: its record, and its holdings are due for reclaim (R488, R489). DEDUCED: log entry 72. -/
def fence (p : Party) (s : State) : State :=
  if s.repair.fenced.contains p then s
  else
    let s := { s with repair := { s.repair with
      fenced := s.repair.fenced ++ [p], reclaimDue := s.repair.reclaimDue ++ [(p, s.now)] } }
    rimeDev 0x0606 sevError false (le 1 (Party.codes p).1 ++ le 1 (Party.codes p).2) s

/-- Move a replica of a ready list to another engine in service (R240, R483). DEDUCED: log entry 71. -/
def rehome (pos : Nat) (s : State) : State :=
  let q := (get? pos s.compute.ready).getD []
  let s := { s with compute := { s.compute with ready := put pos [] s.compute.ready } }
  q.foldl (fun s x => match s.run? x.1 with
    | none => s
    | some r =>
      let cands := (List.range 64).filter fun p => p != pos && (engineAt s p).isSome && partLen s r.tenant (p / 8) > 0
      match leastLoaded (engineLoad s) cands with
      | none => enqueue pos x.1 x.2.1 x.2.2 s
      | some p => updRep x.1 x.2.1 x.2.2 (fun y => { y with engine := some p }) (enqueue p x.1 x.2.1 x.2.2 s)) s

/-- The spare engine of a cluster. DEDUCED: log entry 71. -/
def spareOf (s : State) (cluster : Nat) : Option Engine :=
  s.engines.find? fun e => e.status == 1 && e.cluster == cluster && !e.fenced

/-- An engine fault (R481, R483, R485): causes are numbered in the order of R481. DEDUCED: log entry 64. -/
def engineFault (p cause : Nat) (s : State) : State :=
  match s.engine? p with
  | none => s
  | some e =>
    if e.status = 2 then s
    else
      let spare := spareOf s e.cluster
      let s := match e.job with
        | none => s
        | some (asn, node, _) => completeRun asn stInternal (some (node, 8, 0)) true s
      let served := e.status = 0
      let s := s.setEngine p fun e => { e with
        status := 2, fenced := true, testing := false, testDue := false
        pos := if served && spare.isNone then none else e.pos }
      let s := match e.pos with
        | none => s
        | some k => rehome k s
      let s := if served && spare.isSome then { s with repair := { s.repair with calving := s.repair.calving ++ [(p, cause)] } } else s
      let s := if !served then s
        else rimeDev 0x0605 sevNotice true
          (le 1 (if spare.isSome then 0 else 2) ++ le 1 p ++ le 1 ((spare.map (·.ix)).getD 0xFF) ++ le 1 (e.pos.getD 0xFF) ++ le 1 cause) s
      fence (.engine p) s

/-! ### Dispatch (R241, R272, R273) -/

/-- The program image of an ENGINE node, as its PROG_ID names it. DEDUCED: log entry 64. -/
def nodeProg (s : State) (r : GRun) (node : Nat) : List Byte :=
  ((progOf s r.tenant (gProgId r.image (gNode r.image node).prog)).map (·.bytes)).getD []

/-- Ports of a node as the dispatch block reports them: CHUNK_LOG2 and RECORD. -/
def portFields (im : List Byte) (node : Nat) (out : Bool) (port : Nat) : Nat × Nat :=
  match if out then gOut im node port else gIn im node port with
  | none => (0, 0)
  | some i => ((gEdge im i).clog, (gEdge im i).record)

/-- The dispatch block (Table 7.4). -/
def dispatchBlock (s : State) (r : GRun) (node rep cluster : Nat) : List Byte :=
  let n := gNode r.image node
  let p := partLen s r.tenant cluster
  let low := (buffersIn s.compute.runs r.tenant cluster).foldl (fun a b => min a b.1) p
  let four (f : Nat → List Byte) : List Byte := (List.range 4).flatMap f
  le 2 rep ++ le 2 n.reps ++ le 1 n.nin ++ le 1 n.nout ++ le 2 n.plen
    ++ four (fun k => le 1 (portFields r.image node false k).1) ++ four (fun k => le 1 (portFields r.image node true k).1)
    ++ four (fun k => le 2 (portFields r.image node false k).2) ++ four (fun k => le 2 (portFields r.image node true k).2)
    ++ le 4 p ++ le 4 low ++ le 4 n.watchdog ++ zeros 20 ++ pad 256 (gParam r.image n)

/-- An engine as a dispatch starts it: scrubbed, with block, initial data and code (R241, R273).
DEDUCED: log entry 64. -/
def loadEngine (prog block : List Byte) (job : Nat × Nat × Nat) (e : Engine) : Engine :=
  let code := slice prog 0x40 (field prog 0x0C 4)
  let xi := slice prog (0x40 + field prog 0x0C 4) (field prog 0x1C 4)
  let yi := slice prog (0x40 + field prog 0x0C 4 + field prog 0x1C 4) (field prog 0x20 4)
  let e := scrubEngine e
  { e with
    job := some job
    x := Memory.writeN (Memory.writeN [] 0 block) 0x140 xi
    y := Memory.writeN [] 0 yi
    imem := Memory.writeN [] 0 code
    pc := field prog 0x10 4
    a := e.a.set 15 (BitVec.ofNat 32 (field prog 0x14 4))
    slim := BitVec.ofNat 32 (field prog 0x18 4)
    openMode := field prog 6 1 == 1 }

/-- The longest wait at the head of a list (DSP_WAITMAX). -/
def noteWait (pos tenant : Nat) (s : State) : State :=
  let w := s.now - (get? pos s.compute.headSince).getD s.now
  let s := s.setCount tenant fun c => { c with waitMax := max c.waitMax w }
  { s with compute := { s.compute with headSince := put pos s.now s.compute.headSince } }

/-- ENGINE_DISPATCH: the scrub, and the dispatch of the head of the list (R241). A scrub whose pattern test
leaves a location without a remap word is an engine fault (R472, R481). DEDUCED: log entry 64. -/
def execEngineDispatch (t : Tick) (pos : Nat) (scrubOk : Bool) (s : State) : Host.Outcome State Fault Refusal :=
  let s := s.arrive t
  .next (match engineAt s pos, (get? pos s.compute.ready).getD [] with
    | some e, (asn, node, rep) :: rest =>
      if !s.serving || e.job.isSome || e.testing then s
      else if !scrubOk then settle (engineFault e.ix 1 s)
      else match s.run? asn with
        | none => s
        | some r =>
          let s := noteWait pos r.tenant s
          let s := { s with compute := { s.compute with
            ready := put pos rest s.compute.ready
            dispatched := s.compute.dispatched ++ [(pos, asn, node, rep)] } }
          let s := setEngUse pos r.tenant (fun u => { u with dispatches := u.dispatches + 1 }) s
          let block := dispatchBlock s r node rep e.cluster
          let prog := nodeProg s r node
          -- R552: the engine takes the bank of its cluster at the start of the dispatch
          let fresh := !s.fw.microcode.contains e.cluster
          let load (e : Engine) : Engine := { loadEngine prog block (asn, node, rep) e with newMicrocode := e.newMicrocode || fresh }
          startRep asn node rep (s.setEngine e.ix load)
    | _, _ => s)

/-! ### Consumption by nodes without a command of their own (R227, R228, R234) -/

/-- Room of a sink's space, bytes (R227). -/
def sinkSpace (r : GRun) (node : Nat) : Nat :=
  let n := gNode r.image node
  let p := gParam r.image n
  if n.typ = ntHostSink then
    let off := field p 0 4
    sumBy (fun i => field r.args (off + 8 + 16 * i + 8) 4) (List.range (field r.args off 4))
  else field p 16 8

/-- A sink takes one chunk. -/
def sinkTake (asn edge node : Nat) (c : Chunk) (s : State) : State :=
  match s.run? asn with
  | none => s
  | some r =>
    let n := gNode r.image node
    let s := startRep asn node 0 s
    if n.typ = ntCountSink then
      updRep asn node 0 (fun x => { x with written := x.written + c.bytes.length }) (consume asn edge 0 s)
    else
      let s := countMoved n.typ r.tenant c.bytes.length s
      let done := (r.rep node 0).written
      let room := sinkSpace r node - done
      let data := c.bytes.take room
      let s := if data.isEmpty then s
        else if n.typ = ntHostSink then s.emit (.sinkWrite asn node data)
        else
          let p := gParam r.image n
          let base := ((runRanges s r).getD (field p 0 4) (0, 0)).1 + field p 8 8 + done
          { s with compute := { s.compute with
            slm := put r.tenant (Memory.writeN ((get? r.tenant s.compute.slm).getD []) base data) s.compute.slm
            slmPoison := s.compute.slmPoison.filter fun q =>
              !(q.1 == r.tenant && base ≤ q.2 * 64 && q.2 * 64 + 64 ≤ base + data.length) } }
      let s := s.setCount r.tenant fun k =>
        if n.typ = ntHostSink then { k with hostSink := k.hostSink + data.length } else { k with slmSink := k.slmSink + data.length }
      let s := updRep asn node 0 (fun x => { x with written := x.written + data.length }) s
      if data.length < c.bytes.length then
        if n.flags % 2 = 1 then
          (consume asn edge 0 s).setRun asn fun r => { r with discarded := r.discarded + (c.bytes.length - data.length) }
        else failNode asn node 0 5 0 s
      else consume asn edge 0 s

/-- CREDIT_RETURN: a sink or FORK consumes the chunk at the head of its input, and its credit returns. The other
node types consume their chunks within their own commands. DEDUCED: log entry 62. -/
def execCreditReturn (t : Tick) (asn edge lane : Nat) (s : State) : Host.Outcome State Fault Refusal :=
  let s := s.arrive t
  .next (match s.run? asn with
    | none => s
    | some r =>
      if !s.serving || edge ≥ gNEdges r.image then s
      else
        let node := (gEdge r.image edge).dst
        let typ := (gNode r.image node).typ
        if inLane r.image edge 0 (r.turn edge) ≠ lane then s
        else match headChunk r edge 0 with
          | none => s
          | some c =>
            if !c.poison.isEmpty then (if passesEnd typ && typ != ntSieve then settle (failNode asn node 0 3 0 s) else s)
            else if typ = ntHostSink ∨ typ = ntSlmSink ∨ typ = ntCountSink then settle (pump asn (sinkTake asn edge node c s))
            else if typ = ntFork then
              let outs := (List.range (gNode r.image node).nout).filterMap (gOut r.image node)
              if !outs.all fun o => hasCredit r o 0 && (r.lane o 0).backlog.isEmpty then s
              else
                let s := startRep asn node 0 s
                settle (pump asn (consume asn edge 0 (outs.foldl (fun s o => emitBytes asn o 0 c.bytes s) s)))
            else s)

/-! ### Ends (R243, R249, R250, R253) -/

/-- A failure of a lower node of the same run that lands in this tick and is still waiting: that node is the one reported
(R249). DEDUCED: log entry 65. -/
def lowerFails (s : State) (asn node : Nat) : Bool :=
  s.pending.any fun c => match c with
    | .nodeEnd t a n _ st _ => a == asn && decide (n < node) && st != 0 && decide (t ≤ s.now)
    | .nodeWatchdog t a n k => a == asn && decide (n < node) && decide (t ≤ s.now)
        && (((s.run? asn).bind fun r => (r.rep n k).watchdogAt).map fun d => decide (d ≤ s.now)).getD false
    | _ => false

/-- NODE_END: a replica that has done all its work ends normally; a host transfer of a source or sink that failed,
or a poisoned word, ends it with that status (R237, R243, Table 6.9). DEDUCED: log entry 62. -/
def execNodeEnd (t : Tick) (asn node rep status detail : Nat) (s : State) : Host.Outcome State Fault Refusal :=
  let s := s.arrive t
  .next (match s.run? asn with
    | none => s
    | some r =>
      let x := r.rep node rep
      let typ := (gNode r.image node).typ
      if !s.serving || r.released.isNone || x.state == .ended || node ≥ gNNodes r.image then s
      else if status ≠ 0 && lowerFails s asn node then s
      else if status = 0 then (if repDone s r node rep then settle (endReplica asn node rep s) else s)
      else if status = 7 ∧ (typ = ntHostSource ∨ typ = ntHostSink) then settle (failNode asn node rep 7 0 s)
      else if status = 3 ∧ typ ≠ ntEngine then settle (failNode asn node rep 3 0 s)
      else if x.failing = some (status, detail) ∧ (gNode r.image node).nout = 0 then settle (failNode asn node rep status detail s)
      else s)

/-- An ENGINE replica traps: the record, and the end of the run (R251, R305, R306). -/
def engineTrap (asn node rep cause pc addr : Nat) (s : State) : State :=
  match s.run? asn with
  | none => s
  | some r =>
    let s := rimeTen 0x0401 sevWarning r.tenant (le 1 node ++ le 1 rep ++ le 1 cause ++ zeros 1 ++ le 4 pc ++ le 4 addr) s
    failNode asn node rep 1 cause s

/-- A normal end of the replica that waits. DEDUCED: log entry 62. -/
def nodeEndEvent (asn node rep : Nat) : Instr → Option Tick
  | .nodeEnd t a n r st _ => if a = asn ∧ n = node ∧ r = rep ∧ st = 0 then some t else none
  | _ => none

/-- NODE_WATCHDOG: a watchdog expires (R250, R307). DEDUCED: log entry 65. -/
def execNodeWatchdog (t : Tick) (asn node rep : Nat) (s : State) : Host.Outcome State Fault Refusal :=
  let s := s.arrive t
  .next (match s.run? asn with
    | none => s
    | some r =>
      let x := r.rep node rep
      match x.watchdogAt with
      | none => s
      | some d =>
        if s.pfail.stopped || x.state != .running || !s.expired d || lowerFails s asn node
          || (s.awaited (nodeEndEvent asn node rep) d && repDone s r node rep) then s
        else if (gNode r.image node).typ = ntEngine then
          let pc := ((s.engines.find? fun e => e.job == some (asn, node, rep)).map (·.pc)).getD 0
          settle (engineTrap asn node rep 0x08 pc 0 s)
        else settle (failNode asn node rep 2 0 s))

/-- TENANT_STOP_GRACE_EXPIRY: the runs still going end with Graph Aborted and no failing node (R253).
DEDUCED: log entry 65. -/
def execTenantStopGraceExpiry (t : Tick) (tenant : Nat) (s : State) : Host.Outcome State Fault Refusal :=
  let s := s.arrive t
  .next (match s.tenant? tenant with
    | none => s
    | some x => match x.graceAt with
      | none => s
      | some d =>
        if s.pfail.stopped || !s.expired d then s
        else
          let rs := s.compute.runs.filter fun r => r.tenant == tenant && r.released.isSome
          let s := s.setTenant tenant fun x => { x with graceAt := none }
          settle (rs.foldl (fun s r => completeRun r.asn stGraphAborted none true s) s))

end Sys2Proof.Machine
end

