-- ==== Sys2Proof/Machine/Compute.lean ====
section
/-! DEFINITION. The commands of the Computational Programs and Subsystem Local Memory command sets (file 06,
R257, Table 6.16), and log page 0xC5. -/

namespace Sys2Proof.Machine

/-- NSIDs of a tenant's compute and memory namespaces: the spec gives none, the model lets them follow the
NVM namespaces. -/
def computeNsid (tenant : Nat) : Nat := 0x10000 + 2 * tenant
def memoryNsid (tenant : Nat) : Nat := 0x10001 + 2 * tenant

def tenantCfg (s : State) (t : Nat) : TenRec := ((s.tenant? t).map (·.cfg)).getD (TenRec.blank t)

/-- Checks 1 to 5 of Table 3.8 for a command of these sets, with the data checks for `bytes`; their namespaces are active
only where CC.CSS enables all command sets (R257). -/
def computeCheck (s : State) (sl : Slot) (nsid bytes : Nat) : Option Status :=
  match checkForm sl with
  | some st => some st
  | none =>
    if ((s.ctrl? sl.fn).map (·.css)) ≠ some 6 ∨ sl.sqe.nsid ≠ nsid ∨ (nsid = memoryNsid sl.fn.tenant ∧ (tenantCfg s sl.fn.tenant).slmSize = 0) then some stNamespace
    else if ((s.tenant? sl.fn.tenant).map (·.state)) == some .destroying then some stInaccessible
    else checkData sl.sqe bytes

def stImageInvalid : Status := ⟨7, 0xC0, true⟩
def stNodeType : Status := ⟨7, 0xC1, true⟩
def stImageLimit : Status := ⟨7, 0xC2, false⟩
def stProgIndex : Status := ⟨7, 0xC3, true⟩
def stProgInactive : Status := ⟨7, 0xC4, true⟩
def stQuota : Status := ⟨7, 0xC5, true⟩
def stArgument : Status := ⟨7, 0xC6, true⟩
def stProgMissing : Status := ⟨7, 0xC9, true⟩

def image? (s : State) (tenant index : Nat) : Option Image :=
  s.compute.images.find? fun i => i.tenant == tenant && i.index == index

/-- The images of a tenant. -/
def imagesOf (s : State) (tenant : Nat) : List Image := s.compute.images.filter (·.tenant == tenant)

/-- The lowest free program index of a tenant. DEDUCED: log entry 60. -/
def freeIndex (s : State) (tenant : Nat) : Nat :=
  ((List.range ((imagesOf s tenant).length + 1)).find? fun k => (image? s tenant k).isNone).getD 0

/-- LOAD_PROGRAM (R216, R257). DEDUCED: log entry 60. -/
def execLoadProgram (t : Tick) (ix : Nat) (s : State) : Host.Outcome State Fault Refusal :=
  let s := s.arrive t
  .next (match s.slot? ix with
    | none => s
    | some sl => match sl.sqe.body with
      | .loadProgram vendor im =>
        if sl.phase != .fetched || !s.serving then s
        else
          let tn := sl.fn.tenant
          let cfg := tenantCfg s tn
          settle (match computeCheck s sl (computeNsid tn) im.length with
            | some st => complete ix st 0 s
            | none =>
              if !vendor || im.length > 2 ^ 20 then complete ix stField 0 s
              else match imageCheck s tn im with
                | some (true, i) => complete ix stNodeType i s
                | some (false, r) => complete ix stImageInvalid r s
                | none =>
                  if cfg.opQuota = 0 || (imagesOf s tn).length ≥ cfg.imageQuota || s.compute.images.length ≥ 1024
                  then complete ix stImageLimit 0 s
                  else
                    let k := freeIndex s tn
                    let s := { s with compute := { s.compute with
                      images := s.compute.images ++ [{ tenant := tn, index := k, bytes := im }] } }
                    complete ix stOk k s)
      | _ => s)

/-- PROGRAM_UNLOAD: the image goes once no run of the index is held or in flight. DEDUCED: log entry 60. -/
def execProgramUnload (t : Tick) (ix : Nat) (s : State) : Host.Outcome State Fault Refusal :=
  let s := s.arrive t
  .next (match s.slot? ix with
    | none => s
    | some sl => match sl.sqe.body with
      | .unloadProgram k =>
        if sl.phase != .fetched || !s.serving then s
        else
          let tn := sl.fn.tenant
          settle (match computeCheck s sl (computeNsid tn) 0 with
            | some st => complete ix st 0 s
            | none =>
              if (image? s tn k).isNone then complete ix stProgIndex 0 s
              else (updImage tn k (fun i => { i with unloading := true }) s).setSlot ix fun x => { x with phase := .waitEarlier })
      | _ => s)

/-- PROGRAM_ACTIVATION_MANAGEMENT. DEDUCED: log entry 60. -/
def execProgramActivationManagement (t : Tick) (ix : Nat) (s : State) : Host.Outcome State Fault Refusal :=
  let s := s.arrive t
  .next (match s.slot? ix with
    | none => s
    | some sl => match sl.sqe.body with
      | .activate k on =>
        if sl.phase != .fetched || !s.serving then s
        else
          let tn := sl.fn.tenant
          settle (match computeCheck s sl (computeNsid tn) 0 with
            | some st => complete ix st 0 s
            | none =>
              if (image? s tn k).isNone then complete ix stProgIndex 0 s
              else if on then complete ix stOk 0 (updImage tn k (fun i => { i with active := true }) s)
              else (updImage tn k (fun i => { i with deactivating := true }) s).setSlot ix fun x => { x with phase := .waitEarlier })
      | _ => s)

/-! ### Execute Program (R224 to R231, R260) -/

/-- A range list in the argument block is well formed (R224). -/
def rangeListOk (args : List Byte) (off : Nat) : Bool :=
  let k := field args off 4
  off + 8 ≤ args.length && 1 ≤ k && k ≤ 64 && field args (off + 4) 4 == 0 && off + 8 + 16 * k ≤ args.length
    && (List.range k).all fun i => field args (off + 16 + 16 * i) 4 ≥ 1 && field args (off + 20 + 16 * i) 4 == 0

/-- What one node asks of the argument block holds (Table 6.10, Argument Invalid). DEDUCED: log entry 60. -/
def nodeArgsOk (s : State) (tenant : Nat) (im args : List Byte) (i : Nat) : Bool :=
  let n := gNode im i
  let p := gParam im n
  let inside (o k : Nat) : Bool := o + k ≤ args.length
  let set := s.compute.sets.find? fun q => q.tenant == tenant && q.id == field args 8 4
  match n.typ with
  | 0x01 => field p 4 4 == 0 || (inside (field p 8 8) 8 && inside (field p 16 8) 8)
  | 0x04 | 0x30 => rangeListOk args (field p 0 4)
  | 0x05 | 0x31 => match set with
    | none => false
    | some q => match q.ranges[field p 0 4]? with
      | none => false
      | some r => field p 8 8 + field p 16 8 ≤ r.2
  | 0x12 => field p 3 1 / 4 % 2 == 0 || (inside (field p 8 8) 8 && field args (field p 8 8) 8 ≥ 1)
  | 0x14 => field p 6 2 == 0 || (inside (field p 8 4) 16 && (field p 0 1 > 2 || field args (field p 8 4 + 12) 4 == 0))
  | 0x15 => inside (field p 12 4) (field p 3 1)
  | _ => true

/-- The argument block is valid for an image (R231). DEDUCED: log entry 60. -/
def argsOk (s : State) (tenant : Nat) (im args : List Byte) : Bool :=
  gArgMin im ≤ args.length && args.length ≤ 4096 && field args 0 8 % 256 == 0 && allZero (slice args 0xC 52)
    && (field args 8 4 == 0xFFFFFFFF || s.compute.sets.any fun q => q.tenant == tenant && q.id == field args 8 4)
    && (List.range (gNNodes im)).all (nodeArgsOk s tenant im args)

/-- The ranges that MEDIA_READ nodes read (R219). -/
def mediaRanges (im args : List Byte) : List (Nat × Nat × Nat × Nat) :=
  (List.range (gNNodes im)).filterMap fun i =>
    let n := gNode im i
    if n.typ ≠ ntMediaRead then none
    else
      let p := gParam im n
      let v (o : Nat) : Nat := if field p 4 4 = 1 then field args (field p o 8) 8 else field p o 8
      some (i, field p 0 4, v 8, v 16)

/-- EXECUTE_PROGRAM: the argument block is copied and the run is held; in a WORK window it may be released in
the same tick (R49, R231, R238, R239). DEDUCED: log entry 60. -/
def execExecuteProgram (t : Tick) (ix : Nat) (s : State) : Host.Outcome State Fault Refusal :=
  let s := s.arrive t
  .next (match s.slot? ix with
    | none => s
    | some sl => match sl.sqe.body with
      | .execute k args hostData =>
        if sl.phase != .fetched || !s.serving then s
        else
          let tn := sl.fn.tenant
          settle (match computeCheck s sl (computeNsid tn) args.length with
            | some st => complete ix st 0xFFFF s
            | none => match image? s tn k with
              | none => complete ix stProgIndex 0xFFFF s
              | some i =>
                let progsThere := (List.range (gNProgs i.bytes)).all fun q => (progOf s tn (gProgId i.bytes q)).isSome
                if !i.active || i.deactivating || i.unloading then complete ix stProgInactive 0xFFFF s
                else if !argsOk s tn i.bytes args then complete ix stArgument 0xFFFF s
                else if !progsThere then complete ix stProgMissing 0xFFFF s
                else
                  let r : GRun :=
                    { asn := sl.asn, tenant := tn, slot := ix, fn := sl.fn, index := k, image := i.bytes, args := args
                      hostData := hostData, fetchedAt := s.now
                      reads := mediaRanges i.bytes args }
                  let s := { s with compute := { s.compute with runs := s.compute.runs ++ [r] } }
                  if neverFits s tn i.bytes then completeRun sl.asn stQuota none true s
                  else tryRelease sl.asn (s.setSlot ix fun x => { x with phase := .held }))
      | _ => s)

/-- MEMORY_RANGE_SET_MANAGEMENT (R257): which free identifier a set gets is a free value. DESIGN CHOICE: log entry 103. -/
def execMemoryRangeSetManagement (t : Tick) (ix : Nat) (s : State) : Host.Outcome State Fault Refusal :=
  let s := s.arrive t
  .next (match s.slot? ix with
    | none => s
    | some sl =>
      let tn := sl.fn.tenant
      let mine := s.compute.sets.filter (·.tenant == tn)
      match sl.sqe.body with
      | .rangeSetCreate rs =>
        if sl.phase != .fetched || !s.serving then s
        else settle (match computeCheck s sl (computeNsid tn) (16 * rs.length) with
          | some st => complete ix st 0 s
          | none =>
            if rs.length > 16 || mine.length ≥ 64 || rs.any (fun r => r.1 + r.2 > (tenantCfg s tn).slmSize)
            then complete ix stField 0 s
            else match pick ((List.range 64).filter fun k => !mine.any (·.id == k)) s with
            | (none, s) => complete ix stField 0 s
            | (some id, s) => complete ix stOk id { s with compute := { s.compute with
                sets := s.compute.sets ++ [{ tenant := tn, id := id, ranges := rs }] } })
      | .rangeSetDelete id =>
        if sl.phase != .fetched || !s.serving then s
        else settle (match computeCheck s sl (computeNsid tn) 0 with
          | some st => complete ix st 0 s
          | none =>
            if !mine.any (·.id == id) || s.compute.runs.any (fun r => r.tenant == tn && field r.args 8 4 == id)
            then complete ix stField 0 s
            else complete ix stOk 0 { s with compute := { s.compute with
              sets := s.compute.sets.filter fun q => !(q.tenant == tn && q.id == id) } })
      | _ => s)

/-- A memory command is checked, and runs once its turn in ASN order has come (R246). -/
def memCommand (p : Body → Bool) (t : Tick) (ix : Nat) (s : State) : State :=
  let s := s.arrive t
  match s.slot? ix with
  | none => s
  | some sl =>
    let b := sl.sqe.body
    if sl.phase != .fetched || !s.serving || !p b then s
    else
      let size := (tenantCfg s sl.fn.tenant).slmSize
      let bytes := sumBy (·.2) (match b with
        | .slmCopy .. => [(0, 32)]
        | .slmFill .. => []
        | _ => Body.slmReads b ++ Body.slmWrites b)
      settle (match computeCheck s sl (memoryNsid sl.fn.tenant) bytes with
        | some st => complete ix st 0 s
        | none =>
          if (Body.slmReads b ++ Body.slmWrites b).any fun r => r.1 + r.2 > size then complete ix stLbaRange 0 s
          else if slmMustWait s sl then s.setSlot ix fun x => { x with phase := .waitEarlier }
          else slmRun sl s)

/-- MEMORY_READ. -/
def execMemoryRead (t : Tick) (ix : Nat) (s : State) : Host.Outcome State Fault Refusal :=
  .next (memCommand (fun b => match b with
    | .slmRead .. => true
    | _ => false) t ix s)

/-- MEMORY_WRITE. -/
def execMemoryWrite (t : Tick) (ix : Nat) (s : State) : Host.Outcome State Fault Refusal :=
  .next (memCommand (fun b => match b with
    | .slmWrite .. => true
    | _ => false) t ix s)

/-- MEMORY_FILL. -/
def execMemoryFill (t : Tick) (ix : Nat) (s : State) : Host.Outcome State Fault Refusal :=
  .next (memCommand (fun b => match b with
    | .slmFill .. => true
    | _ => false) t ix s)

/-- MEMORY_COPY. -/
def execMemoryCopy (t : Tick) (ix : Nat) (s : State) : Host.Outcome State Fault Refusal :=
  .next (memCommand (fun b => match b with
    | .slmCopy .. => true
    | _ => false) t ix s)

/-! ### Telemetry (R261, R262) -/

/-- The tenants of a view: all of them in the owner view. -/
def inView (view : Option Nat) (tenant : Nat) : Bool := view.isNone || view == some tenant

/-- Replicas of a view that have a chunk waiting for a fixed-function unit. -/
def unitReady (s : State) (view : Option Nat) : Nat :=
  sumBy (fun r => (r.replicas.filter fun x =>
      let n := gNode r.image x.node
      0x10 ≤ n.typ && n.typ ≤ 0x15 && (List.range n.nin).any fun p => match gIn r.image x.node p with
        | none => false
        | some e => (headChunk r e x.ix).isSome).length)
    (s.compute.runs.filter fun r => r.released.isSome && inView view r.tenant)

/-- The dispatcher registers of a view at a snapshot (Table 6.11), the 64 engine words last. -/
def dspWords (s : State) (view : Option Nat) : List Nat :=
  let runs := s.compute.runs.filter fun r => inView view r.tenant
  let cfg := tenantCfg s (view.getD 0)
  let q (own : Nat) (mine : Nat) : Nat := if view.isNone then own else mine
  let ready (p : Nat) : Nat := (((get? p s.compute.ready).getD []).filter fun x =>
    ((s.run? x.1).map fun r => inView view r.tenant).getD false).length
  let stalls := sumBy (fun r => (r.lanes.filter (·.stalled.isSome)).length) runs
  let chains := (runs.filter (·.chainStall.isSome)).length
  let wait := (s.compute.counts.filter fun c => inView view c.tenant).foldl (fun a c => max a c.waitMax) 0
  let assigned := sumBy (fun r => (r.replicas.filter fun x => x.engine.isSome && x.state != .ended).length) runs
  let running (p : Nat) : Option GRun := (s.compute.dispatched.find? (·.1 == p)).bind fun d => s.run? d.2.1
  let eng (p : Nat) : Nat :=
    if (engineAt s p).isNone then 0
    else
      let going := sumBy (fun d => match s.run? d.2.1 with
        | none => 0
        | some r =>
          if d.1 = p ∧ inView view r.tenant then
            s.now - max ((r.rep d.2.2.1 d.2.2.2).startedAt.getD s.now) s.compute.beatAt
          else 0) s.compute.dispatched
      let beat := going + sumBy (fun u => if u.pos = p ∧ inView view u.tenant then u.beat else 0) s.compute.engUse
      let run := ((running p).map fun r => inView view r.tenant).getD false
      min 65535 (65536 * 1024 * beat / max 1 s.firn.period) + 2 ^ 16 * min 255 (ready p) + (if run then 2 ^ 24 else 0)
  [opsInFlight s (fun r => inView view r.tenant) + 2 ^ 16 * q 4096 cfg.opQuota,
   (s.compute.images.filter fun i => inView view i.tenant).length + 2 ^ 16 * q 1024 cfg.imageQuota,
   (runs.filter (·.released.isSome)).length + 2 ^ 16 * (runs.filter (·.released.isNone)).length,
   sumBy ready (List.range 64) + 2 ^ 16 * unitReady s view,
   stalls + 2 ^ 16 * chains,
   min (2 ^ 32 - 1) (wait / 8),
   assigned + 2 ^ 8 * q 64 cfg.engineQuota] ++ (List.range 64).map eng

/-- Rate of a unit class in bytes per us (R310, R326, R373, R387), 0 where the spec gives none.
DESIGN CHOICE: log entry 107. -/
def unitRate : Nat → Nat
  | 0 => 8000
  | 1 | 2 => 32000
  | 4 => 20000
  | 5 => 6000
  | _ => 0

/-- Log page 0xC5 (Table 6.12). DESIGN CHOICE: log entry 107. -/
def logC5 (s : State) (view : Option Nat) : List Byte :=
  let cs := s.compute.counts.filter fun c => inView view c.tenant
  let tot (f : DspCount → Nat) : Nat := sumBy f cs
  let trap (k : Nat) : Nat := sumBy (fun c => (get? k c.traps).getD 0) cs
  let eng (p : Nat) : List Byte := match s.engines.find? fun e => e.status == 0 && e.pos == some p with
    | none => zeros 16
    | some e =>
      let us := s.compute.engUse.filter fun u => u.pos == p && inView view u.tenant
      le 8 (2 * sumBy (·.busy) us) ++ le 4 (sat 4 (sumBy (·.dispatches) us))
        ++ le 2 (sat 2 (us.foldl (fun a u => max a u.depth) 0)) ++ le 1 e.cluster ++ le 1 (if e.calved then 1 else 0)
  let unit (k : Nat) : List Byte :=
    let us := s.compute.unitUse.filter fun u => u.cls == k && inView view u.tenant
    let bytes := sumBy (·.bytes) us
    let high := if view.isNone then (get? k s.compute.highWaiting).getD 0 else us.foldl (fun a u => max a u.waiting) 0
    le 8 (if unitRate k = 0 then Config.unitBusyNs k bytes % 2 ^ 64 else 1000 * bytes / unitRate k)
      ++ le 4 (sat 4 (sumBy (·.chunks) us)) ++ le 4 high
  pad 2048 (le 4 (opsInFlight s fun r => inView view r.tenant) ++ le 4 (if view.isNone then s.compute.highOps else tot (·.highOps)) ++ le 8 (tot (·.released))
    ++ le 8 (tot (·.ok)) ++ le 8 (tot (·.failed)) ++ le 8 (tot (·.aborted)) ++ le 8 (tot (·.mediaBytes))
    ++ le 8 (tot (·.hostSink)) ++ le 8 (tot (·.slmSink)) ++ le 8 (tot (·.edgeStall) / ticksPerUs)
    ++ le 8 (tot (·.chainStall) / ticksPerUs) ++ ((List.range 9).flatMap fun i => le 4 (sat 4 (trap (i + 1))))
    ++ le 4 (sat 4 (tot (·.watchdogs))) ++ le 4 (sat 4 (tot (·.poisons))) ++ le 4 (sat 4 (tot (·.delayedPins)))
    ++ (List.range 64).flatMap eng ++ (List.range 8).flatMap unit)

end Sys2Proof.Machine
end

