-- ==== Sys2Proof/Machine/Felt.lean ====
section
/-! DEFINITION. The streams of Felt (file 08, Tables 8.1 and 8.2): check values, the decoding of raw Deflate, zlib, gzip,
LZ4 blocks and LZ4 frames, and the framing of what FELT_PACK writes. The spec names the standards of the formats; their bit
layouts are those of RFC 1950, RFC 1951, RFC 1952 and the LZ4 formats (log entry 112). -/

namespace Sys2Proof.Machine

/-! ### Check values -/

/-- One byte into a CRC-32 (RFC 1952). PRESUMED: log entry 112. -/
def crcByte (c : Nat) (b : Byte) : Nat :=
  (List.range 8).foldl (fun c _ => if c % 2 = 1 then c / 2 ^^^ 0xEDB88320 else c / 2) (c ^^^ b.toNat)

/-- CRC-32 of gzip (Table 8.1). PRESUMED: log entry 112. -/
def crc32 (bs : List Byte) : Nat := bs.foldl crcByte 0xFFFFFFFF ^^^ 0xFFFFFFFF

/-- Adler-32 of zlib (Table 8.1). PRESUMED: log entry 112. -/
def adler32 (bs : List Byte) : Nat :=
  let ab := bs.foldl (fun (x : Nat × Nat) b => ((x.1 + b.toNat) % 65521, (x.2 + x.1 + b.toNat) % 65521)) (1, 0)
  65536 * ab.2 + ab.1

/-- A 32-bit value rotated left. -/
def rotl32 (r v : Nat) : Nat := v * 2 ^ r % 2 ^ 32 + v / 2 ^ (32 - r)

/-- One stripe of 16 bytes into the four lanes of xxHash-32. PRESUMED: log entry 112. -/
def xxhStripe (bs : List Byte) (lanes : List Nat) (k : Nat) : List Nat :=
  lanes.zipIdx.map fun x =>
    rotl32 13 ((x.1 + field bs (16 * k + 4 * x.2) 4 * 2246822519) % 2 ^ 32) * 2654435761 % 2 ^ 32

/-- xxHash-32 with seed 0: the checksums of an LZ4 frame (Table 8.2). PRESUMED: log entry 112. -/
def xxh32 (bs : List Byte) : Nat :=
  let n := bs.length
  let lanes := (List.range (n / 16)).foldl (xxhStripe bs) [606290984, 2246822519, 0, 1640531535]
  let h := if n < 16 then 374761393
    else (rotl32 1 (lanes.getD 0 0) + rotl32 7 (lanes.getD 1 0) + rotl32 12 (lanes.getD 2 0) + rotl32 18 (lanes.getD 3 0)) % 2 ^ 32
  let h := (h + n) % 2 ^ 32
  let w := n / 16 * 16
  let h := (List.range (n % 16 / 4)).foldl (fun h i =>
    rotl32 17 ((h + field bs (w + 4 * i) 4 * 3266489917) % 2 ^ 32) * 668265263 % 2 ^ 32) h
  let h := (bs.drop (n / 4 * 4)).foldl (fun h b =>
    rotl32 11 ((h + b.toNat * 374761393) % 2 ^ 32) * 2654435761 % 2 ^ 32) h
  let h := (h ^^^ h / 2 ^ 15) * 2246822519 % 2 ^ 32
  let h := (h ^^^ h / 2 ^ 13) * 3266489917 % 2 ^ 32
  h ^^^ h / 2 ^ 16

/-! ### Bits of a Deflate stream -/

/-- The bits of bytes, each from its least significant bit on (RFC 1951). PRESUMED: log entry 112. -/
def bitsOf (bs : List Byte) : List Bool := bs.flatMap fun b => (List.range 8).map b.getLsbD

/-- The number that the first `n` bits hold, and the bits after them; none when there are fewer. -/
def takeBits : Nat → List Bool → Option (Nat × List Bool)
  | 0, bs => some (0, bs)
  | _ + 1, [] => none
  | n + 1, b :: bs => (takeBits n bs).map fun x => (b.toNat + 2 * x.1, x.2)

/-- The whole bytes of a row of bits. -/
def bytesOf (bits : List Bool) : List Byte :=
  (List.range (bits.length / 8)).map fun i => BitVec.ofNat 8 (((takeBits 8 (bits.drop (8 * i))).map (·.1)).getD 0)

/-- How an operation of FELT_UNPACK stands: going on, ended, or failed with a detail of Table 8.4. -/
inductive Unpacked where
  | more | ended | fail (detail : Nat)
  deriving DecidableEq, Repr

/-- `n` bytes, each from `back` bytes before the end of the output, which stands newest first. -/
def copyBack (back : Nat) : Nat → List Byte → List Byte
  | 0, out => out
  | n + 1, out => copyBack back n (out.getD (back - 1) 0 :: out)

/-- A distance reaches beyond the output so far, or is 0 (Table 8.2). -/
def beyond (back : Nat) (out : List Byte) : Bool := back == 0 || (out.drop (back - 1)).isEmpty

/-! ### Deflate -/

/-- A canonical code from its lengths: the codes of each length, and the symbols in code order (RFC 1951).
PRESUMED: log entry 112. -/
def huff (lens : List Nat) : List Nat × List Nat :=
  ((List.range 16).map fun l => (lens.filter (· == l)).length,
   (List.range' 1 15).flatMap fun l => (List.range lens.length).filter fun i => lens.getD i 0 == l)

/-- The share of all 15-bit words that the codes take: 2^15 when a code is complete, more when over-subscribed. -/
def huffFill (c : List Nat × List Nat) : Nat :=
  ((List.range' 1 15).map fun l => c.1.getD l 0 * 2 ^ (15 - l)).sum

/-- The next symbol: none while bits are wanted, `some none` for a code that is not assigned. -/
def huffSym (c : List Nat × List Nat) : Nat → Nat → Nat → Nat → Nat → List Bool → Option (Option (Nat × List Bool))
  | 0, _, _, _, _, _ => some none
  | fuel + 1, len, code, first, index, bits =>
    if (c.1.drop len).all (· == 0) then some none
    else match bits with
    | [] => none
    | b :: bits =>
      let code := code + b.toNat
      let n := c.1.getD len 0
      if code < first + n then some (some (c.2.getD (index + (code - first)) 0, bits))
      else huffSym c fuel (len + 1) (2 * code) (2 * (first + n)) (index + n) bits

/-- The next symbol of a code. -/
def huffNext (c : List Nat × List Nat) (bits : List Bool) : Option (Option (Nat × List Bool)) := huffSym c 15 1 0 0 0 bits

/-- Length of a match and its extra bits, by length symbol 257 to 285 (RFC 1951). PRESUMED: log entry 112. -/
def matchLen (v : Nat) : Nat × Nat :=
  if v = 285 then (258, 0) else if v < 265 then (v - 254, 0)
  else (3 + (4 + (v - 261) % 4) * 2 ^ ((v - 261) / 4), (v - 261) / 4)

/-- Distance and its extra bits, by distance symbol 0 to 29 (RFC 1951). PRESUMED: log entry 112. -/
def matchDist (d : Nat) : Nat × Nat := if d < 4 then (d + 1, 0) else (1 + (2 + d % 2) * 2 ^ (d / 2 - 1), d / 2 - 1)

/-- The symbols of one block up to its end (Table 8.2). The output stands newest first. -/
def inflateSyms (lit dist : List Nat × List Nat) : Nat → List Byte → List Bool → List Byte × Unpacked × List Bool
  | 0, out, bits => (out, .more, bits)
  | fuel + 1, out, bits =>
    match huffNext lit bits with
    | none => (out, .more, bits)
    | some none => (out, .fail 0x13, bits)
    | some (some (v, bits)) =>
      if v < 256 then inflateSyms lit dist fuel (BitVec.ofNat 8 v :: out) bits
      else if v = 256 then (out, .ended, bits)
      else if 285 < v then (out, .fail 0x13, bits)
      else match takeBits (matchLen v).2 bits with
      | none => (out, .more, bits)
      | some (x, bits) => match huffNext dist bits with
        | none => (out, .more, bits)
        | some none => (out, .fail 0x13, bits)
        | some (some (d, bits)) =>
          if 29 < d then (out, .fail 0x13, bits)
          else match takeBits (matchDist d).2 bits with
          | none => (out, .more, bits)
          | some (y, bits) =>
            let back := (matchDist d).1 + y
            if beyond back out then (out, .fail 0x13, bits)
            else inflateSyms lit dist fuel (copyBack back ((matchLen v).1 + x) out) bits

/-- The code of literals and lengths and the code of distances of a block of BTYPE 0b01. PRESUMED: log entry 112. -/
def fixedCodes : (List Nat × List Nat) × (List Nat × List Nat) :=
  (huff (List.replicate 144 8 ++ List.replicate 112 9 ++ List.replicate 24 7 ++ List.replicate 8 8),
   huff (List.replicate 32 5))

/-- The `n` code lengths of a block of BTYPE 0b10, the newest first: none while bits are wanted, `some none` for content
that the format does not define. PRESUMED: log entry 112. -/
def readLens (c : List Nat × List Nat) (n : Nat) : Nat → List Nat → List Bool → Option (Option (List Nat × List Bool))
  | 0, _, _ => some none
  | fuel + 1, acc, bits =>
    if acc.length = n then some (some (acc, bits))
    else if n < acc.length then some none
    else match huffNext c bits with
    | none => none
    | some none => some none
    | some (some (v, bits)) =>
      let again (k base len : Nat) : Option (Option (List Nat × List Bool)) := match takeBits k bits with
        | none => none
        | some (x, bits) => readLens c n fuel (List.replicate (base + x) len ++ acc) bits
      if v < 16 then readLens c n fuel (v :: acc) bits
      else if v = 16 then match acc with
        | [] => some none
        | l :: _ => again 2 3 l
      else if v = 17 then again 3 3 0 else again 7 11 0

/-- A code of distances that a block may have: a complete one, none, or a single code of one bit (RFC 1951).
PRESUMED: log entry 112. -/
def distOk (lens : List Nat) : Bool :=
  let used := lens.filter (· != 0)
  huffFill (huff lens) == 2 ^ 15 || used.isEmpty || used == [1]

/-- `n` code lengths of three bits each, in the order in which a block gives them. -/
def threeBits : Nat → List Bool → Option (List Nat × List Bool)
  | 0, bits => some ([], bits)
  | n + 1, bits => match takeBits 3 bits with
    | none => none
    | some (x, bits) => (threeBits n bits).map fun r => (x :: r.1, r.2)

/-- A block with dynamic codes (Table 8.2). PRESUMED: log entry 112. -/
def dynamicBlock (out : List Byte) (bits : List Bool) : List Byte × Unpacked × List Bool :=
  match takeBits 5 bits with
  | none => (out, .more, bits)
  | some (hlit, bits) =>
    if 29 < hlit then (out, .fail 0x13, bits)
    else match takeBits 5 bits with
    | none => (out, .more, bits)
    | some (hdist, bits) => match takeBits 4 bits with
      | none => (out, .more, bits)
      | some (hclen, bits) => match threeBits (hclen + 4) bits with
        | none => (out, .more, bits)
        | some (ls, bits) =>
          let order := [16, 17, 18, 0, 8, 7, 9, 6, 10, 5, 11, 4, 12, 3, 13, 2, 14, 1, 15]
          let code := huff ((List.range 19).map fun i => ls.getD (order.idxOf i) 0)
          let n := hlit + 257 + hdist + 1
          if huffFill code ≠ 2 ^ 15 then (out, .fail 0x13, bits)
          else match readLens code n (n + 1) [] bits with
          | none => (out, .more, bits)
          | some none => (out, .fail 0x13, bits)
          | some (some (acc, bits)) =>
            let lens := acc.reverse
            let lit := huff (lens.take (hlit + 257))
            let dist := lens.drop (hlit + 257)
            if huffFill lit ≠ 2 ^ 15 || !distOk dist then (out, .fail 0x13, bits)
            else inflateSyms lit (huff dist) (bits.length + 1) out bits

/-- The bytes of a stored block. -/
def storedBytes : Nat → List Byte → List Bool → List Byte × Unpacked × List Bool
  | 0, out, bits => (out, .ended, bits)
  | n + 1, out, bits => match takeBits 8 bits with
    | none => (out, .more, bits)
    | some (x, bits) => storedBytes n (BitVec.ofNat 8 x :: out) bits

/-- A stored block: it begins at the next byte, and NLEN is the complement of LEN (Table 8.2). -/
def storedBlock (out : List Byte) (bits : List Bool) : List Byte × Unpacked × List Bool :=
  match takeBits 16 (bits.drop (bits.length % 8)) with
  | none => (out, .more, bits)
  | some (len, bits) => match takeBits 16 bits with
    | none => (out, .more, bits)
    | some (nlen, bits) => if len + nlen ≠ 65535 then (out, .fail 0x13, bits) else storedBytes len out bits

/-- The blocks of a raw Deflate stream up to the end of the one with BFINAL (R323). -/
def inflateBlocks : Nat → List Byte → List Bool → List Byte × Unpacked × List Bool
  | 0, out, bits => (out, .more, bits)
  | fuel + 1, out, bits => match takeBits 1 bits with
    | none => (out, .more, bits)
    | some (last, bits) => match takeBits 2 bits with
      | none => (out, .more, bits)
      | some (typ, bits) =>
        let r := if typ = 0 then storedBlock out bits
          else if typ = 1 then inflateSyms fixedCodes.1 fixedCodes.2 (bits.length + 1) out bits
          else if typ = 2 then dynamicBlock out bits else (out, .fail 0x13, bits)
        match r.2.1 with
        | .ended => if last = 1 then r else inflateBlocks fuel r.1 r.2.2
        | _ => r

/-- A raw Deflate stream: the bytes decoded, how it stands, and the bytes after it. -/
def inflate (bs : List Byte) : List Byte × Unpacked × List Byte :=
  let r := inflateBlocks (8 * bs.length) [] (bitsOf bs)
  (r.1.reverse, r.2.1, bs.drop (bs.length - r.2.2.length / 8))

/-- A zlib stream (Table 8.2): its header, raw Deflate, and the Adler-32 of the output, most significant byte first. -/
def unzlib (bs : List Byte) : List Byte × Unpacked × List Byte :=
  match bs with
  | [] => ([], .more, [])
  | cmf :: bs =>
    if cmf.toNat % 16 ≠ 8 || 7 < cmf.toNat / 16 then ([], .fail 0x13, bs)
    else match bs with
    | [] => ([], .more, [])
    | flg :: bs =>
      if (256 * cmf.toNat + flg.toNat) % 31 ≠ 0 then ([], .fail 0x13, bs)
      else if flg.getLsbD 5 then ([], .fail 0x15, bs)
      else
        let (out, st, rest) := inflate bs
        if st ≠ .ended then (out, st, rest)
        else if rest.length < 4 then (out, .more, rest)
        else if unle (rest.take 4).reverse ≠ adler32 out then (out, .fail 0x14, rest)
        else (out, .ended, rest.drop 4)

/-- The end of a part of a gzip header that a zero byte ends. -/
def gzName (bs : List Byte) (off : Nat) : Option Nat :=
  let n := ((bs.drop off).takeWhile (· != 0)).length
  if off + n < bs.length then some (off + n + 1) else none

/-- The header of a gzip member (Table 8.2): its length when it is whole. PRESUMED: log entry 112. -/
def gzHeader (bs : List Byte) : Unpacked × Nat :=
  let wrong (i : Nat) (v : Byte) : Bool := (bs[i]?).any (· != v)
  let flg := bs.getD 3 0
  if wrong 0 0x1F || wrong 1 0x8B || wrong 2 8 || 32 ≤ flg.toNat then (.fail 0x13, 0)
  else if bs.length < 10 then (.more, 0)
  else
    let k := if !flg.getLsbD 2 then some 10
      else if bs.length < 12 + field bs 10 2 then none else some (12 + field bs 10 2)
    let k := if flg.getLsbD 3 then k.bind (gzName bs) else k
    let k := if flg.getLsbD 4 then k.bind (gzName bs) else k
    match k with
    | none => (.more, 0)
    | some k =>
      if !flg.getLsbD 1 then (.ended, k)
      else if bs.length < k + 2 then (.more, 0)
      else if field bs k 2 ≠ crc32 (bs.take k) % 65536 then (.fail 0x14, 0) else (.ended, k + 2)

/-- A gzip member (Table 8.2): its header, raw Deflate, CRC-32 and ISIZE. -/
def ungzip (bs : List Byte) : List Byte × Unpacked × List Byte :=
  let h := gzHeader bs
  if h.1 ≠ .ended then ([], h.1, [])
  else
    let (out, st, rest) := inflate (bs.drop h.2)
    if st ≠ .ended then (out, st, rest)
    else if rest.length < 4 then (out, .more, rest)
    else if field rest 0 4 ≠ crc32 out then (out, .fail 0x14, rest)
    else if rest.length < 8 then (out, .more, rest)
    else if field rest 4 4 ≠ out.length % 2 ^ 32 then (out, .fail 0x14, rest)
    else (out, .ended, rest.drop 8)

/-! ### LZ4 -/

/-- A length that goes on in further bytes, and the bytes after it. PRESUMED: log entry 112. -/
def lz4Len : List Byte → Option (Nat × List Byte)
  | [] => none
  | b :: bs => if b = 0xFF then (lz4Len bs).map fun x => (x.1 + 255, x.2) else some (b.toNat, bs)

/-- `n` literals onto the output, whether all stood in the input, and the bytes after them. -/
def lz4Lits : Nat → List Byte → List Byte → List Byte × Bool × List Byte
  | 0, out, bs => (out, true, bs)
  | _ + 1, out, [] => (out, false, [])
  | n + 1, out, b :: bs => lz4Lits n (b :: out) bs

/-- The sequences of an LZ4 block (Table 8.2), whose last has literals only and ends at the last byte. The output stands
newest first. PRESUMED: log entry 112. -/
def lz4Seqs (final : Bool) : Nat → List Byte → List Byte → List Byte × Unpacked
  | 0, out, _ => (out, .more)
  | _ + 1, out, [] => (out, .more)
  | fuel + 1, out, t :: bs =>
    let lits := t.toNat / 16
    match if lits = 15 then (lz4Len bs).map fun x => (x.1 + 15, x.2) else some (lits, bs) with
    | none => (out, .more)
    | some (n, bs) =>
      let (out, whole, bs) := lz4Lits n out bs
      if !whole then (out, .more)
      else match bs with
      | [] => (out, if final then .ended else .more)
      | [_] => (out, .more)
      | a :: b :: bs =>
        let back := a.toNat + 256 * b.toNat
        if beyond back out then (out, .fail 0x13)
        else
          let len := t.toNat % 16
          match if len = 15 then (lz4Len bs).map fun x => (x.1 + 19, x.2) else some (len + 4, bs) with
          | none => (out, .more)
          | some (n, bs) => lz4Seqs final fuel (copyBack back n out) bs

/-- One LZ4 block that is the whole stream or answer. DEDUCED: log entry 113. -/
def unlz4 (final : Bool) (bs : List Byte) : List Byte × Unpacked × List Byte :=
  let r := lz4Seqs final (bs.length + 1) [] bs
  (r.1.reverse, r.2, [])

/-- The blocks of an LZ4 frame up to its EndMark (Table 8.2), by the flags of its descriptor and the block maximum. The output
stands newest first. PRESUMED: log entry 112. -/
def lz4Blocks (flg : Byte) (top : Nat) : Nat → List Byte → List Byte → List Byte × Unpacked × List Byte
  | 0, out, bs => (out, .more, bs)
  | fuel + 1, out, bs =>
    if bs.length < 4 then (out, .more, bs)
    else
      let w := field bs 0 4
      let n := w % 2 ^ 31
      if w = 0 then (out, .ended, bs.drop 4)
      else if top < n then (out, .fail 0x13, bs)
      else
        let data := (bs.drop 4).take n
        let whole := data.length == n
        let sum := flg.getLsbD 4
        let rest := bs.drop (4 + n + if sum then 4 else 0)
        -- a block with a checksum delivers its bytes only once the checksum holds
        if sum && bs.length < 8 + n then (out, .more, bs)
        else if sum && field bs (4 + n) 4 != xxh32 data then (out, .fail 0x14, bs)
        else
          let old := if flg.getLsbD 5 then [] else out
          let r := if 2 ^ 31 ≤ w then (data.reverse ++ old, if whole then Unpacked.ended else .more)
            else lz4Seqs whole (n + 1) old data
          let new := r.1.take (r.1.length - old.length)
          if top < new.length then (new.drop (new.length - top) ++ out, .fail 0x13, bs)
          else match r.2 with
          | .ended => lz4Blocks flg top fuel (new ++ out) rest
          | .more => (new ++ out, if whole then .fail 0x13 else .more, bs)
          | .fail d => (new ++ out, .fail d, bs)

/-- The descriptor of an LZ4 frame (Table 8.2): how it stands, and the offset of its blocks.
PRESUMED: log entry 112. -/
def lz4Head (bs : List Byte) : Unpacked × Nat :=
  let flg := bs.getD 4 0
  let bd := (bs.getD 5 0).toNat
  let k := 6 + if flg.getLsbD 3 then 8 else 0
  if bs.length < 5 then (.more, 0)
  else if flg.toNat / 64 ≠ 1 || flg.getLsbD 1 then (.fail 0x13, 0)
  else if flg.getLsbD 0 then (.fail 0x15, 0)
  else if bs.length < 6 then (.more, 0)
  else if 128 ≤ bd || bd % 16 ≠ 0 || bd / 16 < 4 then (.fail 0x13, 0)
  else if bs.length < k + 1 then (.more, 0)
  else if (bs.getD k 0).toNat ≠ xxh32 (slice bs 4 (k - 4)) / 256 % 256 then (.fail 0x13, 0)
  else (.ended, k + 1)

/-- The magic of a skippable frame (R323). -/
def skippable (m : Nat) : Bool := 0x184D2A50 ≤ m && m ≤ 0x184D2A5F

/-- An LZ4 frame, or a frame that is skipped (Table 8.2, R323). DEDUCED: log entry 113. -/
def unlz4Frame (bs : List Byte) : List Byte × Unpacked × List Byte :=
  let m := field bs 0 4
  if bs.length < 4 then ([], .more, bs)
  else if skippable m then
    if bs.length < 8 || bs.length < 8 + field bs 4 4 then ([], .more, bs) else ([], .ended, bs.drop (8 + field bs 4 4))
  else if m = 0x184C2102 then ([], .fail 0x15, bs)
  else if m ≠ 0x184D2204 then ([], .fail 0x13, bs)
  else
    let h := lz4Head bs
    if h.1 ≠ .ended then ([], h.1, bs)
    else
      let flg := bs.getD 4 0
      let (out, st, rest) := lz4Blocks flg (2 ^ (2 * ((bs.getD 5 0).toNat / 16) + 8)) bs.length [] (bs.drop h.2)
      let out := out.reverse
      if st ≠ .ended then (out, st, rest)
      else if flg.getLsbD 3 && field bs 6 8 != out.length then (out, .fail 0x14, rest)
      else if !flg.getLsbD 2 then (out, .ended, rest)
      else if rest.length < 4 then (out, .more, rest)
      else if field rest 0 4 ≠ xxh32 out then (out, .fail 0x14, rest)
      else (out, .ended, rest.drop 4)

/-! ### Operations of FELT_UNPACK -/

/-- One stream, member or frame by FORMAT (R318): the bytes decoded, how it stands, and the bytes after it. An LZ4 block ends
with the input. -/
def unfelt (fmt : Nat) (final : Bool) (bs : List Byte) : List Byte × Unpacked × List Byte :=
  if fmt = 1 then inflate bs else if fmt = 2 then unzlib bs else if fmt = 3 then ungzip bs
  else if fmt = 4 then unlz4 final bs else unlz4Frame bs

/-- The bytes begin a further member or frame (R323): bytes that end inside the magic of one begin it.
DEDUCED: log entry 113. -/
def beginsMember (fmt : Nat) (bs : List Byte) : Bool :=
  let begins (m : List Byte) : Bool := bs.take m.length == m.take bs.length
  if fmt = 3 then begins [0x1F, 0x8B]
  else begins [0x04, 0x22, 0x4D, 0x18] || begins [0x02, 0x21, 0x4C, 0x18] || begins [0x50 + bs.getD 0 0 % 16, 0x2A, 0x4D, 0x18]

/-- Decode an operation's input: its output so far and how it stands (R318, R322, R323, R325).
DEDUCED: log entry 113. -/
def unpackOp (p : List Byte) (outmax : Nat) (final : Bool) : Nat → List Byte → List Byte → List Byte × Unpacked
  | 0, acc, _ => (acc, .more)
  | fuel + 1, acc, input =>
    let fmt := field p 0 1
    let fl := field p 3 1
    if fmt = 4 && input.isEmpty then (acc, if final then .ended else .more)
    else
      let (o, st, rest) := unfelt fmt final input
      let out := acc ++ o
      if out.length > outmax then (out.take outmax, .fail 0x10)
      else match st with
      | .more => (out, if final then .fail 0x11 else .more)
      | .fail d => (out, .fail d)
      | .ended =>
        if rest.isEmpty then (out, if final then .ended else .more)
        else if fl / 2 % 2 = 1 && (fmt = 3 || fmt = 5) && beginsMember fmt rest then unpackOp p outmax final fuel out rest
        else if fl % 2 = 1 then (out, if final then .ended else .more)
        else (out, .fail 0x12)

/-! ### What FELT_PACK writes -/

/-- The blocks of a packed stream with the form of each. -/
def feltBlocks (size : Nat) (stored : List Nat) (bs : List Byte) : List (List Byte × Bool) :=
  (List.range (ceilDiv bs.length size)).map fun i => ((bs.drop (size * i)).take size, stored.contains i)

/-- The blocks that may leave: a block leaves once it is known whether it is the last (R313, R317). -/
def feltSent (blocks : List (List Byte × Bool)) (done : Bool) : Nat := if done then blocks.length else blocks.length - 1

/-- A block in stored form (Table 8.1): stored blocks of at most 65,535 bytes, each from the next byte boundary on. -/
def storedBits (last : Bool) (block : List Byte) (bits : List Bool) : List Bool :=
  let n := ceilDiv block.length 65535
  (List.range n).foldl (fun bits i =>
    let part := (block.drop (65535 * i)).take 65535
    let bits := bits ++ [last && i + 1 == n, false, false]
    bits ++ List.replicate ((8 - bits.length % 8) % 8) false
      ++ bitsOf (le 2 part.length ++ le 2 (65535 - part.length) ++ part)) bits

/-- The bits of the first `n` blocks of a raw Deflate stream (Table 8.1). -/
def deflateBits (p : List Byte) (blocks : List (List Byte × Bool)) (n : Nat) (done : Bool) : List Bool :=
  (List.range n).foldl (fun bits i =>
    let b := blocks.getD i ([], false)
    let last := done && i + 1 == blocks.length
    if b.2 then storedBits last b.1 bits
    else bits ++ [last, false, true] ++ Config.feltDeflate p ((blocks.take i).flatMap (·.1)) b.1) []

/-- The bytes of a raw Deflate stream that may leave (Table 8.1): an empty stream is the final fixed-code block. -/
def deflateSent (p : List Byte) (blocks : List (List Byte × Bool)) (done : Bool) : List Byte :=
  if done && blocks.isEmpty then [0x03, 0x00]
  else
    let bits := deflateBits p blocks (feltSent blocks done) done
    bytesOf (if done then bits ++ List.replicate ((8 - bits.length % 8) % 8) false else bits)

/-- The descriptor of the LZ4 frames that FELT_PACK writes (Table 8.1): the block maximum of BLOCK_LOG2.
PRESUMED: log entry 112. -/
def lz4Desc (p : List Byte) : List Byte :=
  let d : List Byte := le 1 (0x60 + 4 * (field p 3 1 / 8 % 2)) ++ le 1 (16 * ((field p 2 1 - 8) / 2))
  d ++ le 1 (xxh32 d / 256)

/-- One block of an LZ4 frame (Table 8.1): its size, with bit 31 set in stored form, and its bytes. -/
def lz4Block (p : List Byte) (b : List Byte × Bool) : List Byte :=
  let c := if b.2 then b.1 else Config.feltLz4 p b.1
  le 4 (c.length + if b.2 then 2 ^ 31 else 0) ++ c

/-- The bytes of a packed stream that may leave (Table 8.1). The header leaves with the first block.
DEDUCED: log entry 113. -/
def packSent (p : List Byte) (blocks : List (List Byte × Bool)) (done : Bool) : List Byte :=
  let n := feltSent blocks done
  let input := blocks.flatMap (·.1)
  let tail (bs : List Byte) : List Byte := if done then bs else []
  let fmt := field p 0 1
  if !done && n = 0 then []
  else if fmt = 1 then deflateSent p blocks done
  else if fmt = 2 then [0x78, 0x01] ++ deflateSent p blocks done ++ tail (le 4 (adler32 input)).reverse
  else if fmt = 3 then [0x1F, 0x8B, 0x08, 0, 0, 0, 0, 0, 0, 0xFF] ++ deflateSent p blocks done
    ++ tail (le 4 (crc32 input) ++ le 4 input.length)
  else if fmt = 4 then
    if blocks.isEmpty then Config.feltLz4Part p [] [] false true
    else (List.range n).flatMap fun i =>
      let b := blocks.getD i ([], false)
      Config.feltLz4Part p (blocks.take i) b.1 b.2 (done && i + 1 == blocks.length)
  else le 4 0x184D2204 ++ lz4Desc p ++ (blocks.take n).flatMap (lz4Block p)
    ++ tail (zeros 4 ++ if field p 3 1 / 8 % 2 = 1 then le 4 (xxh32 input) else [])

end Sys2Proof.Machine
end

