-- ==== Sys2Proof/Machine/Units.lean ====
section
/-! DEFINITION. Sieves and Felt for graphs (file 08), general cipher lanes and digest engines (file 09): the order
of service, the answers, and the contexts of jobs. -/

namespace Sys2Proof.Machine

/-! ### The order of service (R242) -/

/-- The unit class of a node type, in the order of Table 6.12. -/
def unitClass (typ : Nat) : Option Nat := if 0x10 ≤ typ && typ ≤ 0x15 then some (typ - 0x10) else none

/-- Every output of a replica has room for an answer. -/
def outsRoom (r : GRun) (node rep : Nat) : Bool :=
  ((List.range (gNode r.image node).nout).filterMap (gOut r.image node)).all fun o => answerRoom r o rep

/-- The port that a replica reads: a TWILL node reads its bulk load on port 1 to the end first (R348). -/
def workPort (r : GRun) (node rep : Nat) : Nat :=
  if (gNode r.image node).typ = ntTwill ∧ (gNode r.image node).nin = 2 ∧ !(r.rep node rep).bulkDone then 1 else 0

/-- A replica has a chunk, or the end of its input, to process, and room for what it gives. -/
def chunkReady (r : GRun) (node rep : Nat) : Bool :=
  let x := r.rep node rep
  x.state != .ended && x.failing.isNone && outsRoom r node rep &&
  (match gIn r.image node (workPort r node rep) with
  | none => false
  | some e =>
    let l := r.lane e (inLane r.image e rep (r.turn e))
    (headChunk r e rep).isSome || (atEnd r e rep && !l.endTaken))

/-- The run whose MEDIA_READ grain waits for a decompressor. DEDUCED: log entry 63. -/
def inflatesFor (f : Fetch) : Option Nat :=
  match f.inflating, f.use with
  | true, .node asn .. => some asn
  | _, _ => none

/-- Grains of host work that wait for a decompressor (R310). DEDUCED: log entry 63. -/
def hostInflations (s : State) : Nat := (s.media.fetches.filter fun f => f.inflating && (inflatesFor f).isNone).length

/-- A decompressor is left for graph work: host work comes first (R242, R310). DEDUCED: log entry 63. -/
def feltFree (s : State) : Bool := hostInflations s < (s.units.felts.filter fun f => f.ix ≥ 4 && f.inService).length

/-- The released runs with a ready chunk for a unit class, or with a grain for the decompressors (R242, R310). -/
def classRuns (s : State) (cls : Nat) : List GRun :=
  s.compute.runs.filter fun r => r.released.isSome
    && ((r.replicas.any fun x => unitClass (gNode r.image x.node).typ == some cls && chunkReady r x.node x.ix)
      || (cls == 2 && s.media.fetches.any fun f => inflatesFor f == some r.asn))

/-- UNIT_SHARE of a tenant. -/
def unitShare (s : State) (t : Nat) : Nat := ((s.tenant? t).map (·.cfg.unitShare)).getD 1

/-- The tenant whose turn it is among those that wait, in ascending number from the one served last. -/
def turnTenant (s : State) (cls : Nat) (waiting : List Nat) : Option Nat :=
  let (cur, k) := (get? cls s.compute.turns).getD (0, 0)
  if waiting.contains cur && k < unitShare s cur then some cur
  else
    let up := waiting.filter (cur < ·)
    let pool := if up.isEmpty then waiting else up
    pool.foldl (fun b t => match b with
      | none => some t
      | some x => some (min x t)) none

/-- A tenant is served one chunk of a class. -/
def passTurn (cls tenant : Nat) (s : State) : State :=
  let (cur, k) := (get? cls s.compute.turns).getD (0, 0)
  let next := if cur = tenant ∧ k < unitShare s tenant then (tenant, k + 1) else (tenant, 1)
  { s with compute := { s.compute with turns := put cls next s.compute.turns } }

/-- The run with the lowest ASN. DEDUCED: log entry 57. -/
def oldestRun : List GRun → Option GRun
  | [] => none
  | r :: rs => match oldestRun rs with
    | none => some r
    | some q => if asnLt q.asn r.asn then some q else some r

/-- A chunk of this run is the one a unit of the class takes next. -/
def unitMayServe (s : State) (cls asn : Nat) : Bool :=
  let rs := classRuns s cls
  match turnTenant s cls (rs.map (·.tenant)) with
  | none => false
  | some t => ((oldestRun (rs.filter (·.tenant == t))).map (·.asn)) == some asn

/-- Count what a unit class serves, its waiting replicas among it (Table 6.12). -/
def noteUnit (cls tenant bytes : Nat) (s : State) : State :=
  let waiting (rs : List GRun) : Nat := sumBy (fun r => (r.replicas.filter fun x =>
    unitClass (gNode r.image x.node).typ == some cls && chunkReady r x.node x.ix).length) rs
  noteWaiting cls tenant (waiting ((classRuns s cls).filter (·.tenant == tenant))) (waiting (classRuns s cls))
    (countUnit cls tenant bytes (passTurn cls tenant s))

/-! ### Sieves (R326, R332) -/

/-- The records of a chunk. DEDUCED: log entry 59. -/
def records (size : Nat) (bs : List Byte) : List (List Byte) :=
  (List.range (bs.length / max 1 size)).map fun i => slice bs (size * i) size

/-- A bitmap, least significant bit first, padded to a multiple of RECORD. DEDUCED: log entry 59. -/
def bitmap (rec : Nat) (bits : List Bool) : List Byte :=
  let bs := (List.range (ceilDiv bits.length 8)).map fun i =>
    BitVec.ofNat 8 (sumBy (fun j => if bits.getD (8 * i + j) false then 2 ^ j else 0) (List.range 8))
  pad (rec * ceilDiv bs.length rec) bs

/-- The answers of a sieve to one chunk, port by port (R332). DEDUCED: log entry 59. -/
def sieveAnswers (p bs : List Byte) : List (List Byte) :=
  let rec_ := field p 0 2
  let rs := records rec_ bs
  let hit := rs.filter (sieveMatch p)
  match field p 3 1 with
  | 1 => [bitmap rec_ (rs.map (sieveMatch p))]
  | 2 => [hit.flatten, (rs.filter fun x => !sieveMatch p x).flatten]
  | _ => [hit.flatten]

/-- SIEVE_CHUNK: a sieve unit answers one chunk of a replica (R326, R332). -/
def execSieveChunk (t : Tick) (unit asn node rep : Nat) (s : State) : Host.Outcome State Fault Refusal :=
  let s := s.arrive t
  .next (match s.run? asn with
    | none => s
    | some r =>
      let n := gNode r.image node
      match gIn r.image node 0 with
      | none => s
      | some e => match headChunk r e rep with
        | none => s
        | some c =>
          if !s.serving || n.typ ≠ ntSieve || unit ≥ 16 || s.units.sievesOut.contains unit || !chunkReady r node rep
            || !unitMayServe s 0 asn then s
          else if !c.poison.isEmpty then settle (failNode asn node rep 3 0 s)
          else
            let s := startRep asn node rep (noteUnit 0 r.tenant c.bytes.length s)
            let as := sieveAnswers (gParam r.image n) c.bytes
            let s := (List.range n.nout).foldl (fun s k => match gOut r.image node k with
              | none => s
              | some o => emitAnswer asn o rep (as.getD k []) s) s
            settle (pump asn (consume asn e rep s)))

/-! ### Felt (R310 to R325) -/

/-- Every unit of a class has left service: the replicas of the class that wait for a unit or are bound to one end
(R490). -/
def classEmptied (typ : Nat) (s : State) : State :=
  if !classOut s typ then s
  else s.compute.runs.foldl (fun s r => match s.run? r.asn with
    | none => s
    | some r => match r.replicas.find? fun x =>
        (gNode r.image x.node).typ == typ && x.state != .ended && (x.state == .running || chunkReady r x.node x.ix) with
      | none => s
      | some x => completeRun r.asn stInternal (some (x.node, 8, 0)) true s) s

/-- A compressor's output fails its verification (R314, R315). `kind` is 0 for a media grain and 1 for a block of
FELT_PACK. -/
def feltFailed (inst kind : Nat) (s : State) : State :=
  match s.units.felts.find? (·.ix == inst) with
  | none => s
  | some f =>
    let recent := (f.failures.filter fun x => s.rime.opTicks - x < ticksPerHour) ++ [s.rime.opTicks]
    let out := f.inService && recent.length ≥ 16
    let s := { s with units := { s.units with felts := s.units.felts.map fun g =>
      if g.ix = inst then { g with failures := recent, inService := g.inService && !out } else g } }
    let s := rimeDev 0x0307 sevNotice false (le 1 inst ++ le 1 kind ++ le 1 (if out then 1 else 0)) s
    if out then classEmptied ntFeltPack s else s

/-- Bind a stream to an instance and one of its four contexts (R320): none when it cannot be. -/
def feltBind (inst asn node rep : Nat) (s : State) : Option State :=
  match s.units.felts.find? (·.ix == inst), s.run? asn with
  | some f, some r =>
    match (r.rep node rep).unit with
    | some u => if u = inst ∧ f.inService then some s else none
    | none =>
      if !f.inService || f.contexts.length ≥ 4 then none
      else
        let s := { s with units := { s.units with felts := s.units.felts.map fun g =>
          if g.ix = inst then { g with contexts := g.contexts ++ [(asn, node, rep)] } else g } }
        some (updRep asn node rep (fun x => { x with unit := some inst }) s)
  | _, _ => none

/-- A stream gives its context back. -/
def feltUnbind (asn node rep : Nat) (s : State) : State :=
  { s with units := { s.units with felts := s.units.felts.map fun g =>
      { g with contexts := g.contexts.filter (· != (asn, node, rep)) } } }

/-- A replica ends its outputs, with a failure that takes effect when the end mark is consumed, or at once where
there is no output (R324, R393). -/
def endOutputs (asn node rep : Nat) (fail : Option (Nat × Nat)) (s : State) : State :=
  match s.run? asn with
  | none => s
  | some r =>
    let outs := (List.range (gNode r.image node).nout).filterMap (gOut r.image node)
    match fail with
    | some (st, d) =>
      if outs.isEmpty then failNode asn node rep st d s
      else
        let s := updRep asn node rep (fun x => { x with failing := fail }) s
        outs.foldl (fun s o =>
          if redealt r.image o && answersByChunk r.image node then updLane asn o rep (fun l => { l with ended := true }) s
          else emitEnd asn o rep s) s
    | none => outs.foldl (fun s o =>
        if redealt r.image o && answersByChunk r.image node then updLane asn o rep (fun l => { l with ended := true }) s
        else emitEnd asn o rep s) s

/-- One chunk, or the end, of a FELT_PACK replica in stream mode (R313, R314, R317, R320). -/
def packStream (inst asn node rep edge : Nat) (c : Option Chunk) (verified : Bool) (s : State) : State :=
  match s.run? asn with
  | none => s
  | some r =>
    let p := gParam r.image (gNode r.image node)
    let size := 2 ^ field p 2 1
    let o := (gOut r.image node 0).getD 0
    let x := r.rep node rep
    let fed := x.fed ++ (c.map (·.bytes)).getD []
    let s := match c with
      | some _ => consume asn edge rep s
      | none => s
    let done := ((s.run? asn).map fun r => atEnd r edge rep).getD false
    -- a block is complete when it is full, or when the stream ends
    let before := x.fed.length / size
    let after := if done then ceilDiv fed.length size else fed.length / size
    let bad := !verified && before < after
    let stored := if bad then x.stored ++ [before] else x.stored
    let out := packSent p (feltBlocks size stored fed) done
    let s := emitBytes asn o rep (out.drop x.produced) s
    let s := updRep asn node rep (fun x => { x with fed := fed, stored := stored, produced := max x.produced out.length }) s
    let s := if done then feltUnbind asn node rep (endOutputs asn node rep none (takeEnd asn edge rep s)) else s
    if bad then feltFailed inst 1 s else s

/-- One chunk of a FELT_PACK replica in chunk mode: one member or frame (R321). -/
def packChunk (inst asn node rep edge : Nat) (c : Chunk) (verified : Bool) (s : State) : State :=
  match s.run? asn with
  | none => s
  | some r =>
    let p := gParam r.image (gNode r.image node)
    let size := 2 ^ field p 2 1
    let o := (gOut r.image node 0).getD 0
    let stored := if verified then [] else List.range (ceilDiv c.bytes.length size)
    let s := consume asn edge rep (emitAnswer asn o rep (packSent p (feltBlocks size stored c.bytes) true) s)
    if verified then s else feltFailed inst 1 s

/-- FELT_PACK_CHUNK: a compressor takes one chunk, or the end, of a FELT_PACK replica; `verified` is the outcome of
the self-verification of the block it completes (R313, R314, R320, R321). -/
def execFeltPackChunk (t : Tick) (inst asn node rep : Nat) (verified : Bool) (s : State) :
    Host.Outcome State Fault Refusal :=
  let s := s.arrive t
  .next (match s.run? asn with
    | none => s
    | some r =>
      let n := gNode r.image node
      match gIn r.image node 0 with
      | none => s
      | some e =>
        let c := headChunk r e rep
        let stream := field (gParam r.image n) 1 1 == 0
        let poison := (c.map fun c => !c.poison.isEmpty).getD false
        if !s.serving || n.typ ≠ ntFeltPack || inst ≥ 4 || !chunkReady r node rep || !unitMayServe s 1 asn
          || !((s.units.felts.find? (·.ix == inst)).map (·.inService)).getD false then s
        else if poison then settle (failNode asn node rep 3 0 s)
        else
          let bytes := (c.map (·.bytes.length)).getD 0
          if stream then match feltBind inst asn node rep s with
            | none => s
            | some s1 => settle (pump asn (packStream inst asn node rep e c verified (startRep asn node rep (noteUnit 1 r.tenant bytes s1))))
          else
            let s := startRep asn node rep (noteUnit 1 r.tenant bytes s)
            match c with
            | some c => settle (pump asn (packChunk inst asn node rep e c verified s))
            | none => settle (pump asn (endOutputs asn node rep none (takeEnd asn e rep s))))

/-- OUTMAX of a run's FELT_UNPACK node (R322). -/
def outmaxOf (r : GRun) (node : Nat) : Nat :=
  let p := gParam r.image (gNode r.image node)
  if field p 3 1 / 4 % 2 = 1 then field r.args (field p 8 8) 8 else field p 8 8

/-- One chunk, or the end, of a FELT_UNPACK replica in stream mode (R318, R320, R322 to R325). -/
def unpackStream (asn node rep edge : Nat) (c : Option Chunk) (s : State) : State :=
  match s.run? asn with
  | none => s
  | some r =>
    let p := gParam r.image (gNode r.image node)
    let o := (gOut r.image node 0).getD 0
    let x := r.rep node rep
    let fed := x.fed ++ (c.map (·.bytes)).getD []
    let s := match c with
      | some _ => consume asn edge rep s
      | none => s
    let done := ((s.run? asn).map fun r => atEnd r edge rep).getD false
    let (out, st) := unpackOp p (outmaxOf r node) done (fed.length + 1) [] fed
    let s := emitBytes asn o rep (out.drop x.produced) s
    let s := updRep asn node rep (fun x => { x with fed := fed, produced := max x.produced out.length }) s
    let s := if done then takeEnd asn edge rep s else s
    match st with
    | .more => s
    | .ended => feltUnbind asn node rep (endOutputs asn node rep none s)
    | .fail d => feltUnbind asn node rep (endOutputs asn node rep (some (6, d)) s)

/-- One chunk of a FELT_UNPACK replica in chunk mode. -/
def unpackChunk (asn node rep edge : Nat) (c : Chunk) (s : State) : State :=
  match s.run? asn with
  | none => s
  | some r =>
    let p := gParam r.image (gNode r.image node)
    let o := (gOut r.image node 0).getD 0
    let (out, st) := unpackOp p (outmaxOf r node) true (c.bytes.length + 1) [] c.bytes
    let s := consume asn edge rep (emitAnswer asn o rep out s)
    match st with
    | .fail d => endOutputs asn node rep (some (6, d)) s
    | _ => s

/-- FELT_UNPACK_CHUNK: a decompressor takes one chunk, or the end, of a FELT_UNPACK replica (R318 to R325). -/
def execFeltUnpackChunk (t : Tick) (inst asn node rep : Nat) (s : State) : Host.Outcome State Fault Refusal :=
  let s := s.arrive t
  .next (match s.run? asn with
    | none => s
    | some r =>
      let n := gNode r.image node
      match gIn r.image node 0 with
      | none => s
      | some e =>
        let c := headChunk r e rep
        let stream := field (gParam r.image n) 1 1 == 0
        let poison := (c.map fun c => !c.poison.isEmpty).getD false
        if !s.serving || n.typ ≠ ntFeltUnpack || inst < 4 || inst > 7 || !chunkReady r node rep || !unitMayServe s 2 asn
          || !feltFree s || !((s.units.felts.find? (·.ix == inst)).map (·.inService)).getD false then s
        else if poison then settle (failNode asn node rep 3 0 s)
        else
          let bytes := (c.map (·.bytes.length)).getD 0
          if stream then match feltBind inst asn node rep s with
            | none => s
            | some s1 => settle (pump asn (unpackStream asn node rep e c (startRep asn node rep (noteUnit 2 r.tenant bytes s1))))
          else
            let s := startRep asn node rep (noteUnit 2 r.tenant bytes s)
            match c with
            | some c => settle (pump asn (unpackChunk asn node rep e c s))
            | none => settle (pump asn (endOutputs asn node rep none (takeEnd asn e rep s))))

/-! ### Jobs of the cipher lanes and digest engines (R377 to R386) -/

/-- Job keys. -/
def Job.is (j : Job) (asn node rep : Nat) : Bool := j.asn == asn && j.node == node && j.replica == rep

/-- A lane (0 to 3) or digest engine (4 to 7). -/
def unit? (s : State) (u : Nat) : Option Unit8 := (s.units.lanes ++ s.units.digests).find? (·.ix == u)

def updUnit (u : Nat) (g : Unit8 → Unit8) (s : State) : State :=
  let f (x : Unit8) : Unit8 := if x.ix = u then g x else x
  { s with units := { s.units with lanes := s.units.lanes.map f, digests := s.units.digests.map f } }

/-- A slot of the key store (R354). -/
def keySlot (s : State) (k : Nat) : KeySlot := (s.units.keys.find? (·.slot == k)).getD { slot := k }

def updSlot (k : Nat) (g : KeySlot → KeySlot) (s : State) : State :=
  let ks := if s.units.keys.any (·.slot == k) then s.units.keys else s.units.keys ++ [{ slot := k }]
  { s with units := { s.units with keys := ks.map fun x => if x.slot = k then g x else x } }

/-- Slots that a tenant holds or has claimed (R355). -/
def slotsHeld (s : State) (tenant : Nat) : Nat :=
  (s.units.keys.filter fun k => (k.valid && k.owner == tenant)
    || ((k.claimed.bind fun c => s.run? c.1).map (·.tenant)) == some tenant).length

/-- Bytes of a key by SIZE. -/
def keyBytes (size : Nat) : Nat := 32 + 16 * size

/-- The key of a job, with the slot and generation it is copied from, none when a check fails (R377).
DEDUCED: log entry 56. -/
def jobKey (s : State) (r : GRun) (node : Nat) : Option (List Byte × Nat × Nat) :=
  let n := gNode r.image node
  let p := gParam r.image n
  if n.typ = ntDigest then
    if field p 0 1 < 0x11 then some ([], 0, 0)
    else
      let k := keySlot s (field p 4 2)
      let g := field p 6 2
      if k.valid && k.owner == r.tenant && k.uHmac && k.size ≤ 2 && (g = 0 || g = k.gen)
      then some (k.key.take (keyBytes k.size), k.slot, k.gen) else none
  else
    let mode := field p 0 1
    let size := if mode ≥ 6 then 2 else 0
    if field p 1 1 = 2 then some (kdf s r.tenant 6 (slice p 0x10 32) (8 * keyBytes size), 0, 0)
    else
      let k := keySlot s (field p 2 2)
      let g := field p 4 2
      let used := if mode = 3 then k.uEnc || k.uDec else if [1, 4, 6].contains mode then k.uEnc else k.uDec
      if k.valid && k.owner == r.tenant && k.size == size && used && (g = 0 || g = k.gen)
      then some (k.key.take (keyBytes size), k.slot, k.gen) else none

/-- The IV of a CIPHER node (R375). -/
def jobIv (r : GRun) (node : Nat) : List Byte :=
  let p := gParam r.image (gNode r.image node)
  if field p 6 2 % 2 = 1 then slice r.args (field p 8 4) 16 else slice p 0x30 16

/-- A job is urgent when its run came from an urgent-class queue. -/
def jobUrgent (s : State) (asn : Nat) : Bool :=
  ((s.slots.find? (·.asn == asn)).map (·.urgent)).getD false

/-- Discard the context of a job wherever it stands (R362, R386). -/
def dropJob (asn node rep : Nat) (s : State) : State :=
  let f (x : Unit8) : Unit8 :=
    { x with job := x.job.filter fun j => !j.is asn node rep, store := x.store.filter fun j => !j.is asn node rep }
  { s with units := { s.units with
      lanes := s.units.lanes.map f, digests := s.units.digests.map f
      wrapped := s.units.wrapped.filter fun w => !w.2.2.is asn node rep
      lost := s.units.lost.filter (· != (asn, node, rep))
      waiting := s.units.waiting.filter fun w => w.2 != (asn, node, rep) } }

/-- A job ends with a unit status: what it gave before goes first (R393). -/
def failJob (asn node rep detail : Nat) (s : State) : State :=
  let s := dropJob asn node rep s
  let free (k : KeySlot) : KeySlot := if k.claimed = some (asn, node) then { k with claimed := none } else k
  let s := { s with units := { s.units with keys := s.units.keys.map free } }
  pump asn (endOutputs asn node rep (some (6, detail)) s)

/-- A job that copied a slot's key ends (R362). -/
def endKeyJobs (slot : Nat) (s : State) : State :=
  let js := ((s.units.lanes ++ s.units.digests).flatMap fun u => u.job.toList ++ u.store) ++ s.units.wrapped.map (·.2.2)
  (js.filter fun j => slot != 0 && j.kslot == slot).foldl (fun s j => failJob j.asn j.node j.replica 0x31 s) s

/-- Save the job of a unit: into its store, or wrapped in DRAM when the store is full (R382, R384).
DEDUCED: log entry 57. -/
def saveJob (u : Nat) (s : State) : State :=
  match unit? s u with
  | none => s
  | some x => match x.job with
    | none => s
    | some j =>
      let j := { j with quantum := 0 }
      let s := if x.store.length + x.withdrawn < 16 then updUnit u (fun x => { x with job := none, store := x.store ++ [j] }) s
        else
          let s := updUnit u (fun x => { x with job := none }) s
          { s with units := { s.units with
            wraps := s.units.wraps + 1, wrapped := s.units.wrapped ++ [(decide (u ≥ 4), s.units.wraps, j)] } }
      noteJobs j.asn s

/-- A job of the class that this unit could take: it waits for its first unit, is wrapped, or stands in this unit's
own store (R385). -/
def takeable (s : State) (u asn node rep : Nat) : Bool :=
  let elsewhere := (s.units.lanes ++ s.units.digests).any fun x => x.ix != u && x.store.any fun j => j.is asn node rep
  !elsewhere

/-- The job that a unit takes next (R380): urgent jobs in the order they became ready, then R242.
DEDUCED: log entry 57. -/
def nextJob (s : State) (u : Nat) : Option (Nat × Nat × Nat) :=
  let cands := (s.units.waiting.filter fun w => w.1 == decide (u ≥ 4) && takeable s u w.2.1 w.2.2.1 w.2.2.2).map (·.2)
  match cands.find? fun w => jobUrgent s w.1 with
  | some w => some w
  | none =>
    let rs := s.compute.runs.filter fun r => cands.any (·.1 == r.asn)
    match turnTenant s (if u ≥ 4 then 5 else 4) (rs.map (·.tenant)) with
    | none => none
    | some t => (oldestRun (rs.filter (·.tenant == t))).bind fun r => cands.find? (·.1 == r.asn)

/-- Bytes of the quantum (R381). -/
abbrev quantumBytes : Nat := 262144

/-- The running job of a unit stands at a preemption point (R381). -/
def preemptible (s : State) (u : Nat) : Bool :=
  match unit? s u with
  | none => false
  | some x => match x.job, s.run? ((x.job.map (·.asn)).getD 0) with
    | some j, some r =>
      let ws := s.units.waiting.filter fun w => w.1 == decide (u ≥ 4)
      ws.any (fun w => !j.urgent && jobUrgent s w.2.1) || (!ws.isEmpty && (j.quantum ≥ quantumBytes || !jobReady s r j.node j.replica))
    | _, _ => false

/-- Start a job on a unit: its key is copied or derived, and its claim is made (R377, R390). DEDUCED: log entry 57. -/
def startJob (u asn node rep : Nat) (s : State) : State :=
  match s.run? asn with
  | none => s
  | some r =>
    let n := gNode r.image node
    let p := gParam r.image n
    let s := startRep asn node rep s
    let outslot := field p 8 2
    let claims := n.typ = ntDigest && field p 1 1 = 1
    let free := !(keySlot s outslot).valid && (keySlot s outslot).claimed.isNone
      && slotsHeld s r.tenant < ((s.tenant? r.tenant).map (·.cfg.keyQuota)).getD 0
    match jobKey s r node with
    | none => failJob asn node rep 0x31 s
    | some (key, ks, kg) =>
      if claims && !free then failJob asn node rep 0x31 s
      else
        let s := if claims then updSlot outslot (fun k => { k with claimed := some (asn, node) }) s else s
        let j : Job :=
          { asn := asn, node := node, replica := rep, tenant := r.tenant, urgent := jobUrgent s asn
            mode := field p 0 1, kslot := ks, kgen := kg, key := key, iv := if n.typ = ntDigest then [] else jobIv r node }
        updUnit u (fun x => { x with job := some j }) s

/-- JOB_RESUME: a waiting or saved job takes a free unit, or one whose job stands at a preemption point; `tagOk` is
the outcome of a wrapped context's tag (R380, R381, R385). DEDUCED: log entry 57. -/
def execJobResume (t : Tick) (u asn node rep : Nat) (tagOk : Bool) (s : State) : Host.Outcome State Fault Refusal :=
  let s := s.arrive t
  .next (match unit? s u, s.run? asn with
    | some x, some r =>
      if !s.serving || !x.inService || !(x.job.isNone || preemptible s u) || nextJob s u ≠ some (asn, node, rep) then s
      else
        let s := saveJob u s
        let s := { s with units := { s.units with waiting := s.units.waiting.filter fun w => w.2 != (asn, node, rep) } }
        let s := passTurn (if u ≥ 4 then 5 else 4) r.tenant s
        let stored := ((unit? s u).map (·.store)).getD []
        let resume (j : Job) (s : State) : State :=
          let s := dropJob asn node rep s
          if j.kslot ≠ 0 && (keySlot s j.kslot).gen ≠ j.kgen then failJob asn node rep 0x31 s
          else updUnit u (fun x => { x with job := some { j with quantum := 0 } }) s
        settle (match stored.find? fun j => j.is asn node rep with
        | some j => resume j s
        | none => match s.units.wrapped.find? fun w => w.2.2.is asn node rep with
          | some w =>
            if tagOk && !s.units.lost.contains (asn, node, rep) then resume w.2.2 s
            else failJob asn node rep 0x34 (rimeTen 0x0404 sevWarning r.tenant (le 1 u ++ le 1 0) s)
          | none => startJob u asn node rep s)
    | _, _ => s)

/-- The next bytes of a job's input, at most `n`, and whether they are poisoned. DEDUCED: log entry 57. -/
def jobTake (r : GRun) (edge rep n : Nat) : List Byte × Bool :=
  match headChunk r edge rep with
  | none => ([], false)
  | some c =>
    let taken := (r.lane edge (inLane r.image edge rep (r.turn edge))).taken
    ((c.bytes.drop taken).take n, c.poison.any fun w => taken < w + 8 && w < taken + n)

/-- The bytes of a job's input are consumed. DEDUCED: log entry 57. -/
def jobConsume (asn edge rep n : Nat) (s : State) : State :=
  match s.run? asn with
  | none => s
  | some r => match headChunk r edge rep with
    | none => s
    | some c =>
      let k := inLane r.image edge rep (r.turn edge)
      if (r.lane edge k).taken + n ≥ c.bytes.length then consume asn edge rep s
      else updLane asn edge k (fun l => { l with taken := l.taken + n }) s

/-- A CIPHER stream ends: the tag, the length rule, and the end mark (R375, R378). -/
def cipherEnd (u : Nat) (j : Job) (size aad edge : Nat) (s : State) : State :=
  let s := updUnit u (fun x => { x with job := none }) (takeEnd j.asn edge j.replica s)
  if j.mode = 2 then
    if gcmGood j.key j.iv aad j.input then
      endOutputs j.asn j.node j.replica none (updRep j.asn j.node j.replica (fun x => { x with bulkDone := true }) s)
    else failNode j.asn j.node j.replica 6 0x30 s
  else endOutputs j.asn j.node j.replica (if laneLengthBad j.mode size j.input then some (6, 0x32) else none) s

/-- One unit of a running job, or the end of its input: what it does with the input taken. DEDUCED: log entry 57. -/
def jobStep (u n : Nat) (finish_ : Job → Nat → State → State) (output : Job → GRun → Nat → Bool → List Byte) (s : State) : State :=
  match unit? s u with
  | none => s
  | some x => match x.job with
    | none => s
    | some j => match s.run? j.asn with
      | none => s
      | some r => match gIn r.image j.node 0 with
        | none => s
        | some e =>
          let (bs, poison) := jobTake r e j.replica n
          if !s.serving || !x.inService || !jobReady s r j.node j.replica then s
          else if poison then settle (failNode j.asn j.node j.replica 3 0 (dropJob j.asn j.node j.replica s))
          else
            let s := jobConsume j.asn e j.replica bs.length s
            let done := ((s.run? j.asn).map fun r => atEnd r e j.replica).getD false
            let j := { j with input := j.input ++ bs, quantum := j.quantum + bs.length }
            let out := output j r e done
            let s := match gOut r.image j.node 0 with
              | some o => emitBytes j.asn o j.replica (out.drop j.emitted) s
              | none => s
            let j := { j with emitted := max j.emitted out.length }
            let cls := if u ≥ 4 then 5 else 4
            let mine (k : Bool × Nat × Nat × Nat) : Bool := k.1 == (cls == 5)
            let ours := s.units.waiting.filter fun k => mine k && ((s.run? k.2.1).map (·.tenant)) == some r.tenant
            let s := noteWaiting cls r.tenant ours.length (s.units.waiting.filter mine).length s
            let s := countUnit cls r.tenant bs.length (updUnit u (fun x => { x with job := some j }) s)
            let s := if done then finish_ j e s else s
            let s := pump j.asn s
            settle (if preemptible s u then saveJob u s else s)

/-- CIPHER_UNIT: a general lane processes one 64-byte unit of its job (R373, R381). -/
def execCipherUnit (t : Tick) (lane : Nat) (s : State) : Host.Outcome State Fault Refusal :=
  let s := s.arrive t
  let size (r : GRun) (e : Nat) : Nat := 2 ^ (gEdge r.image e).clog
  let aad (r : GRun) (j : Job) : Nat := field (gParam r.image (gNode r.image j.node)) 0xC 4
  .next (if lane ≥ 4 then s
    else jobStep lane 64
      (fun j e s => match s.run? j.asn with
        | none => s
        | some r => cipherEnd lane j (size r e) (aad r j) e s)
      (fun j r e done => laneOut j.mode j.key j.iv (aad r j) (size r e) (gNode r.image j.node).reps j.replica j.input done) s)

/-- A DIGEST message ends: the comparison, and the result kept for the node's end (R389 to R392).
DEDUCED: log entry 57. -/
def digestEnd (u : Nat) (j : Job) (edge : Nat) (s : State) : State :=
  match s.run? j.asn with
  | none => s
  | some r =>
    let p := gParam r.image (gNode r.image j.node)
    let n := (algBytes j.mode).getD 32
    let v := pad n (Config.digest j.mode j.key j.input)
    let cmp := field p 3 1
    let s := updUnit u (fun x => { x with job := none }) (takeEnd j.asn edge j.replica s)
    if cmp > 0 && v.take cmp != slice r.args (field p 12 4) cmp then failJob j.asn j.node j.replica 0x33 s
    else endOutputs j.asn j.node j.replica none (updRep j.asn j.node j.replica (fun x => { x with result := v }) s)

/-- DIGEST_BLOCK: a digest engine absorbs one block of its job's message, at most 128 bytes (R387, R388). `engine` is
0 to 3. -/
def execDigestBlock (t : Tick) (engine : Nat) (s : State) : Host.Outcome State Fault Refusal :=
  let s := s.arrive t
  .next (if engine ≥ 4 then s
    else jobStep (engine + 4) 128 (fun j e s => digestEnd (engine + 4) j e s) (fun j _ _ _ => j.input) s)

end Sys2Proof.Machine
end

