-- ==== Sys2Proof/Machine/Media.lean ====
section
/-! DEFINITION. Media events (file 04): reading and its recovery steps, draining, program and erase failures, relocation,
isolation of dies, the journal, map checkpoints and map pages. -/

namespace Sys2Proof.Machine

/-- LED1 is lit for 50 ms after a media read or program (R564). DEDUCED: log entry 46. -/
def lightLed (s : State) : State := { s with pins := { s.pins with led1Until := some (s.now + 50 * ticksPerMs) } }

/-! ### The end of a grain's reads (R128, R147, R152, R223, R312) -/

/-- A block whose copy reads began inside a STILL window holds the run: its copies are programmed from the next WORK window
on (R55). -/
def earlyRun (s : State) (r : Run) : Bool :=
  match band? s r.serial with
  | none => false
  | some b => r.pages.any fun p => match b.blockOn p.2 with
    | some (d, k) => (block? s d k).early
    | none => false

/-- Place the copies and drained grains that wait: copies outside MAINT windows, those of R55 in WORK windows. -/
def placeWaiting (s : State) : State :=
  s.media.unplaced.foldl (fun s x => match s.ns? x.run.nsid with
    | none => { s with media := { s.media with unplaced := s.media.unplaced.filter (·.run.nsid != x.run.nsid) } }
    | some n =>
      let early := match x.source with
        | none => false
        | some e => ((runOf s x.run.grain e).map (earlyRun s)).getD false
      if x.source.isSome && (firnActs s == some .maint || (early && firnActs s != some .work)) then s
      else placeGroup n x.run.grain s) s

/-- A grain's frames have been read: the command, chain, drain or copy they were for goes on. -/
def grainRead (f : Fetch) (s : State) : State :=
  match f.use with
  | .host asn _ g => match s.slots.find? (·.asn == asn) with
    | none => s
    | some sl =>
      let rest := sl.reads.erase g
      let s := s.setSlot sl.ix fun sl => { sl with reads := rest, extra := sl.extra || f.step > 1 }
      if rest.isEmpty && sl.phase == .media then readMediaDone sl.ix s else s
  | .node asn node _ g => pump asn (s.setRun asn fun r => { r with dieReads := r.dieReads.erase (node, g) })
  | .merge asn lba nsid g _ verified =>
    match s.ns? nsid, s.staged.find? fun q => q.asn == asn && q.nsid == nsid && q.lba == lba && !q.tomb with
    | some n, some p => commitReady (placeGroup n g (encodeGrain p n g verified s))
    | some n, none => placeGroup n g s
    | none, _ => s
  | .move nsid g => placeWaiting (encodeCopy nsid g f.entry s)
  | _ => s

/-- A grain's frames could not be restored: its LBAs fail the command or the node they were for; a drain goes on without
them, and the LBAs that no staged version covers join the damaged-LBA list; a copy is given up (R114, R148, R223).
DESIGN CHOICE: log entry 97. -/
def grainLost (f : Fetch) (s : State) : State :=
  match f.use with
  | .host asn nsid g => match s.slots.find? (·.asn == asn), s.ns? nsid with
    | some sl, some n =>
      let s := loseLba sl.ix (firstIn n sl.sqe.body g) (s.setSlot sl.ix fun sl => { sl with reads := sl.reads.erase g })
      if (sl.reads.erase g).isEmpty && sl.phase == .media then readMediaDone sl.ix s else s
    | _, _ => s
  | .node asn node nsid g => match s.run? asn, s.ns? nsid with
    | some _, some n =>
      failNode asn node 0 4 0 (s.setRun asn fun r => { r with
        failLba := g * lbasPerGrain n, dieReads := r.dieReads.erase (node, g) })
    | _, _ => s
  | .merge asn lba nsid g _ _ =>
    match s.ns? nsid, s.staged.find? fun q => q.asn == asn && q.nsid == nsid && q.lba == lba && !q.tomb with
    | some n, some p =>
      let gone := ((grainLbas n g).filter fun l => (mergedVersion s n p l).isNone).map fun l => (nsid, l)
      grainRead f (gone.foldl (fun s l => enterDamaged l.1 l.2 s) s)
    | _, _ => s
  | .move nsid g =>
    let stuck (r : Run) : Run := if r.nsid = nsid ∧ r.grain = g ∧ r.frame = f.entry.frame then { r with lost := true } else r
    let s := { s with media := { s.media with runs := s.media.runs.map stuck } }
    match s.ns? nsid with
    | some n => placeGroup n g s
    | none => s
  | _ => s

/-- The stored run that a read is for. -/
def fetchRun (s : State) (f : Fetch) : Option Run :=
  s.media.runs.find? fun r => r.serial == f.serial && r.frame == f.entry.frame

/-- Every page of a grain has decoded. Grains stored compressed go to a decompressor; copies move as stored (R152, R310).
DESIGN CHOICE: log entry 37. -/
def fetchReady (f : Fetch) (s : State) : State :=
  let move := match f.use with
    | .move .. => true
    | _ => false
  if f.entry.raw || move then grainRead f (dropReads (· == f.use) s)
  else { s with media := { s.media with fetches := s.media.fetches.map fun x => if x.use = f.use then { x with inflating := true } else x } }

/-- The grain that a read is for. -/
def ReadUse.grain : ReadUse → Option (Nat × Nat)
  | .host _ n g | .node _ _ n g | .merge _ _ n g _ _ | .move n g => some (n, g)
  | _ => none

/-! ### Samples (R160) -/

/-- The blocks that hold data, and those that the retention pass in progress has read. -/
def passBlocks (s : State) : List (DieId × Nat) × List (DieId × Nat) :=
  let used := s.media.bands.flatMap fun b => (b.blocks.filter fun x => b.passed.any (·.2 == x.1)).map fun x =>
    ((⟨x.1, x.2.1⟩ : DieId), x.2.2)
  (used, used.filter fun x => (block? s x.1 x.2).pass == s.media.pass)

/-- A sample ends: its block is queued for refresh when the read corrected more than 60 % of what hard decision can, or
needed a later step (R160). The pass ends when it has read every block. DEDUCED: log entry 38. -/
def sampleDone (d : DieId) (num : Nat) (pass bad : Bool) (s : State) : State :=
  let s := setBlock d num (fun b => { b with
    sampledAt := s.rime.opTicks, pass := if pass then s.media.pass else b.pass }) s
  let (used, done) := passBlocks s
  let s :=
    if done.length ≥ used.length then { s with media := { s.media with
      pass := s.media.pass + 1, passSince := s.hours, retentionHours := s.hours - s.media.passSince, retentionProgress := 0 } }
    else { s with media := { s.media with retentionProgress := done.length * 10000 / max 1 used.length } }
  if bad then queueRefresh d num { s with media := { s.media with refreshBySample := s.media.refreshBySample + 1 } } else s

/-! ### Page reads (R147, R148, R156, R583) -/

/-- The block on which a page lies. -/
def pageBlock (s : State) (serial ch : Nat) : Option (DieId × Nat) := (band? s serial).bind (·.blockOn ch)

/-- A page has decoded, for a read other than a rebuild's member. -/
def pageRead (u : ReadUse) (serial row ch step : Nat) (weak : Bool) (s : State) : State :=
  match u with
  | .sample pass => match pageBlock s serial ch with
    | some (d, k) => sampleDone d k pass (weak || step > 1) s
    | none => s
  | u => match s.media.fetches.find? (·.use == u) with
    | none => s
    | some f =>
      let f := { f with left := f.left.erase (row, ch), step := max f.step step }
      let s := { s with media := { s.media with fetches := s.media.fetches.map fun x => if x.use = u then f else x } }
      if f.left.isEmpty && !f.inflating then fetchReady f s else s

/-- A page cannot be restored, for a read other than a rebuild's member. -/
def pageLost (u : ReadUse) (serial ch : Nat) (s : State) : State :=
  match u with
  | .sample pass => match pageBlock s serial ch with
    | some (d, k) => sampleDone d k pass true s
    | none => s
  | u => match s.media.fetches.find? (·.use == u) with
    | none => s
    | some f => grainLost f (dropReads (· == u) s)

/-- A page has decoded: a rebuild whose members have all decoded gives its page (R148). -/
def pageGood (u : ReadUse) (serial row ch step : Nat) (weak : Bool) (s : State) : State :=
  match u with
  | .member k => match s.media.rebuilding.find? (·.id == k) with
    | none => s
    | some b =>
      let left := b.left.erase ch
      if left.isEmpty then
        pageRead b.use b.serial b.row b.ch 21 false
          { s with media := { s.media with rebuilding := s.media.rebuilding.filter (·.id != k) } }
      else { s with media := { s.media with
        rebuilding := s.media.rebuilding.map fun x => if x.id = k then { x with left := left } else x } }
  | u => pageRead u serial row ch step weak s

/-- A page fails every step it may take: with a member, the page under rebuild is lost too (R148). -/
def pageFails (u : ReadUse) (serial ch : Nat) (s : State) : State :=
  match u with
  | .member k => match s.media.rebuilding.find? (·.id == k) with
    | none => s
    | some b => pageLost b.use b.serial b.ch (dropReads (fun u => u == .member k)
        { s with media := { s.media with rebuilding := s.media.rebuilding.filter (·.id != k) } })
  | u => pageLost u serial ch s

/-- Step 4 for a page: its rebuild begins, and its block is queued for refresh (R147, R148, R167). -/
def rebuildPage (u : ReadUse) (serial row ch : Nat) (s : State) : State :=
  let s := match pageBlock s serial ch with
    | some (d, k) => if (s.die d).isolated.isSome then s else queueRefresh d k s
    | none => s
  match startRebuild u serial row ch s with
  | (s, .asked) => s
  | (s, .decoded) => pageRead u serial row ch 21 false s
  | (s, .lost) => pageLost u serial ch s

/-- A page read of a die in the running operating hour, and whether it is a retry's first: when an hour ends in which
more than 1 % of the reads came to a retry, the die awaits recalibration (R554). DESIGN CHOICE: log entry 85. -/
def countHour (d : DieId) (k : Nat) (s : State) : State :=
  let h := s.hours
  let again := if k = 2 then 1 else 0
  s.setDie d fun x =>
    if x.hourReads.1 = h then { x with hourReads := (h, x.hourReads.2.1 + 1, x.hourReads.2.2 + again) }
    else { x with
      recalDue := x.recalDue || x.hourReads.2.2 * 100 > x.hourReads.2.1
      hourReads := (h, 1, again) }

/-- A run that relocation may copy: its entry is current, its frames can be read, and nothing else writes its grain. -/
def movable (s : State) (r : Run) : Bool :=
  (match s.ns? r.nsid with
  | none => false
  | some n => let e := entryOf n r.grain; !e.dealloc && e.frame == r.frame && runOf s r.grain e == some r)
  && !r.lost && !grainBusy s r.nsid r.grain

/-- Begin to copy a grain: its frames are read as stored (R152). -/
def moveRun (s : State) (r : Run) : State :=
  match s.ns? r.nsid with
  | none => s
  | some n =>
    let e := entryOf n r.grain
    if !pageResident n (pageOf r.grain) then askPages n.nsid [pageOf r.grain] s
    else match askFetch (.move n.nsid r.grain) r e s with
      | (s, .asked) => s
      | (s, .decoded) => placeWaiting (encodeCopy n.nsid r.grain e s)
      | (s, .lost) => grainLost { use := .move n.nsid r.grain, entry := e, serial := r.serial, left := [] } s

/-- Begin to copy runs, with the rest of their 16 KiB groups, while they fit in a number of frames; gives the frames taken
(R121, R152). -/
def moveRuns : Nat → List Run → State → State × Nat
  | _, [], s => (s, 0)
  | room, r :: rs, s =>
    if !movable s r then moveRuns room rs s
    else
      let group := match s.ns? r.nsid with
        | none => []
        | some n => (grainGroup n r.grain).filterMap fun g => (runOf s g (entryOf n g)).filter (movable s)
      let len := sumBy (·.len) group
      if room < len then (s, 0)
      else
        let (s, k) := moveRuns (room - len) rs (group.foldl moveRun s)
        (s, k + len)

/-- The copy reads of a block that a STILL window's reads take past 1.5 times its threshold begin at once (R55). -/
def earlyCopy (d : DieId) (num : Nat) (s : State) : State :=
  let b := block? s d num
  if firnActs s != some .still || b.early || 2 * b.reads ≤ 3 * threshold s d num then s
  else
    let s := setBlock d num (fun b => { b with early := true }) s
    (moveRuns 65536 (s.media.runs.filter fun r => r.onBlock s d num) s).1

/-- A page read of a die ends (R147, R148, R156, R583): each read counts on its block; what does not decode goes to its next
step; the outcome of step 3 is that of its third read. DESIGN CHOICE: log entry 37. -/
def pageEnds (d : DieId) (u : ReadUse) (serial row ch step : Nat) (decoded weak : Bool) (s : State) : State :=
  let num := ((pageBlock s serial ch).map (·.2)).getD 0
  let s := earlyCopy d num (countRead d num (if step ≤ 17 then countHour d step s else s))
  let s := if step = 18 then queueRefresh d num s else s
  if decoded && step ≠ 18 && step ≠ 19 then pageGood u serial row ch step weak s
  else if step < 20 then dieAsk d (.read u serial row ch (step + 1)) s
  else match u with
    | .member _ => pageFails u serial ch s
    | u => rebuildPage u serial row ch s

/-- A read, or a recalibration, of a die ends. DESIGN CHOICE: log entry 37. -/
def readEnds (d : DieId) (o : DieOp) (decoded weak : Bool) (s : State) : State :=
  let s := lightLed (s.setDie d fun x => { x with op := none, pollAt := none })
  let s := match o with
    | .recal => s.setDie d fun x => { x with recalDue := false, calibratedAt := s.rime.opTicks }
    | .read u serial row ch step => pageEnds d u serial row ch step decoded weak s
    | _ => s
  dieKick d s

/-- DIE_READ_COMPLETE: the page's outcome decides the next step of its read (R147, R160). DESIGN CHOICE: log entry 94. -/
def execDieReadComplete (t : Tick) (d : DieId) (page : PageOutcome) (s : State) : Host.Outcome State Fault Refusal :=
  let s := s.arrive t
  .next (match (s.die d).op with
    | none => s
    | some o => if DieOp.isRead o && !(s.die d).resetting then settle (readEnds d o page.decoded page.weak s)
      else s)

/-- A decompressor may serve the grain: one of host work at once, one of a run in the order of R242, and it is counted.
DEDUCED: log entry 63. -/
def inflateServed (f : Fetch) (s : State) : Option State :=
  match inflatesFor f with
  | none => some s
  | some asn => match s.run? asn with
    | none => some s
    | some r =>
      if !feltFree s || !unitMayServe s 2 asn then none
      else some (noteUnit 2 r.tenant (((f.use.grain.bind fun g => s.ns? g.1).map grainBytes).getD 0) s)

/-- GRAIN_INFLATE: a decompressor inflates a grain whose frames have decoded; with a malformed one its pages go on from the
rebuild, and after that the read ends (R310, R312). DEDUCED: log entry 63. -/
def execGrainInflate (t : Tick) (nsid grain : Nat) (ok : Bool) (s : State) : Host.Outcome State Fault Refusal :=
  let s := s.arrive t
  .next (match s.media.fetches.find? fun f => f.inflating && f.use.grain == some (nsid, grain) with
    | none => s
    | some f =>
      if (s.units.felts.filter fun f => f.ix ≥ 4 && f.inService).isEmpty then s
      else match inflateServed f s with
      | none => s
      | some s =>
      if ok then settle (grainRead f (dropReads (· == f.use) s))
      else
        let t := ((s.ns? nsid).map (·.tenant)).getD 0
        let s := rimeTen 0x0308 sevError t (le 4 nsid ++ le 8 grain) s
        match fetchRun s f, decide (f.step < 21) with
        | some r, true =>
          let f := { f with left := r.pages, step := 21, inflating := false }
          let s := { s with media := { s.media with fetches := s.media.fetches.map fun x => if x.use = f.use then f else x } }
          settle (r.pages.foldl (fun s p => rebuildPage f.use r.serial p.1 p.2 s) s)
        | _, _ => settle (grainLost f (dropReads (· == f.use) s)))

/-! ### Draining (R126, R128, R151, R245, R313) -/

/-- Drain one grain of a piece: at once where the piece, or other staged data, covers it whole; after its frames have been
read where it does not (R128). -/
def drainOne (p : Staged) (n : Ns) (grain inst : Nat) (verified : Bool) (s : State) : State :=
  if mergeReads s n p grain then
    let u : ReadUse := .merge p.asn p.lba n.nsid grain inst verified
    match fetchEntry u n grain s with
    | (s, .asked) => s
    | (s, .decoded) => encodeGrain p n grain verified s
    | (s, .lost) => grainLost { use := u, entry := entryOf n grain, serial := 0, left := [] } s
  else encodeGrain p n grain verified s

/-- Drain a grain with the rest of its 16 KiB group where the namespace is still class: each grain of the group from its
oldest staged piece, or as stored (R121). -/
def drainGroup (n : Ns) (grain inst : Nat) (verified : Bool) (s : State) : State :=
  let s := (grainGroup n grain).foldl (fun s g => match drainable s n g, runOf s g (entryOf n g) with
    | some p, _ => drainOne p n g inst (verified || g != grain) s
    | none, some r => if movable s r then moveRun s r else s
    | none, none => s) s
  placeGroup n grain s

/-- GRAIN_DRAIN: the oldest staged piece that covers the grain is compressed by an instance, which verifies what it gives,
and goes into an open band in band order. A block that fails verification, and any grain while no compressor is in service,
is stored RAW (R117, R126, R128, R151, R245, R313 to R315). DESIGN CHOICE: log entry 36. -/
def execGrainDrain (t : Tick) (nsid grain : Nat) (unit : Compressor) (s : State) : Host.Outcome State Fault Refusal :=
  let s := s.arrive t
  .next (match s.ns? nsid with
    | none => s
    | some n =>
      let packers := s.units.felts.filter fun f => f.ix < 4 && f.inService
      if (drainable s n grain).isNone || s.fw.pauseSince.isSome then s
      else if ((drainable s n grain).map (pinsShort s n grain)).getD false then s.setCount n.tenant fun c => { c with delayedPins := c.delayedPins + 1 }
      else if !s.serving || n.key.isNone || freeShare s (domainOf grain) < 150
        || (grainGroup n grain).any (grainBusy s nsid) then s
      else if !pageResident n (pageOf grain) then askPages nsid [pageOf grain] s
      else if packers.isEmpty then settle (commitReady (drainGroup n grain unit.inst false s))
      else if !(packers.any (·.ix == unit.inst)) then s
      else
        let s := if unit.verified then s else feltFailed unit.inst 0 s
        settle (commitReady (drainGroup n grain unit.inst unit.verified s)))

/-! ### Retiring and erasing (R153, R161, R164) -/

/-- The runs that a map entry, a pin or a read points at. -/
def liveRuns (s : State) (p : Run → Bool) : List Run := s.media.runs.filter fun r => p r && runLive s r

/-- An entry that a pending journal record replaced still names the run. -/
def undoLive (s : State) (r : Run) : Bool :=
  s.media.undo.any fun u => u.1 == r.nsid && u.2.1 == r.grain && !u.2.2.dealloc && u.2.2.frame == r.frame

/-- A block leaves service: one spare of its channel is used, and the journal records it (R161, R164, R168, R189).
DEDUCED: log entry 38. -/
def retireBlock (d : DieId) (num : Nat) (s : State) : State :=
  let s := setBlock d num (fun b => { b with retired := true, failed := none, refresh := false, early := false }) s
  let cut (b : Band) : Band := { b with blocks := b.blocks.filter fun x => !(x.1 == d.ch && x.2.1 == d.pos && x.2.2 == num) }
  blocksLost none (journalAdd 1 { s with media := { s.media with
    retired := s.media.retired + 1
    spareUsed := bump d.ch 1 s.media.spareUsed
    bands := s.media.bands.map cut
    refreshQueue := s.media.refreshQueue.filter (· != (d, num)) } })

/-- Failed blocks into which nothing points any more retire, with their record (R161). DEDUCED: log entry 38. -/
def retireFailed (s : State) : State :=
  (s.media.blocks.filter (·.failed.isSome)).foldl (fun s b => match b.failed with
    | none => s
    | some (serial, pages, grains) =>
      if (liveRuns s fun r => r.onBlock s b.die b.num).isEmpty then
        rimeDev 0x0301 sevNotice false
          (le 1 b.die.ch ++ le 1 b.die.pos ++ le 2 b.num ++ le 4 serial ++ le 2 pages ++ le 2 grains) (retireBlock b.die b.num s)
      else s) s

/-- An erase of a block is asked for or under way. -/
def erasing (s : State) (d : DieId) (num : Nat) : Bool :=
  s.media.waiting.contains (d, .erase num)
    || s.media.dies.any fun x => x.id == d && (x.op == some (.erase num) || x.held == some (.erase num))

/-- A program of a band is asked for or under way. -/
def programming (s : State) (serial : Nat) : Bool :=
  let is (o : DieOp) : Bool := match o with
    | .program k _ _ => k == serial
    | _ => false
  s.media.waiting.any (is ·.2) || s.media.dies.any fun d => (d.op.map is).getD false || (d.held.map is).getD false

/-- Erase the closed bands that no entry points into (R153). -/
def eraseDead (s : State) : State :=
  (s.media.bands.filter (·.closed)).foldl (fun s b =>
    if (s.media.runs.any fun r => r.serial == b.serial && (runLive s r || undoLive s r))
      || (s.media.placed.any fun p => p.run.serial == b.serial) || programming s b.serial
      || (b.blocks.any fun x => (block? s ⟨x.1, x.2.1⟩ x.2.2).failed.isSome) then s
    else
      let s := { s with media := { s.media with runs := s.media.runs.filter (·.serial != b.serial) } }
      if b.blocks.isEmpty then { s with media := { s.media with bands := s.media.bands.filter (·.serial != b.serial) } }
      else b.blocks.foldl (fun s x =>
        let d : DieId := ⟨x.1, x.2.1⟩
        if erasing s d x.2.2 || (s.die d).isolated.isSome then s else dieAsk d (.erase x.2.2) s) s) s

/-- What a queued victim holds. -/
def Victim.holds (s : State) (v : Victim) (r : Run) : Bool := match v with
  | .band k => r.serial == k
  | .block d k => r.onBlock s d k
  | .die d => r.onDie s d

/-- What follows once entries have moved: retired blocks, finished victims, dead bands. DEDUCED: log entry 38. -/
def afterMove (s : State) : State :=
  let s := retireFailed s
  let done (x : DieId × Nat) : Bool := (liveRuns s fun r => r.onBlock s x.1 x.2).isEmpty
  let clear (b : Block) : Block := if b.refresh && done (b.die, b.num) then { b with refresh := false, early := false } else b
  let s := { s with media := { s.media with
    blocks := s.media.blocks.map clear
    refreshQueue := s.media.refreshQueue.filter fun x => !done x
    relocQueue := s.media.relocQueue.filter fun v => !(liveRuns s (v.holds s)).isEmpty } }
  eraseDead s

/-- An erase ends: its block is free again, or it retires (R155, R164). DESIGN CHOICE: log entry 37. -/
def eraseEnds (d : DieId) (num : Nat) (ok : Bool) (s : State) : State :=
  let s := s.setDie d fun x => { x with
    op := none, pollAt := none, suspendAsked := none, late := false, wasSuspended := false }
  let cut (b : Band) : Band := { b with blocks := b.blocks.filter fun x => !(x.1 == d.ch && x.2.1 == d.pos && x.2.2 == num) }
  let s :=
    if ok then
      let s := setBlock d num (fun b => { b with
        erases := b.erases + 1, reads := 0, refresh := false, early := false, erasePending := false }) s
      { s with media := { s.media with bands := s.media.bands.map cut } }
    else
      rimeDev 0x0302 sevNotice false (le 1 d.ch ++ le 1 d.pos ++ le 2 num)
        (retireBlock d num { s with media := { s.media with eraseFails := s.media.eraseFails + 1 } })
  dieKick d (placeWaiting (eraseDead s))

/-- ERASE_COMPLETE. -/
def execEraseComplete (t : Tick) (d : DieId) (ok : Bool) (s : State) : Host.Outcome State Fault Refusal :=
  let s := s.arrive t
  .next (match (s.die d).op with
    | some (.erase num) => if (s.die d).resetting then s else settle (eraseEnds d num ok s)
    | _ => s)

/-! ### Program failures (R118, R161 to R163) -/

/-- The grains of a band that are not yet verified leave it: they wait for a place in another band of the same kind. -/
def unplace (hit : Placed → Bool) (failed : Bool) (s : State) : State :=
  let out := (s.media.placed.filter hit).map fun p => if failed then { p with failedIn := p.run.serial :: p.failedIn } else p
  { s with media := { s.media with placed := s.media.placed.filter (!hit ·), unplaced := s.media.unplaced ++ out } }

/-- Programs of pages that a test selects are not issued any more. -/
def dropPrograms (hit : Nat → Nat → Nat → Bool) (s : State) : State :=
  { s with media := { s.media with waiting := s.media.waiting.filter fun w => match w.2 with
      | .program k r c => !hit k r c
      | _ => true } }

/-- Close a band at its last complete row: what is not yet verified goes to another band (R118, R162). -/
def closeBand (serial : Nat) (s : State) : State :=
  let s := setBand serial (fun b => { b with closed := true }) s
  unplace (fun p => p.run.serial == serial) false (dropPrograms (fun k _ _ => k == serial) s)

/-- The band goes on without a column from a row on; its parity channel, or fewer than 16 columns, closes it (R118, R162).
-/
def dropColumn (serial row ch : Nat) (s : State) : State :=
  match band? s serial with
  | none => s
  | some b =>
    if b.closed && !(s.media.placed.any fun p => p.run.serial == serial) then s
    else if parityChannel serial = ch then
      closeBand serial { s with media := { s.media with relocQueue := s.media.relocQueue ++ [.band serial] } }
    else
      let s := setBand serial (fun b => { b with dropped := b.dropped ++ [(ch, row)] }) s
      let s := dropPrograms (fun k r c => k == serial && c == ch && row ≤ r) s
      if ((band? s serial).map (·.width row)).getD 0 < 16 then closeBand serial s else issueParity serial s

/-- The third failure in a row of the same data: the device stops trying, declares a media fault and enters PRESERVE; staged
data that has committed goes to the staging flush region (R163, R170, R371). DEDUCED: log entry 96. -/
def mediaFault (p : Placed) (s : State) : State :=
  let s := { s with media := { s.media with
    fault := true, unplaced := s.media.unplaced.filter fun x => !(x.run == p.run && x.source == p.source) } }
  match p.source with
  | none =>
    let mine (q : Staged) : Bool := q.asn == p.asn && q.nsid == p.run.nsid && q.lba == p.lba && !q.tomb
    let committed := (s.staged.find? mine).filter (·.committed)
    let slot := ((s.slots.find? (·.asn == p.asn)).filter fun _ => committed.isNone).map (·.ix)
    let s := { s with staged := s.staged.map fun q => if mine q && q.committed then { q with parked := true } else q }
    let s := match committed with
      | some q => flushPiece 0 q s
      | none => s
    let s := checkDevState slot s
    match slot with
    | some ix => complete ix stWriteFault 0 s
    | none => s
  | some e =>
    let stuck (r : Run) : Run := if r.nsid = p.run.nsid ∧ r.grain = p.run.grain ∧ r.frame = e.frame then { r with lost := true } else r
    checkDevState none { s with media := { s.media with runs := s.media.runs.map stuck } }

/-- A page program fails (R161): the grains of the page go to another band of the same kind; the band's further rows leave
the block out; its programmed pages are queued for relocation. DEDUCED: log entry 38. -/
def programFails (d : DieId) (serial row ch : Nat) (s : State) : State :=
  match band? s serial with
  | none => s
  | some b =>
    let num := ((b.blockOn ch).map (·.2)).getD 0
    let copies := if b.kind = .relocation || b.kind = .still then 1 else 0
    let hit (p : Placed) : Bool := p.run.serial == serial && p.run.pages.any fun x => x.2 == ch && !b.verified x
    let image := if ch = parityChannel serial then []
      else ((List.range (31 * blockRows)).find? fun p => pageAt serial p == (row, ch)).elim [] (pageImage s b)
    let s := { s with media := { s.media with
      programFails := s.media.programFails + 1, relocFails := s.media.relocFails + copies
      relocQueue := s.media.relocQueue ++ [.block d num] } }
    let pages := (b.passed.filter (·.2 == ch)).length
    let grains := (s.media.placed.filter hit).length
    let s := setBlock d num (fun x => { x with failed := some (x.failed.getD (serial, pages, grains)) }) s
    let s := if ch = parityChannel serial then s else unplace hit true (foldParity serial row image s)
    let s := dropColumn serial row ch s
    let worn := s.media.unplaced.filter (3 ≤ ·.failedIn.length)
    placeWaiting (worn.foldl (fun s p => mediaFault p s) s)

/-! ### Relocation (R150 to R154) -/

/-- The movable runs of one domain that a test selects. -/
def victimRuns (s : State) (dom : Nat) (p : Run → Bool) : List Run :=
  s.media.runs.filter fun r => r.domain == dom && p r && movable s r

/-- User blocks in service, and erase counts of those with a history. -/
def userErases (s : State) : Nat × List Nat :=
  let reserve := reserveNow s
  let all := sumBy (fun ch => Config.diesOn ch) (List.range channels) * Config.blocksPerDie - reserve.length
  let mine := s.media.blocks.filter fun b => !(reserve.any (·.1 == (b.die.ch, b.die.pos, b.num)))
  (all - (mine.filter (·.retired)).length, (mine.filter (!·.retired)).map (·.erases))

/-- Erase counts of the user blocks: lowest, highest and total; a block without a history has never been erased (R155). -/
def eraseSpread (s : State) : Nat × Nat × Nat :=
  let (n, es) := userErases s
  (if es.length < n then 0 else es.foldl min (es.headD 0), es.foldl max 0, es.foldl (· + ·) 0)

/-- The band with the fewest valid frames, the lower serial on a tie (R150). -/
def emptiest (s : State) (bs : List Band) : Option Band :=
  let valid (b : Band) : Nat := sumBy (·.len) (liveRuns s fun r => r.serial == b.serial)
  bs.foldl (fun a b => match a with
    | none => some b
    | some x => if valid b < valid x || (valid b = valid x && b.serial < x.serial) then some b else some x) none

/-- The next victim of a domain: its runs, and whether it is of the fourth kind (R150, R151).
DEDUCED: log entry 38. -/
def nextVictim (s : State) (dom : Nat) : List Run × Bool :=
  let refresh := s.media.refreshQueue.findSome? fun x =>
    let rs := victimRuns s dom fun r => r.onBlock s x.1 x.2
    if rs.isEmpty then none else some rs
  let queued := s.media.relocQueue.findSome? fun v =>
    let rs := victimRuns s dom (v.holds s)
    if rs.isEmpty then none else some rs
  let full := s.media.bands.filter fun b => b.closed && b.domain == dom
    && !(victimRuns s dom fun r => r.serial == b.serial).isEmpty
  let (lo, hi, _) := eraseSpread s
  let oldest := full.foldl (fun a b => match a with
    | none => some b
    | some x => if b.serial < x.serial then some b else some x) (none : Option Band)
  let runsOf (b : Option Band) : List Run := match b with
    | none => []
    | some b => victimRuns s dom fun r => r.serial == b.serial
  match refresh, queued with
  | some rs, _ => (rs, false)
  | none, some rs => (rs, false)
  | none, none =>
    if (hi - lo) * 20 > Config.ratedCycles && oldest.isSome then (runsOf oldest, false)
    else if freeShare s dom ≤ 600 then (runsOf (emptiest s full), true)
    else ([], false)

/-- Frames of paced relocation for the host frames drained and not yet answered: v ÷ (1 − v) of them, with the fraction of
valid frames of the victim (R151). DEDUCED: log entry 38. -/
def pacedFrames (s : State) (dom : Nat) (rs : List Run) : Nat :=
  let valid := min bandFrames (sumBy (·.len) rs)
  (if dom = 0 then s.media.owed.1 else s.media.owed.2) * valid / max 1 (bandFrames - valid)

/-- Copies of a domain that are still being read or programmed. -/
def movesPending (s : State) (dom : Nat) : Bool :=
  (s.media.fetches.any fun f => match f.use with
    | .move _ g => domainOf g == dom
    | _ => false) || (s.media.placed ++ s.media.unplaced).any fun p => p.source.isSome && p.run.domain == dom

/-- The open band that takes a quantum, with the frames left in it: a band with less room than one grain is filled up. None
where no band can be opened. -/
def quantumBand (kind : BandKind) (dom : Nat) (s : State) : Option (State × Band) :=
  match bandFor kind dom [] s with
  | none => none
  | some (s, b) => if b.next + 512 ≤ bandFrames then some (s, b) else bandFor kind dom [] (fillBand b.serial bandFrames s)

/-- Release a quantum of a domain: at most 4 MiB of valid frames of one victim, to one band; paced relocation copies what the
drained host frames owe (R51, R151, R152). At throttle level 3 only while free bands are below 3 % (Table 13.4).
DEDUCED: log entry 38. -/
def releaseQuantum (dom : Nat) (s : State) : State :=
  let fs := freeShare s dom
  let (all, fourth) := nextVictim s dom
  let paced := fourth && 150 ≤ fs && fs ≤ 300
  if (3 ≤ throttle s && 300 ≤ fs) || movesPending s dom then s
  else match all.head? with
  | none => s
  | some r =>
    let still (x : Run) : Bool := ((s.ns? x.nsid).map (·.still)).getD false
    let rs := all.filter fun x => still x == still r && x.serial == r.serial
    match quantumBand (if still r then .still else .relocation) dom s with
    | none => s
    | some (s, b) =>
      let room := min (min 65536 (bandFrames - b.next)) (if paced then pacedFrames s dom rs else 65536)
      let (s, k) := moveRuns room rs s
      let paid := k * (bandFrames - min bandFrames (sumBy (·.len) rs)) / max 1 (sumBy (·.len) rs)
      { s with media := { s.media with owed :=
        if !paced then s.media.owed
        else if dom = 0 then (s.media.owed.1 - paid, s.media.owed.2) else (s.media.owed.1, s.media.owed.2 - paid) } }

/-- Quanta are released at the start of a WORK window, and what waits for it is placed (R51, R55, R152). -/
def releaseQuanta (s : State) : State :=
  let s := [0, 1].foldl (fun s dom => releaseQuantum dom s) (placeWaiting s)
  afterMove { s with media := { s.media with quantaReleased := true } }

/-! ### Poll timers, resets and isolation (R149, R166, R167) -/

/-- A read that an isolated die held or had waiting goes on by rebuild; a member's page is lost (R148, R167). -/
def moveOp (o : DieOp) (s : State) : State :=
  match o with
  | .read (.sample _) .. => s
  | .read (.member k) serial _ ch _ => pageFails (.member k) serial ch s
  | .read u serial row ch _ => rebuildPage u serial row ch s
  | _ => s

/-- A die is isolated: its bands go on without its column, what was not verified there goes elsewhere, its reads are rebuilt,
and its frames are queued for relocation (R118, R166, R167). DESIGN CHOICE: log entry 37. -/
def isolateDie (d : DieId) (cause : Nat) (s : State) : State :=
  if (s.die d).isolated.isSome then s
  else
    let x := s.die d
    let ops := (s.media.waiting.filter (·.1 == d)).map (·.2) ++ x.op.toList ++ x.held.toList
    let s := s.setDie d fun x => { x with
      isolated := some cause, op := none, pollAt := none, suspendAsked := none, held := none, resetting := false, late := false }
    let s := { s with media := { s.media with waiting := s.media.waiting.filter (·.1 != d) } }
    let s := rimeDev 0x0303 sevError true (le 1 d.ch ++ le 1 d.pos ++ le 1 cause) s
    let mine := s.media.bands.filter fun b => (b.blockOn d.ch).map (·.1) == some d
    let s := mine.foldl (fun s b =>
      let row := ((List.range blockRows).find? fun r => !b.passed.contains (r, d.ch)).getD blockRows
      let hit (p : Placed) : Bool := p.run.serial == b.serial && p.run.pages.any fun y => y.2 == d.ch && !b.verified y
      dropColumn b.serial row d.ch (unplace hit false s)) s
    let s := { s with media := { s.media with relocQueue := s.media.relocQueue ++ [.die d] } }
    blocksLost none (placeWaiting (ops.foldl (fun s o => moveOp o s) s))

/-- The channel's sequencer is reset and each die of the channel selected in turn: a die that does not answer is isolated by
address; one whose selection brings back the bus fault by line, with its companion (R166). -/
def isolateBy (ch : Nat) (silent driven : List Nat) (s : State) : State :=
  let fitted (p : Nat) : Bool := p < Config.diesOn ch
  let s := (driven.filter fitted).foldl (fun s p =>
    let s := isolateDie ⟨ch, p⟩ 1 s
    let c := Config.companion ch p
    if c ≠ p && fitted c then isolateDie ⟨ch, c⟩ 2 s else s) (fence (.channel ch) s)
  (silent.filter fun p => fitted p && !driven.contains p).foldl (fun s p => isolateDie ⟨ch, p⟩ 0 s) s

/-- The end of an operation, or of a reset, among the waiting commands. DESIGN CHOICE: log entry 37. -/
def dieEvent (d : DieId) : Instr → Option Tick
  | .dieReadComplete t x _ => if x = d then some t else none
  | .programComplete t x _ => if x = d then some t else none
  | .eraseComplete t x _ => if x = d then some t else none
  | _ => none

def dieResetEvent (d : DieId) : Instr → Option Tick
  | .dieResetComplete t x => if x = d then some t else none
  | _ => none

/-- Reset a die (R149). -/
def resetDie (d : DieId) (s : State) : State :=
  s.setDie d fun x => { x with
    op := none, held := none, suspendAsked := none, late := false, wasSuspended := false, resetting := true
    pollAt := some (s.now + Config.tDieResetNs / 2) }

/-- DIE_POLL_TIMEOUT: the operation counts as failed, and the die is reset (R149). -/
def execDiePollTimeout (t : Tick) (d : DieId) (s : State) : Host.Outcome State Fault Refusal :=
  let s := s.arrive t
  .next (match (s.die d).op, (s.die d).pollAt with
    | some o, some p =>
      if !s.expired p || s.awaited (dieEvent d) p || (s.die d).resetting then s
      else
        let s := resetDie d s
        settle (match o with
        | .erase num =>
          eraseDead (rimeDev 0x0302 sevNotice false (le 1 d.ch ++ le 1 d.pos ++ le 2 num)
            (retireBlock d num { s with media := { s.media with eraseFails := s.media.eraseFails + 1 } }))
        | .program serial row ch => afterMove (programFails d serial row ch s)
        | .recal => s
        | .read u serial row ch step => pageEnds d u serial row ch step false false s)
    | _, _ => s)

/-- DIE_RESET_TIMEOUT: no valid status after the reset (R149, R166). -/
def execDieResetTimeout (t : Tick) (d : DieId) (found : BusFound) (s : State) : Host.Outcome State Fault Refusal :=
  let s := s.arrive t
  .next (match (s.die d).pollAt with
    | none => s
    | some p =>
      if !(s.die d).resetting || !s.expired p || s.awaited (dieResetEvent d) p then s
      else
        let s := s.setDie d fun x => { x with resetting := false, pollAt := none }
        settle (kickAll (afterMove (isolateBy d.ch found.silent found.driven s))))

/-- CHANNEL_BUS_FAULT: the bus of a channel stays driven after an operation has ended (R166). -/
def execChannelBusFault (t : Tick) (fault : BusFault) (s : State) : Host.Outcome State Fault Refusal :=
  let s := s.arrive t
  .next (if !s.pins.pwrgd then s
    else settle (kickAll (afterMove (isolateBy fault.ch fault.found.silent fault.found.driven s))))

/-! ### Journal and checkpoints (R132, R141, R159, R189, R190) -/

/-- JOURNAL_WRITE. -/
def execJournalWrite (t : Tick) (s : State) : Host.Outcome State Fault Refusal :=
  let s := s.arrive t
  .next (if s.serving && s.media.delta ≥ 262144 then afterMove (journalFlush s) else s)

/-- The device tables of the blocks: die, number, erase count, saved read count, whether retired (R155, R159). -/
def blockTable (s : State) : List Byte :=
  s.media.blocks.flatMap fun b => le 1 b.die.ch ++ le 1 b.die.pos ++ le 2 b.num ++ le 4 b.erases ++ le 4 b.saved
    ++ le 4 (if b.retired then 1 else 0)

/-- A map checkpoint: the delta buffer and then each changed page are written, which releases their journal records, the
ratio is measured, and the read counts and the operating time are saved (R132, R141, R159, R190, R520).
DESIGN CHOICE: log entry 39. -/
def checkpoint (s : State) : State :=
  let s := journalFlush s
  let s := (changedPages s).foldl (fun s p => writeMapPage p.1 p.2 s) s
  let s := { s with
    rime := { s.rime with opSaved := s.rime.opTicks }
    media := { s.media with
      journal := [], forcedWrites := false, measured := mappedBytes s
      blocks := s.media.blocks.map fun b => { b with saved := b.reads } } }
  reservePages 5 0 (blockTable s) s

/-- Map-page writes that the journal forces in a WORK window, until it falls below 128 MiB (R190). -/
def forcedPageWrites (s : State) : State :=
  if !s.media.forcedWrites then s
  else
    let s := writeUntil (128 * 2 ^ 20) s
    { s with media := { s.media with forcedWrites := 128 * 2 ^ 20 ≤ journalBytes s } }

/-- The samples of a MAINT window (R160): one page of each block past half its threshold, and of the block of the retention
pass with the oldest sample. DEDUCED: log entry 38. -/
def startSamples (s : State) : State :=
  let (used, done) := passBlocks s
  let half := used.filter fun x => 2 * (block? s x.1 x.2).reads > threshold s x.1 x.2
  let age (x : DieId × Nat) : Nat := (block? s x.1 x.2).sampledAt
  let oldest := (used.filter (!done.contains ·)).foldl (fun a x => match a with
    | none => some x
    | some y => if age x < age y then some x else some y) none
  let ask (pass : Bool) (s : State) (x : DieId × Nat) : State :=
    match s.media.bands.findSome? fun b => if b.blockOn x.1.ch == some x
        then (b.passed.find? (·.2 == x.1.ch)).map fun p => (b.serial, p) else none with
    | none => s
    | some (serial, p) =>
      let o : DieOp := .read (.sample pass) serial p.1 p.2 1
      if (s.die x.1).isolated.isSome || s.media.waiting.contains (x.1, o) then s else dieAsk x.1 o s
  (half.filter (some · != oldest)).foldl (ask false) (oldest.toList.foldl (ask true) s)

/-! ### Map pages and the shelf (R131, R134, R135) -/

/-- Bytes of the shelf. -/
def shelfBytes (s : State) : Nat := sumBy (·.2) s.media.shelf.ranges

/-- Stop using the shelf (R135, R136). -/
def shelfStop (state : Nat) (s : State) : State :=
  { s with media := { s.media with shelf := { s.media.shelf with state := state, ranges := [], pages := [] } } }

/-- The shelf in use stops (R136). -/
def shelfEnds (s : State) : State := if s.media.shelf.state = 1 then shelfStop 0 s else s

/-- A page has its copy on the shelf. -/
def onShelf (s : State) (nsid page : Nat) : Bool :=
  s.media.shelf.state = 1 && s.media.shelf.pages.any fun x => x.1 == nsid && x.2.1 == page

/-- A shelf page fails its tag (R135). DESIGN CHOICE: log entry 39. -/
def shelfTagFail (nsid page : Nat) (s : State) : State :=
  let recent := (s.media.shelf.hourFailures.filter fun x => s.rime.opTicks - x < ticksPerHour) ++ [s.rime.opTicks]
  let drop := recent.length ≥ 16
  let s := { s with media := { s.media with shelf := { s.media.shelf with
    failures := s.media.shelf.failures + 1, hourFailures := recent
    pages := s.media.shelf.pages.filter fun x => !(x.1 == nsid && x.2.1 == page) } } }
  let s := rimeDev 0x0306 sevWarning false (le 4 page ++ le 1 (if drop then 1 else 0)) s
  if drop then shelfStop 2 s else s

/-- The host address of a place of 4 KiB on the shelf. -/
def shelfAddr : List (Nat × Nat) → Nat → Nat
  | [], _ => 0
  | r :: rs, place => if place * 4096 < r.2 then r.1 + place * 4096 else shelfAddr rs (place - r.2 / 4096)

/-- Put a copy of a written page on the shelf: AES-256-GCM under the shelf key, its identity and tag kept in DRAM (R134,
R373). DESIGN CHOICE: log entry 39. -/
def shelve (nsid page : Nat) (s : State) : State :=
  let sh := s.media.shelf
  match s.ns? nsid with
  | none => s
  | some n =>
    let rest := sh.pages.filter fun x => !(x.1 == nsid && x.2.1 == page)
    match (List.range (shelfBytes s / 4096)).find? fun k => !(rest.any (·.2.2.1 == k)) with
    | none => s
    | some place =>
      let nonce := le 4 nsid ++ le 8 page
      let ct := gcmText sh.key nonce (mapPageBytes n page)
      let s := s.emit (.shelfWrite sh.port (shelfAddr sh.ranges place) ct)
      { s with media := { s.media with shelf := { sh with pages := rest ++ [(nsid, page, place, gcmTag sh.key nonce [] ct)] } } }

/-- Map pages that must stay: still-class pages, changed pages, and those of grains being written or read (R130, R131). -/
def pageHeld (s : State) (n : Ns) (page : Nat) : Bool :=
  n.still || n.dirty.contains page
    || (s.staged.any fun p => !p.tomb && p.nsid == n.nsid && (pieceGrains n p).any fun g => pageOf g == page)
    || (s.media.placed ++ s.media.unplaced).any (fun p => p.run.nsid == n.nsid && pageOf p.run.grain == page)
    || s.media.fetches.any fun f => f.use.grain.any fun x => x.1 == n.nsid && pageOf x.2 == page

/-- Evict the least recently used clean page of a map cache that holds too many, with a copy on the shelf where one is in use
(R130, R132, R134). DESIGN CHOICE: log entry 39. -/
def evict (s : State) : State :=
  if !s.media.cacheMode || sumBy (fun n => n.resident.length) s.nss ≤ mapRoom s then s
  else match s.nss.findSome? fun n => (n.resident.find? fun p => !pageHeld s n p).map fun p => (n, p) with
    | none => s
    | some (n, p) =>
      let s := s.setNs n.nsid fun n => { n with resident := n.resident.filter (· != p) }
      if s.media.shelf.state = 1 && n.written.contains p then shelve n.nsid p s else s

/-- The commands and chains that waited for a page go on (R131). DESIGN CHOICE: log entry 39. -/
def pageArrived (nsid page : Nat) (s : State) : State :=
  let s := s.slots.foldl (fun s sl =>
    if sl.phase != .mapWait || sl.sqe.nsid != nsid then s
    else match s.ns? nsid with
      | none => s
      | some n =>
        if (touched n sl.sqe.body).any (fun g => pageOf g == page) then
          (if Body.reading sl.sqe.body then startRead sl.ix s else runWrite sl.ix s)
        else s) s
  s.compute.runs.foldl (fun s r => pump r.asn s) s

/-- MAP_PAGE_LOAD_COMPLETE: a page arrives from the shelf or from media (R129, R131, R135). -/
def execMapPageLoadComplete (t : Tick) (nsid page : Nat) (fromShelf tagOk : Bool) (s : State) :
    Host.Outcome State Fault Refusal :=
  let s := s.arrive t
  .next (match s.ns? nsid with
    | none => s
    | some n =>
      if !n.loading.contains page || (fromShelf && !onShelf s nsid page) || s.fw.pauseSince.isSome then s
      else if fromShelf && !tagOk then shelfTagFail nsid page s
      else
        let s := s.setNs nsid fun n => { n with
          loading := n.loading.filter (· != page), resident := n.resident.filter (· != page) ++ [page] }
        let s := { s with media := { s.media with mapLoads := s.media.mapLoads + 1 } }
        if s.serving then settle (evict (pageArrived nsid page s)) else s)

/-! ### Log page 0xC1 (Table 4.11) -/

/-- Percentage Used (R172). -/
def percentUsed (s : State) : Nat :=
  let (_, _, tot) := eraseSpread s
  min 255 (100 * tot / (max 1 (userErases s).1 * max 1 Config.ratedCycles))

/-- PRESUMED: log entry 81. -/
def logC1 (s : State) (view : Option Nat) : List Byte :=
  let ns := s.nss.filter fun n => view.isNone || view == some n.tenant
  let (lo, hi, tot) := eraseSpread s
  let m := s.media
  let logical (n : Ns) : Nat := grainBytes n * (n.map.filter fun e => !e.2.dealloc).length
  let raw := sumBy (fun ch => Config.diesOn ch) (List.range channels) * Config.blocksPerDie * Config.rowsPerBlock
    * Config.framesPerPage * 64
  pad 512 (le 1 (DevState.code m.dev) ++ le 1 (if m.cacheMode then 1 else 0) ++ le 1 (availableSpare s) ++ le 1 10
    ++ le 1 (percentUsed s) ++ le 1 (isolatedDies s) ++ le 1 s.settings.dev.stillDiePositions ++ le 1 m.shelf.state
    ++ le 8 raw ++ le 8 (userPool s 0 + userPool s 1) ++ le 8 Config.reserveBytes ++ le 8 (dac s)
    ++ le 8 (sumBy (·.assured) ns) ++ le 8 (sumBy (·.stretch) ns) ++ le 8 (stretchLimit s)
    ++ le 8 (freeStretched s 0 + freeStretched s 1) ++ le 8 (sumBy (fun n => usedFrames n 0 + usedFrames n 1) ns)
    ++ le 8 (sumBy logical ns) ++ le 4 (256 * (measuredRatio s).1 / (measuredRatio s).2) ++ le 2 (freeShare s 0) ++ le 2 (freeShare s 1) ++ le 4 Config.ratedCycles
    ++ le 4 lo ++ le 4 (tot / max 1 (userErases s).1) ++ le 4 hi ++ le 8 m.hostBytes ++ le 8 m.relocBytes ++ le 4 m.retired
    ++ le 4 m.programFails ++ le 4 m.eraseFails ++ le 4 m.relocFails ++ le 4 (sat 4 m.refreshByCount)
    ++ le 4 (sat 4 m.refreshBySample) ++ le 4 m.retentionHours ++ le 2 m.retentionProgress ++ zeros 2 ++ le 8 m.rebuilds
    ++ le 8 m.unrecovered ++ le 8 m.mapLoads ++ le 8 (shelfBytes s) ++ le 4 (sat 4 m.shelf.failures)
    ++ le 4 (sat 4 m.lateSuspends) ++ le 4 (Config.refreshThreshold 0) ++ le 4 (Config.refreshThreshold 1)
    ++ le 4 (Config.refreshThreshold 2) ++ zeros 12
    ++ ((List.range channels).flatMap fun ch => le 2 (spareNow s ch))
    ++ (List.range channels).flatMap fun ch => le 2 (Config.spareOn ch))

end Sys2Proof.Machine
end

