-- ==== Sys2Proof/Machine/PowerFail.lean ====
section
/-! DEFINITION. The hold-up protection, the power-fail sequence, and the steps of a fatal error up to its dump
(files 05 and 14); the ends of programs and die resets, which the sequence shares with the media. -/

namespace Sys2Proof.Machine

/-! ### The hold-up protection (R192 to R196) -/

/-- The lowest reason of Table 5.6 for which the protection is not proven, 0 when it is. PRESUMED: log entry 40. -/
def proofReason (s : State) : Nat :=
  let h := s.holdup
  let aged := match h.passedAt with
    | none => true
    | some p => s.rime.opTicks - p > 26 * ticksPerHour
  if h.desc.isNone then 1
  else if !h.okStable || !s.pins.holdupOk then 2
  else if h.last = some 1 then 3
  else if aged then 4
  else if h.lossSince then 5
  else if h.cutSince then 6
  else if h.last = some 2 then 7
  else if ((h.desc.map (·.huAddr)).getD 0) = 0 then 8
  else 0

/-- Whether the protection is proven follows its conditions, with a record of each change and a SMART event when it is no
longer proven (R100, R195, R196). PRESUMED: log entry 40. -/
def reproof (s : State) : State :=
  let r := proofReason s
  let now_ := r == 0
  if s.holdup.proven = now_ then s
  else
    let s := { s with holdup := { s.holdup with proven := now_, changedAt := some s.now } }
    let s := if now_ then s else raiseSmart s
    rimeDev 0x0204 sevWarning true (le 1 (if now_ then 0 else 1) ++ le 1 r) s

/-- HOLDUP_OK_CHANGE. -/
def execHoldupOkChange (t : Tick) (level : Bool) (s : State) : Host.Outcome State Fault Refusal :=
  let s := s.arrive t
  .next (if s.pins.holdupOk = level then s
    else
      let s := { s with
        pins := { s.pins with holdupOk := level }
        holdup := { s.holdup with
          okSince := if level && s.pins.pwrgd then some s.now else none
          okStable := false
          testOk := s.holdup.testOk && level } }
      reproof s)

/-- A fall of HOLDUP_OK among the waiting commands. -/
def holdupFall : Instr → Option Tick
  | .holdupOkChange t false => some t
  | _ => none

/-- HOLDUP_OK_STABLE: HOLDUP_OK has been sampled asserted for 1 s (R195). -/
def execHoldupOkStable (t : Tick) (s : State) : Host.Outcome State Fault Refusal :=
  let s := s.arrive t
  .next (match s.holdup.okSince with
    | none => s
    | some a =>
      if !s.pins.pwrgd || !s.expired (a + ticksPerS) || s.awaited holdupFall (a + ticksPerS) then s
      else reproof { s with holdup := { s.holdup with okStable := true } })

/-- HOLDUP_PROOF_LAPSE: the last pass becomes older than 26 operating hours (R195). -/
def execHoldupProofLapse (t : Tick) (s : State) : Host.Outcome State Fault Refusal :=
  .next (reproof (s.arrive t))

/-- The board descriptor names a hold-up controller (R192). -/
def holdupTestable (s : State) : Bool := ((s.holdup.desc.map (·.huAddr)).getD 0) != 0

/-- A test has fallen due by operating time (R192). -/
def holdupDueNow (s : State) : Bool :=
  holdupTestable s && (match s.holdup.last, s.holdup.passedAt with
    | none, _ => true
    | some 0, some p => s.rime.opTicks - p ≥ 24 * ticksPerHour
    | some _, _ => s.rime.opTicks - s.holdup.testedAt ≥ ticksPerHour)

/-- An unsplittable task falls due, by its kind and its DRAM channel or port: it joins the tasks that an override may have
to serve (R56). -/
def taskDue (k u : Nat) (s : State) : State :=
  if s.firn.ovrDue.contains (k, u) then s
  else { s with firn := { s.firn with ovrDue := s.firn.ovrDue ++ [(k, u)] } }

/-- An unsplittable task is served (R56). -/
def taskServed (k u : Nat) (s : State) : State :=
  { s with firn := { s.firn with ovrDue := s.firn.ovrDue.filter (· != (k, u)) } }

/-- The hold-up self-test is due. -/
def holdupDue (s : State) : State :=
  if !holdupTestable s then s else taskDue 2 0 { s with holdup := { s.holdup with due := true } }

/-- HOLDUP_TEST_DUE. -/
def execHoldupTestDue (t : Tick) (s : State) : Host.Outcome State Fault Refusal :=
  let s := s.arrive t
  .next (if s.boot.life == .running && holdupDueNow s && s.holdup.testStep = 0 then holdupDue s else s)

/-- E_avail, mJ: none where the formula of R194 gives no number. PRESUMED: log entry 40. -/
def eAvailOf (eStep v1 v2 vmin : Nat) : Option Nat :=
  if v1 > v2 && v2 ≥ vmin then some (eStep * (v2 * v2 - vmin * vmin) / (v1 * v1 - v2 * v2)) else none

/-- The test passes (R194): E_avail is compared without rounding. PRESUMED: log entry 40. -/
def holdupPasses (s : State) : Bool :=
  let h := s.holdup
  let vmin := (h.desc.map (·.vminMv)).getD 0
  h.testOk && s.pins.holdupOk && h.eStep ≥ 100 && h.v2 < h.v1 && vmin ≤ h.v2
    && h.eStep * (h.v2 * h.v2 - vmin * vmin) ≥ 1800 * (h.v1 * h.v1 - h.v2 * h.v2)

/-- The test ends and is judged (R194, R195). PRESUMED: log entry 40. -/
def holdupJudge (s : State) : State :=
  let h := s.holdup
  let res := if h.testVoid then 2 else if holdupPasses s then 0 else 1
  let (free, s) := match eAvailOf h.eStep h.v1 h.v2 ((h.desc.map (·.vminMv)).getD 0) with
    | some e => (e, s)
    | none => freeNat s
  let s := { s with holdup := { s.holdup with
    testStep := 0, testVoid := false, last := some res, testedAt := s.rime.opTicks, eAvail := free % 2 ^ 32
    passedAt := if res = 0 then some s.rime.opTicks else h.passedAt
    cutSince := h.cutSince && res != 0
    lossSince := h.lossSince && res != 0
    passes := h.passes + (if res = 0 then 1 else 0)
    fails := h.fails + (if res = 0 then 0 else 1) } }
  let s := rimeDev 0x0203 (if res = 0 then sevNotice else sevError) true
    (le 1 res ++ zeros 3 ++ le 4 s.holdup.eAvail ++ le 4 s.holdup.eStep) s
  reproof s

/-- A PMBus transfer of the self-test (Table 5.4): 2 isolate, 3 V1, 4 and 5 the two READ_EIN readings, 6 V2,
7 restore. PRESUMED: log entry 40. -/
def holdupTransfer (k : Nat) (s : State) : State :=
  match s.holdup.desc with
  | none => s
  | some d =>
    let s := pmbusStart k { s with holdup := { s.holdup with testStep := k } }
    match k with
    | 2 => s.emit (.pmbusWrite d.huAddr d.huCmd d.huIsolate)
    | 3 => s.emit (.pmbusRead d.huAddr 0x8A)
    | 4 | 5 => s.emit (.pmbusRead 0x40 0x86)
    | 6 => s.emit (.pmbusRead d.huAddr 0x8A)
    | _ => s.emit (.pmbusWrite d.huAddr d.huCmd d.huRestore)

/-- The self-test starts (R193). PRESUMED: log entry 40. -/
def holdupTestStart (s : State) : State :=
  let s := taskServed 2 0 { s with
    holdup := { s.holdup with due := false, testVoid := false, testOk := true, v1 := 0, v2 := 0, eStep := 0 } }
  if !s.pins.holdupOk || s.pins.pfail then holdupJudge { s with holdup := { s.holdup with testOk := false } }
  else holdupTransfer 2 s

/-- PMBUS_TRANSFER_COMPLETE: the transfer's value is taken and the next step of the test begins (R193, R510). -/
def execPmbusTransferComplete (t : Tick) (value : Nat) (s : State) : Host.Outcome State Fault Refusal :=
  let s := s.arrive t
  .next (match s.power.pmbus with
    | none => s
    | some (d, _) =>
      if s.now > d then s
      else
        let k := s.power.pmbusUse
        let s := { s with power := { s.power with
          pmbus := none, pmbusUse := 0
          monitorAbsent := s.power.monitorAbsent && !(k == 4 || k == 5) } }
        let v := value % 2 ^ 32
        let h := s.holdup
        match k with
        | 2 => holdupTransfer 3 s
        | 3 => holdupTransfer 4 { s with holdup := { h with v1 := v } }
        | 4 => holdupTransfer 5 { s with holdup := { h with eStep := v } }
        | 5 => holdupTransfer 6 { s with holdup := { h with eStep := v - h.eStep } }
        | 6 => holdupTransfer 7 { s with holdup := { h with v2 := v } }
        | 7 => { s with holdup := { h with testStep := 8 } }
        | _ => s)

/-- A completion of the outstanding transfer among the waiting commands. DEDUCED: log entry 77. -/
def pmbusEvent : Instr → Option Tick
  | .pmbusTransferComplete t _ => some t
  | _ => none

/-- PMBUS_TIMEOUT: retried 1 ms later at most 3 times, then failed; the test it served is void (R194, R510,
R511). -/
def execPmbusTimeout (t : Tick) (s : State) : Host.Outcome State Fault Refusal :=
  let s := s.arrive t
  .next (match s.power.pmbus with
    | none => s
    | some (d, tries) =>
      if !s.expired d || s.awaited pmbusEvent d then s
      else if tries < 3 then
        { s with power := { s.power with pmbus := some (s.now + ticksPerMs + pmbusLimit, tries + 1) } }
      else
        let k := s.power.pmbusUse
        { s with
          power := { s.power with
            pmbus := none, pmbusUse := 0, pmbusFails := s.power.pmbusFails + 1
            monitorAbsent := s.power.monitorAbsent || k == 4 || k == 5 }
          holdup := if k = 0 then s.holdup else { s.holdup with testVoid := true, testStep := 8 } })

/-- HOLDUP_TEST_COMPLETE: the last step of the test has ended, or the test is void. -/
def execHoldupTestComplete (t : Tick) (s : State) : Host.Outcome State Fault Refusal :=
  let s := s.arrive t
  .next (if s.holdup.testStep = 8 then holdupJudge s else s)

/-! ### The power-fail sequence (R180 to R188) -/

/-- Committed pieces that the flush image of the sequence in force does not hold yet (R183, R185). DEDUCED: log entry 41. -/
def toFlush (s : State) : List Staged :=
  s.staged.filter fun p => p.committed && !p.tomb && p.image != some s.pfail.image

/-- The oldest of the pieces to flush. DEDUCED: log entry 41. -/
def nextFlush (s : State) : Option Staged :=
  (toFlush s).foldl (fun a p => match a with
    | none => some p
    | some x => if asnLt p.asn x.asn then some p else some x) none

/-- The dies on which a program or erase is in progress or suspended are reset; what they did is issued again
(R181, R185). -/
def resetPrograms (s : State) : State :=
  let busy (x : Die) : Bool := (x.op.map DieOp.isProgram).getD false || x.held.isSome
  (s.media.dies.filter busy).foldl (fun s x =>
    let ops := ((x.op.toList.filter DieOp.isProgram) ++ x.held.toList).map fun o => (x.id, o)
    let s := { s with media := { s.media with waiting := ops ++ s.media.waiting } }
    let s := ops.foldl (fun s o => match o.2 with
      | .erase k => setBlock x.id k (fun b => { b with erasePending := true }) s
      | _ => s) s
    resetDie x.id s) s

/-- Park the media: every CE_N high and every WP_N low (R181). DEDUCED: log entry 41. -/
def parkMedia (s : State) : State := { s with pins := { s.pins with parked := true, wpHigh := [] } }

/-- A start that PFAIL_N ends has come to its next verified media write: the media is parked (R188). -/
def endStart (s : State) : State := parkMedia { s with boot := { s.boot with startEnded := true } }

/-- An image in a NOR slot. -/
def fwSlot (s : State) (i : Nat) : Option FwImage := if i = 0 then s.fw.slot0 else s.fw.slot1

def fwVersion (s : State) (i : Nat) : Nat := ((fwSlot s i).map (·.version)).getD 0

/-- The dump of a fatal error as it is written (R533, R536, R537). DEDUCED: log entry 45. -/
def dumpOf (s : State) (cause : Nat) (partial_ : Bool) : Dump :=
  let recs := s.rime.region ++ s.rime.ring.map (·.1)
  { partialDump := partial_, number := s.moraine.count + 1, cycles := s.rime.cycles, hours := s.hours,
    seconds := s.seconds, cause := cause
    seq := ((recs.filter (·.code == 0x0607)).getLast?.map (·.seq)).getD 0
    version := fwVersion s s.fw.active
    pair := if cause = 2 then 0xFF else if s.fw.pair0 == .serving then 0 else 1
    tail := recs.drop (recs.length - 4096) }

/-- The dump and its summary stand in the Moraine region (R371, R533, R535, R538). DEDUCED: log entry 45. -/
def writeDump (cause : Nat) (partial_ : Bool) (s : State) : State :=
  let d := dumpOf s cause partial_
  let head := le 4 d.number ++ le 4 d.cycles ++ le 4 d.hours ++ le 2 d.seconds ++ le 2 d.cause ++ le 4 d.seq ++ le 8 d.version
  let s := reservePages 4 (d.number * 2 ^ 16) (head ++ d.tail.flatMap fun r => recBytes (r.seq, r)) s
  { s with moraine := { s.moraine with
    dump := some d, summaries := (d :: s.moraine.summaries).take 8, count := s.moraine.count + 1 } }

/-- One move of the sequence: a step whose work is done gives way to the next (R181, R182). After step 5 a fatal
error goes on with its Rime flush (8) and its dump (9) unless PFAIL_N is asserted (R533, R535).
DEDUCED: log entry 41. -/
def pfailMove (s : State) : State :=
  let move (k : Nat) (s : State) : State := { s with pfail := { s.pfail with step := k } }
  match s.pfail.step with
  | 1 => if (s.media.dies.any (·.resetting)) || s.repair.chans.any (·.retraining) then s else move 2 s
  | 2 => if (toFlush s).isEmpty then move 3 s else s
  | 3 => if s.media.delta = 0 then move 4 s else s
  | 4 => if s.rime.flushing.isSome then s else if s.rime.ring.isEmpty then move 5 s else rimeFlushStart s
  | 6 =>
    let s := move 7 (parkMedia s)
    if s.pins.pfail || s.pfail.deassertedAt.isSome then
      { s with holdup := { s.holdup with seqUs := (s.now - s.pfail.landedAt) / ticksPerUs } }
    else s
  | 8 => if s.rime.flushing.isSome then s else if s.rime.ring.isEmpty then move 9 s else rimeFlushStart s
  | _ => s

/-- Steps with nothing to do complete in the tick in which they start. DEDUCED: log entry 41. -/
def pfailRun : Nat → State → State
  | 0, s => s
  | n + 1, s =>
    let s' := pfailMove s
    if s'.pfail.step = s.pfail.step then s' else pfailRun n s'

def pfailNext (s : State) : State := pfailRun 8 s

/-- A step's work has been verified: the next step starts. DEDUCED: log entry 41. -/
def pfailDone (s : State) : State := pfailNext { s with pfail := { s.pfail with step := s.pfail.step + 1 } }

/-- The flush image that a sequence writes: the one that the newer sequence record does not name, image 0 before the first.
A sequence that begins before service has resumed adds to the image just written (R183, R185). DESIGN CHOICE: log entry 98. -/
def nextImage (s : State) : Nat :=
  match s.pfail.imageNamed with
  | none => 0
  | some k => if s.pfail.step = 7 then k else 1 - k

/-- Table 5.2 begins. DEDUCED: log entry 41. -/
def pfailBegin (s : State) : State :=
  pfailNext (resetPrograms { s with pfail := { s.pfail with step := 1, completed := false } })

/-- NVMe's Firmware Activation Prohibited. -/
def stFwProhibited : Status := ⟨1, 0x13, true⟩

/-- A hand-over ends before its takeover: the old firmware goes on serving (R550). A Firmware Commit fails; a request is
left to its TIMEOUT, which stays its final response. DEDUCED: log entry 83. -/
def handoverFail (s : State) : State :=
  match s.fw.handover with
  | some (k, q, slot) =>
    if k > 2 then s
    else
      let new := 1 - s.fw.active
      let s := { s with fw := { s.fw with handover := none } }
      let s := rimeDev 0x0801 sevNotice true (le 1 new ++ le 1 1 ++ le 2 0 ++ le 8 (fwVersion s new)) s
      let s := match slot with
        | some ix => complete ix stFwProhibited 0 s
        | none => s
      match q with
      | none => s
      | some q => s.setEp q.ep fun x => match x.executing with
        | some (p, op, _, true) => if p.seq = q.seq then
            { x with executing := none, stored := some (p.seq, op, 0x000B, []) } else x
        | _ => x
  | none => s

/-- The device stops as R180 states. A self-test that runs is void (R194). -/
def stopService (s : State) : State :=
  -- R477: scrub passes queued or running end early
  let ends (p : Pass) : Pass := if p.state < 2 then { p with state := 3 } else p
  let s := { s with
    pfail := { s.pfail with stopped := true }
    pins := { s.pins with ready := false }
    repair := { s.repair with passes := s.repair.passes.map ends } }
  if s.holdup.testStep = 0 then s
  else
    let s := { s with power := { s.power with pmbus := none, pmbusUse := 0 }, holdup := { s.holdup with testVoid := true } }
    holdupJudge s

/-- Run Table 5.2 now, or after the lowering and the exit of R505, or once a takeover's mirror is replayed (R550). -/
def stopAndRun (s : State) : State :=
  if s.fw.pauseSince.isSome then s
  else match s.power.entering with
  | some (_, true) => s
  | some (_, false) => pfailBegin { s with power := { s.power with entering := none, wake := false } }
  | none =>
    if s.power.ps < 3 then pfailBegin s
    else if s.power.exiting.isSome then s
    else psExit 0 s

/-- PFAIL_ASSERT (R180, R185, R188, R535). -/
def execPfailAssert (t : Tick) (s : State) : Host.Outcome State Fault Refusal :=
  let s := s.arrive t
  .next (if s.pins.pfail then s
    else
      let s := { s with pins := { s.pins with pfail := true }, pfail := { s.pfail with deassertedAt := none } }
      if !s.pins.pwrgd then s
      else match s.boot.life with
      | .starting =>
        if s.boot.heldByPfail then s
        else { s with boot := { s.boot with endedByPfail := true } }
      | .running =>
        if s.moraine.fatal.isSome then
          (if s.pfail.step = 8 ∨ s.pfail.step = 9 then
            let s := writeDump (s.moraine.fatal.getD 0) true s
            let s := { s with boot := { s.boot with life := .parked } }
            pfailNext { s with pfail := { s.pfail with step := 6, landedAt := s.now } }
          else { s with pfail := { s.pfail with landedAt := s.now } })
        else if s.pfail.stopped && s.pfail.step ≠ 7 then s
        else
          let s := { s with
            pfail := { s.pfail with landedAt := s.now, step := 0, image := nextImage s }
            holdup := { s.holdup with sequences := s.holdup.sequences + 1 } }
          let s := handoverFail (stopService (shelfEnds s))
          let bytes := sumBy (fun p => sumBy List.length p.data) (toFlush s)
          stopAndRun (rimeDev 0x0202 sevWarning true (le 4 (sat 4 bytes) ++ le 4 (sat 4 s.media.delta)) s)
      | _ => s)

/-- PFAIL_DEASSERT (R185). -/
def execPfailDeassert (t : Tick) (s : State) : Host.Outcome State Fault Refusal :=
  let s := s.arrive t
  .next (if !s.pins.pfail then s
    else { s with pins := { s.pins with pfail := false }, pfail := { s.pfail with deassertedAt := some s.now } })

/-- A landing of PFAIL_N among the waiting commands. -/
def pfailEvent : Instr → Option Tick
  | .pfailAssert t => some t
  | _ => none

/-- Completions that the stop held back are posted (R185). -/
def postDeferred (s : State) : State :=
  s.slots.foldl (fun s sl => match sl.phase, sl.outcome with
    | .posted, some st => complete sl.ix st sl.dw0 s
    | _, _ => s) s

/-- Service resumes after a completed sequence (R185, R206). -/
def resumeService (s : State) : State :=
  let s := { s with
    pfail := { s.pfail with stopped := false, step := 0, deassertedAt := none, completed := false }
    pins := { s.pins with parked := false, ready := true }
    settings := { s.settings with commit := s.settings.commit.map fun c => (if c.1 = 5 then 5 else 1, c.2) }
    -- R442: the limit of a request stops while it is paused
    eps := s.eps.map fun e => { e with executing := e.executing.map fun x =>
      (x.1, x.2.1, x.2.2.1 + (s.now - s.pfail.landedAt), x.2.2.2) } }
  let s := postDeferred s
  let rs := s.compute.runs.filter fun r => r.released.isSome
  let s := rs.foldl (fun s r => completeRun r.asn stGraphAborted none true s) s
  settle (landAll (grantRoom s.slots.length (kickAll s)))

/-- PFAIL_RESUME: PFAIL_N has stayed deasserted for 10 ms (R185, R188). -/
def execPfailResume (t : Tick) (s : State) : Host.Outcome State Fault Refusal :=
  let s := s.arrive t
  .next (match s.pfail.deassertedAt with
    | none => s
    | some a =>
      let d := a + 10 * ticksPerMs
      if s.pins.pfail || !s.expired d || s.awaited pfailEvent d then s
      else if s.boot.heldByPfail then
        { s with boot := { s.boot with heldByPfail := false }, pfail := { s.pfail with deassertedAt := none } }
      else if s.boot.life == .running && s.pfail.step = 7 && s.moraine.fatal.isNone then resumeService s
      else s)

/-! ### Fatal errors (R532 to R535) -/

/-- Declare a fatal error: step 1 of Table 14.7, and the start of step 2. DEDUCED: log entry 45. -/
def declareFatal (cause : Nat) (s : State) : State :=
  if s.moraine.fatal.isSome || s.boot.life != .running then s
  else
    let recent := (s.moraine.fatals.filter fun x => s.rime.opTicks - x < 24 * ticksPerHour) ++ [s.rime.opTicks]
    let running := s.pfail.stopped
    let s := { s with
      pfail := if running then s.pfail else { s.pfail with image := nextImage s }
      pins := { s.pins with fault := true }
      ctrls := s.ctrls.map fun c => { c with cfs := true }
      moraine := { s.moraine with fatal := some cause, fatals := recent } }
    let s := stopService s
    let s := rimeDev 0x0607 sevFatal true (le 2 cause ++ le 2 0 ++ le 4 (s.moraine.count + 1)) s
    if running && s.pfail.step ≠ 7 then s else stopAndRun s

/-- Step 5 of Table 5.2 is verified: the sequence record names the image just written, with the highest ASN it holds
(R181, R183). -/
def sequenceRecord (s : State) : State :=
  let img := s.pfail.image
  let top := (s.staged.filter fun p => p.image == some img && !p.tomb).foldl (fun a p => if asnLt a p.asn then p.asn else a) 0
  let s := { s with pfail := { s.pfail with imageNamed := some img, imageAsn := top, completed := true } }
  match s.moraine.fatal with
  | none => pfailDone s
  | some c =>
    if s.pins.pfail then
      let s := writeDump c true s
      pfailDone { s with boot := { s.boot with life := .parked } }
    else pfailNext { s with pfail := { s.pfail with step := 8 } }

/-- A page that the sequence writes has been programmed and verified: one piece of the flush image (step 2), the
journal records (step 3) or the sequence record (step 5). A page that fails is written again to the next page
(R182). DEDUCED: log entry 41. -/
def pfailProgram (ok : Bool) (s : State) : State :=
  if !ok then s
  else match s.pfail.step with
  | 2 => match nextFlush s with
    | none => pfailNext s
    | some p =>
      let done (q : Staged) : Staged :=
        if q.asn = p.asn ∧ q.nsid = p.nsid ∧ q.lba = p.lba then { q with image := some s.pfail.image } else q
      pfailNext { flushPiece s.pfail.image p s with staged := s.staged.map done }
  | 3 => pfailNext (journalFlush s)
  | 5 => sequenceRecord s
  | _ => s

/-! ### The ends of programs and resets -/

/-- A program of a die ends outside the power-fail sequence (R153, R161, R184). -/
def programEnds (d : DieId) (o : DieOp) (ok : Bool) (s : State) : State :=
  let s := s.setDie d fun x => { x with
    op := none, pollAt := none, suspendAsked := none, late := false, wasSuspended := false }
  let s := lightLed s
  let s := match o with
    | .program serial row ch =>
      if ok then settleBand serial (issueParity serial (setBand serial (fun b => { b with passed := b.passed ++ [(row, ch)] }) s))
      else programFails d serial row ch s
    | _ => s
  -- staging room that the commit freed goes to the lowest ASN waiting (R20)
  dieKick d (landAll (grantRoom s.slots.length (afterMove s)))

/-- DIE_RESET_COMPLETE: a die reports ready after its reset (R149, R181). -/
def execDieResetComplete (t : Tick) (d : DieId) (s : State) : Host.Outcome State Fault Refusal :=
  let s := s.arrive t
  .next (if !(s.die d).resetting then s
    else
      let s := s.setDie d fun x => { x with resetting := false, pollAt := none }
      if s.pfail.step = 1 then pfailNext s else settle (dieKick d s))

/-- RIME_FLUSH_COMPLETE: the flush is written and verified (R526), and a sequence that waits for it goes on. -/
def execRimeFlushComplete (t : Tick) (s : State) : Host.Outcome State Fault Refusal :=
  let s := s.arrive t
  .next (if s.rime.flushing.isNone || !s.pins.pwrgd then s else pfailNext (rimeWritten s))

/-- AVS_TIMEOUT: 100 us pass without an acknowledgement (R508); a power-fail sequence that waited for the change of state
begins (R505). DEDUCED: log entry 76. -/
def execAvsTimeout (t : Tick) (s : State) : Host.Outcome State Fault Refusal :=
  let s := s.arrive t
  .next (match s.power.avs with
    | none => s
    | some (level, d, tries) =>
      if !s.expired d || s.awaited ackEvent d then s
      else
        let moving := s.power.entering.isSome || s.power.exiting.isSome
        let s := { s with power := { s.power with avsTimeouts := s.power.avsTimeouts + 1 } }
        if tries < 3 then avsSend level (tries + 1) s
        else
          let s := regulatorFault level s
          if moving && s.pfail.stopped && s.pfail.step = 0 then pfailBegin s else s)

/-- PS_EXIT_COMPLETE: the state on demand is in force (R503); a power-fail sequence that waited for the exit begins
(R505). A wake restarted the idle time when it landed, and the exit for an upkeep task does not (R500). -/
def execPsExitComplete (t : Tick) (s : State) : Host.Outcome State Fault Refusal :=
  let s := s.arrive t
  .next (match s.power.exiting with
    | none => s
    | some m =>
      if s.power.avs.isSome || rateBlocked s m then s
      else
        let s := psReach m false { s with power := { s.power with exiting := none } }
        let since := if idleNow s then some (s.power.idleSince.getD s.now) else none
        let s := { s with power := { s.power with idleSince := since } }
        if s.pfail.stopped && s.pfail.step = 0 then pfailBegin s else s)

/-! ### Thermal shutdown and LED1 -/

/-- A sample below 115 degrees among the waiting commands. -/
def coolEvent : Instr → Option Tick
  | .powerSample t _ tj => if tj < 115 then some t else none
  | _ => none

/-- THERMAL_SHUTDOWN (R515): the device stops, runs Table 5.2 and stays parked until PWRGD falls.
DEDUCED: log entry 78. -/
def execThermalShutdown (t : Tick) (s : State) : Host.Outcome State Fault Refusal :=
  let s := s.arrive t
  .next (match s.power.hotSince with
    | none => s
    | some h =>
      let d := h + ticksPerMs
      if s.boot.life != .running || !s.expired d || s.awaited coolEvent d then s
      else
        let running := s.pfail.stopped && s.pfail.step ≠ 7
        let s := { s with
          pfail := if running then s.pfail else { s.pfail with image := nextImage s }
          pins := { s.pins with fault := true }
          power := { s.power with thermals := s.power.thermals + 1 } }
        let s := stopService s
        let s := rimeDev 0x0704 sevCritical true (leInt 2 s.power.tj) s
        let s := { s with boot := { s.boot with life := .parked }, moraine := { s.moraine with fatal := none } }
        if running then s else stopAndRun s)

/-- LED1_TIMEOUT: LED1 goes out 50 ms after the last media read or program (R564). -/
def execLed1Timeout (t : Tick) (s : State) : Host.Outcome State Fault Refusal :=
  let s := s.arrive t
  .next (match s.pins.led1Until with
    | none => s
    | some d => if s.expired d then { s with pins := { s.pins with led1Until := none } } else s)

end Sys2Proof.Machine
end

