-- ==== Sys2Proof/Machine/Mbx.lean ====
section
/-! DEFINITION. The mailbox (files 10 and 11): endpoints, roles and sessions, the order of a request's checks, and
the posting of its response on each path. -/

namespace Sys2Proof.Machine

/-! ### Statuses (Table 11.5) -/

abbrev msOk : Nat := 0x0000
abbrev msBusy : Nat := 0x0001
abbrev msUnknownOp : Nat := 0x0002
abbrev msReserved : Nat := 0x0003
abbrev msLength : Nat := 0x0004
abbrev msNotPermitted : Nat := 0x0005
abbrev msTenantRunning : Nat := 0x0006
abbrev msNotStopped : Nat := 0x0007
abbrev msAuthFail : Nat := 0x0008
abbrev msNoResource : Nat := 0x0009
abbrev msStale : Nat := 0x000A
abbrev msTimeout : Nat := 0x000B
abbrev msPlan : Nat := 0x0010
abbrev msProgram : Nat := 0x0011
abbrev msImage : Nat := 0x0012
abbrev msSet : Nat := 0x0013
abbrev msNotReady : Nat := 0x0014

/-- The 8-byte body of a rejection (R429). -/
def detailBody (detail : Nat) : List Byte := le 4 detail ++ zeros 4

/-! ### Endpoints and roles (R395, R399, R405, R440) -/

/-- The endpoint identifier of Table 11.4. -/
def Endpoint.id : Endpoint → Nat
  | .fn f => 0x10000000 + (if f.port = .b then 0x10000 else 0) + f.tenant
  | .mctp b p e => 0x20000000 + b * 0x10000 + (if b = 2 then p * 0x100 else 0) + e

/-- The endpoint exists. -/
def endpointOk (s : State) : Endpoint → Bool
  | .fn f => s.hasFn f
  | .mctp b p e => b ≤ 2 && p ≤ 1 && e ≤ 255

inductive Role where
  | host (f : Fn)
  | owner
  | admin (t : Nat)
  | board
  deriving DecidableEq, Repr

/-- The role in which a request on an endpoint is judged (Table 10.1). -/
def roleOf (s : State) (e : Endpoint) : Role :=
  match (s.ep e).session, e with
  | some (1, _, _), _ => .owner
  | some (_, t, _), _ => .admin t
  | none, .fn f => .host f
  | none, .mctp .. => .board

/-- The tenant that a role is bound to, none when it is bound to none. -/
def Role.tenant : Role → Option Nat
  | .host f => some f.tenant
  | .admin t => some t
  | _ => none

/-- The view of a role: none is the owner's and the board's (R401). -/
def Role.view : Role → Option Nat := Role.tenant

def isOwner (r : Role) : Bool := r == .owner
def isBoard (r : Role) : Bool := r == .board

/-- A host driver of tenant 0 with a bit of HOST_ADMIN (R400). -/
def hostMay (s : State) (bit : Nat) : Role → Bool
  | .host f => f.tenant == 0 && ((s.tenant? 0).map fun t => t.cfg.hostAdmin.testBit bit).getD false
  | _ => false

def isAdmin : Role → Bool
  | .admin _ => true
  | _ => false

/-! ### Sessions (R396, R397) -/

/-- A session ends, and the bulk buffer of its endpoint is zeroed (R444). -/
def endSession (e : Endpoint) (s : State) : State :=
  if (s.ep e).session.isSome then s.setEp e fun x => { x with session := none, bulk := [] } else s

/-- End every session that a test selects. -/
def endSessions (p : Ep → Bool) (s : State) : State :=
  (s.eps.filter p).foldl (fun s x => endSession x.ep s) s

/-- The sessions that an owner, or a tenant's administrator, holds. -/
def ownerSession (x : Ep) : Bool := (x.session.map (·.1)) == some 1
def tenantSession (t : Nat) (x : Ep) : Bool := (x.session.map fun q => q.1 == 2 && q.2.1 == t).getD false

/-! ### Responses (R428, R436, R438, R442) -/

/-- The bytes of a response message. -/
def mbxMessage (q : Rq) (opcode status : Nat) (body : List Byte) : List Byte :=
  le 2 opcode ++ le 2 status ++ le 2 q.tag ++ le 2 q.tenant ++ le 4 (16 + body.length) ++ le 4 q.seq ++ body

/-- The slot of the Mailbox Transfer that carries the tunnelled request of a function; one that a reset has orphaned still
carries the request in progress (R72). -/
def tunnelSlot (s : State) (q : Rq) (f : Fn) : Option Slot :=
  let other := ((s.ep q.ep).executing.map fun x => decide (x.1 ≠ q)).getD false
  s.slots.find? fun sl => sl.fn == f && sl.phase == .running && !(other && sl.orphan) && (match sl.sqe.body with
    | .mailbox .. => true
    | _ => false)

/-- Send a response on the path of its request. On BAR2 it is posted only while the doorbell's request stands: a
function reset has taken it away otherwise (R436, R437). -/
def deliver (q : Rq) (opcode status : Nat) (body : List Byte) (s : State) : State :=
  let s := s.emit (.mbx q.ep opcode status q.tag q.seq body)
  match q.path, q.ep with
  | .bar2, .fn f => match s.ctrl? f with
    | none => s
    | some c =>
      if !c.mbx.busy then s
      else
        let msg := mbxMessage q opcode status body
        let s := s.setCtrl f fun c => { c with mbx := { c.mbx with
          busy := false, done := true, doorbell := none, respLen := msg.length, respBuf := msg } }
        if c.mbx.irqEn && !q.flags.testBit 0 then sendMsix f c.mbx.vector s else s
  | .tunnel, .fn f => match tunnelSlot s q f with
    | none => s
    | some sl => match sl.outcome with
      | some st => complete sl.ix st 0 s
      | none => complete sl.ix stOk (16 + body.length) s
  | _, _ => s

/-- The request ends with a response, which its endpoint keeps (R432). After a TIMEOUT the response is only kept.
DEDUCED: log entry 47. -/
def respond (q : Rq) (opcode status : Nat) (body : List Byte) (s : State) : State :=
  let late := ((s.ep q.ep).executing.map fun x => x.1.seq == q.seq && x.2.1 == opcode && x.2.2.2).getD false
  let s := s.setEp q.ep fun x => { x with executing := none, stored := some (q.seq, opcode, status, body) }
  if late then s else deliver q opcode status body s

/-- The request goes on: its endpoint executes it until `respond` ends it. The limit of one that has waited counts from its
acceptance (R434). -/
def keepExecuting (q : Rq) (opcode limit : Nat) (s : State) : State :=
  s.setEp q.ep fun x => { x with
    stored := none
    executing := match x.executing with
      | some (p, c, d, late) =>
        if p = q ∧ c = opcode then some (p, c, d, late) else some (q, opcode, s.now + limit, false)
      | none => some (q, opcode, s.now + limit, false) }

/-- Refuse with a status and no body. -/
def refuse (q : Rq) (opcode status : Nat) (s : State) : State := respond q opcode status [] s

/-! ### The order of checks (R430 to R433) -/

/-- The carrier of the request stands: a doorbell, a Mailbox Transfer or an MCTP message. DEDUCED: log entry 47. -/
def carried (s : State) (q : Rq) : Bool :=
  endpointOk s q.ep && (match q.path, q.ep with
  | .bar2, .fn f => ((s.ctrl? f).map fun c => c.mbx.busy && c.mbx.doorbell == some q.delivered).getD false
  | .tunnel, .fn f => ((tunnelSlot s q f).map (!·.orphan)).getD false
  | .mctp, .mctp .. => true
  | _, _ => false)

/-- The endpoint is busy with another request (R433). DEDUCED: log entry 47. -/
def epBusy (s : State) (q : Rq) : Bool :=
  (s.ep q.ep).executing.isSome || (match q.path, q.ep with
  | .tunnel, .fn f => ((s.ctrl? f).map fun c => c.mbx.busy).getD false
  | _, _ => false)

/-- The opcode is answered in the present life of the device (R431). DEDUCED: log entry 47. -/
def answersNow (s : State) (opcode : Nat) : Bool :=
  match s.boot.life with
  | .running => true
  | .bootHold => opcode == 0x0101 || opcode == 0x0805
  | _ => opcode / 256 == 0x01 || opcode / 256 == 0x0A

/-- The device answers on its mailboxes at all: not in reset, nor with a reserved strap (R569), nor while it is
stopped by R180, nor in the pause of a hand-over, whose end a request waits for (R546). DEDUCED: log entry 47. -/
def mailboxAwake (s : State) : Bool :=
  !s.pfail.stopped && s.fw.pauseSince.isNone && (match s.boot.life with
  | .reset | .latched | .strapHold | .parked => false
  | _ => true)

/-! ### Requests that change the same thing (R434) -/

/-- Requests that change one tenant. DEDUCED: log entry 111. -/
def tenantCodes : List Nat :=
  [0x0302, 0x0303, 0x0304, 0x0306, 0x0307, 0x0308, 0x0309, 0x030A, 0x0401, 0x0402, 0x0403, 0x0404, 0x0405, 0x0406, 0x0408,
    0x0601, 0x0602]

/-- Requests that change the ownership state. DEDUCED: log entry 111. -/
def ownerCodes : List Nat := [0x0310, 0x0311, 0x0312, 0x0313, 0x0315]

/-- Requests that end in a commit of the settings set: they wait in the order of the commits. DEDUCED: log entry 111. -/
def commitCodes : List Nat := [0x0203, 0x0301, 0x0306, 0x0307]

/-- The commit in progress changes the record of a tenant, or the device record, which touches them all.
DEDUCED: log entry 111. -/
def commitTouches (s : State) (t : Nat) : Bool :=
  match s.settings.commit with
  | some (_, b, _) => b.dev != s.settings.dev
      || b.tens.any fun r => r.tenant == t && ((s.tenant? t).map (·.cfg)) != some r
  | none => false

/-- A request that executes on `p` with opcode `c` changes the tenant. DEDUCED: log entry 111. -/
def worksOn (s : State) (c : Nat) (p : Rq) (t : Nat) : Bool :=
  if c = 0x0203 then commitTouches s t
  else ownerCodes.contains c || (p.tenant == t && [0x0301, 0x0303, 0x0306, 0x0307, 0x0308].contains c)

/-- A request changes the same thing as an earlier one that executes, and no rule of its own answers it at once: a start or
a stop of a tenant that drains (R450), a destruction (R406), erasures and commits, which have their own order.
DEDUCED: log entry 111. -/
def conflicts (s : State) (code : Nat) (q : Rq) (c : Nat) (p : Rq) : Bool :=
  let commits := commitCodes.contains code && commitCodes.contains c
  let erases := [0x0302, 0x0308].contains code && (c == 0x0303 || c == 0x0308 || ownerCodes.contains c)
  let drains := c == 0x0303 && (code == 0x0303 || code == 0x0304)
  if code = 0x0202 ∨ code = 0x0204 then c == 0x0203
  else if ownerCodes.contains code then commitCodes.contains c
  else tenantCodes.contains code && worksOn s c p q.tenant && !commits && !erases && !drains

/-- A request accepted at `since` waits for an earlier one on another endpoint (R434). DEDUCED: log entry 111. -/
def waitsBehind (s : State) (q : Rq) (code : Nat) (since : Tick) : Bool :=
  s.eps.any fun x => x.ep != q.ep && x.parked.all (· < since) && x.executing.any fun e => conflicts s code q e.2.1 e.1

/-- The request has been accepted and waits: its command comes again when it is to run. DEDUCED: log entry 111. -/
def isParked (s : State) (q : Rq) (code : Nat) : Bool :=
  (s.ep q.ep).parked.isSome && (s.ep q.ep).executing.any fun e => e.1 == q && e.2.1 == code

/-- An accepted request begins to wait; its limit counts from now (R434, R442). DEDUCED: log entry 111. -/
def park (q : Rq) (code limit : Nat) (s : State) : State :=
  s.setEp q.ep fun x => { x with
    executing := some (q, code, s.now + limit, false), stored := none, parked := some s.now }

/-- A request that waited runs. DEDUCED: log entry 111. -/
def unpark (q : Rq) (s : State) : State := s.setEp q.ep fun x => { x with parked := none }

/-- What the table gives of an opcode: its code, whether its TENANT is 0xFFFF, its body length, whether a field that
the row carries breaks its range, the roles that may ask, and its response limit. `either` allows both forms of TENANT. -/
structure Form where
  code : Nat
  device : Bool := false
  either : Bool := false
  body : Nat
  badField : Bool := false
  roles : Role → Bool
  limit : Nat := ticksPerMs

/-- The role is bound to another tenant than the header names (R399), or its function has no tenant (R405). -/
def notForTenant (s : State) (q : Rq) (fm : Form) (r : Role) : Bool :=
  (!fm.device && q.tenant != 0xFFFF && (match r.tenant with
    | some t => t != q.tenant
    | none => false))
  || (match q.ep with
    | .fn f => fm.code != 0x0101 && !exposed s f
    | _ => false)

/-- A request's checks in their order; `run` is what the opcode does once they pass and no earlier request changes the same
thing (R430, R434). DEDUCED: log entry 47, DEDUCED: log entry 111. -/
def request (fm : Form) (q : Rq) (run : Role → State → State) (s : State) : State :=
  if isParked s q fm.code then
    if !mailboxAwake s || waitsBehind s q fm.code ((s.ep q.ep).parked.getD 0) then s
    else touchIdle (run (roleOf s q.ep) (unpark q s))
  else if !mailboxAwake s || !carried s q then s
  else
    let held := waitsBehind s q fm.code (s.now + 1)
    let s := wake s
    if q.delivered < 16 || q.delivered ≠ q.length then deliver q (if q.delivered < 16 then 0 else fm.code) msLength [] s
    else
      let e := s.ep q.ep
      let same : Bool := match e.executing, e.stored with
        | some x, _ => x.1.seq == q.seq && x.2.1 == fm.code
        | none, some y => y.1 == q.seq && y.2.1 == fm.code
        | none, none => false
      if epBusy s q then deliver q fm.code msBusy [] s
      else if same then match e.stored with
        | some (_, _, st, body) => deliver q fm.code st body s
        | none => deliver q fm.code msBusy [] s
      else
        let r := roleOf s q.ep
        let s := s.setEp q.ep fun x => { x with session := x.session.map fun y => (y.1, y.2.1, s.now) }
        if !answersNow s fm.code then refuse q fm.code msNotReady s
        else if q.length ≠ 16 + fm.body || q.length % 4 ≠ 0 || q.length > 4096 then refuse q fm.code msLength s
        else if q.flags > 1 || q.bodyReserved || fm.badField
          || (if fm.device then q.tenant != 0xFFFF else q.tenant > 255 && !(fm.either && q.tenant == 0xFFFF))
        then refuse q fm.code msReserved s
        else if !fm.roles r || notForTenant s q fm r then refuse q fm.code msNotPermitted s
        else if held then park q fm.code fm.limit s
        else touchIdle (run r s)

/-- A request that answers at once with a status and a body. -/
def answer (fm : Form) (q : Rq) (run : Role → State → Nat × List Byte × State) (s : State) : State :=
  request fm q (fun r s => let (st, body, s) := run r s; respond q fm.code st body s) s

/-- The first BULK_LEN bytes of the bulk buffer. -/
def bulkOf (s : State) (q : Rq) (len : Nat) : List Byte := Memory.readN (s.ep q.ep).bulk 0 len

/-- The whole buffer is zeroed after a request that names BULK_LEN, whatever its outcome (R444). -/
def dropBulk (q : Rq) (s : State) : State := s.setEp q.ep fun x => { x with bulk := [] }

/-- A request that uses the bulk buffer. DEDUCED: log entry 111. -/
def bulkRequest (fm : Form) (q : Rq) (len : Nat) (run : Role → List Byte → State → State) (s : State) : State :=
  let bs := bulkOf s q len
  let ran := isParked s q fm.code || (mailboxAwake s && carried s q && !epBusy s q && q.delivered ≥ 16
    && q.delivered = q.length && !(match (s.ep q.ep).stored with
      | some y => y.1 == q.seq && y.2.1 == fm.code
      | none => false))
  let s := request fm q (fun r s => run r bs s) s
  if ran && (s.ep q.ep).parked.isNone then dropBulk q s else s

/-! ### Housekeeping -/

/-- SESSION_TIMEOUT: 900 s without a request (R397). DEDUCED: log entry 49. -/
def execSessionTimeout (t : Tick) (ep : Endpoint) (s : State) : Host.Outcome State Fault Refusal :=
  let s := s.arrive t
  .next (match (s.ep ep).session with
    | none => s
    | some (_, _, last) => if s.expired (last + 900 * ticksPerS) then endSession ep s else s)

/-- NONCE_LAPSE: a challenge nonce lapses 60 s, and the debug nonce 600 s, after its issue (R396, R426). -/
def execNonceLapse (t : Tick) (ep : Endpoint) (s : State) : Host.Outcome State Fault Refusal :=
  let s := s.arrive t
  let gone (d : Nat) (n : List Byte × Tick) : Bool := s.expired (n.2 + d * ticksPerS)
  let s := if ((s.ep ep).nonce.map (gone 60)).getD false then s.setEp ep fun x => { x with nonce := none } else s
  .next (if (s.owner.debugNonce.map (gone 600)).getD false then { s with owner := { s.owner with debugNonce := none } } else s)

/-- SESSION_LOCKOUT_END: challenges are answered again (R396). -/
def execSessionLockoutEnd (t : Tick) (ep : Endpoint) (s : State) : Host.Outcome State Fault Refusal :=
  let s := s.arrive t
  .next (match (s.ep ep).lockout with
    | none => s
    | some d => if s.expired d then s.setEp ep fun x => { x with lockout := none } else s)

/-- UNKNOWN_MAILBOX_REQUEST: an opcode that Table 11.6 does not hold (R430). -/
def execUnknownMailboxRequest (t : Tick) (q : Rq) (opcode : Nat) (s : State) : Host.Outcome State Fault Refusal :=
  let s := s.arrive t
  .next (
    if !mailboxAwake s || !carried s q then s
    else
      let s := wake s
      if q.delivered < 16 || q.delivered ≠ q.length then deliver q (if q.delivered < 16 then 0 else opcode) msLength [] s
      else if epBusy s q then deliver q opcode msBusy [] s
      else match (s.ep q.ep).stored with
      | some (sq, op, st, body) =>
        if sq = q.seq && op = opcode then deliver q opcode st body s
        else touchIdle (refuse q opcode (if answersNow s opcode && s.boot.life != .bootHold then msUnknownOp else msNotReady) s)
      | none => touchIdle (refuse q opcode (if answersNow s opcode && s.boot.life != .bootHold then msUnknownOp else msNotReady) s))

/-- DEVWIN_ERR_CLEAR: a write of 1 to REGERR clears it with OFFSET; MULTI clears when 1 is written to it too
(R453). -/
def execDevwinErrClear (t : Tick) (f : Fn) (multi : Bool) (s : State) : Host.Outcome State Fault Refusal :=
  let s := s.arrive t
  .next (if !hostReaches s f then s
    else s.setCtrl f fun c => { c with devErr := { c.devErr with
      regErr := false, offset := 0, multi := c.devErr.multi && !multi } })

end Sys2Proof.Machine
end

