-- ==== Sys2Proof/Machine/Queues.lean ====
section
/-! DEFINITION. Links, controllers and queues (file 03): resets, doorbells, arbitration and fetch, aborts, and the
admin commands that make queues and set features. -/

namespace Sys2Proof.Machine

/-! ### The ends of commands (R72, R106, R109, R248) -/

/-- The run of a slot. -/
def runOfSlot (s : State) (ix : Nat) : Option GRun := s.compute.runs.find? (·.slot == ix)

/-- The work of a slot's command stops: a run's nodes stop and what it holds is reclaimed (R106, R248). Dword 0 of its
completion comes with it. -/
def cutSlot (sl : Slot) (s : State) : State × Nat :=
  match runOfSlot s sl.ix with
  | none => (dropReads (ReadUse.ofHost sl.asn) s, 0)
  | some r =>
    let s := if r.released.isNone then s else s.setCount r.tenant fun c => { c with aborted := c.aborted + 1 }
    (reclaimRun r.asn s, 0xFFFF)

/-- End a command in its slot with a status. -/
def endSlot (ix : Nat) (st : Status) (s : State) : State :=
  match s.slot? ix with
  | none => s
  | some sl =>
    let (s, dw0) := cutSlot sl s
    complete ix st dw0 s

/-- An Asynchronous Event Request leaves the requests outstanding. DEDUCED: log entry 33. -/
def dropAer (ix : Nat) (f : Fn) (s : State) : State := s.setCtrl f fun c => { c with aers := c.aers.filter (· != ix) }

/-! ### Resets (R8, R71, R72, R82, R397, R437) -/

/-- A controller reset: fetch stops, runs stop at once, the other commands run on and post nothing (R72, R254).
DEDUCED: log entry 32. -/
def resetController (f : Fn) (s : State) : State :=
  let mine (sl : Slot) : Bool := sl.fn == f
  let s := { s with slots := s.slots.map fun sl => if mine sl then { sl with orphan := true } else sl }
  -- a hand-over, and a tunnelled request in progress, go on in their slots
  let works (sl : Slot) : Bool := (s.fw.handover.map fun h => h.2.2 == some sl.ix).getD false
    || (match sl.sqe.body, (s.ep (.fn f)).executing with
      | .mailbox .., some x => x.1.path == .tunnel
      | _, _ => false)
  let stops (sl : Slot) : Bool := mine sl && (match sl.phase with
    | .held | .pendingEvent | .aborting | .posted => true
    | .running => !works sl
    | _ => false)
  let s := (s.slots.filter stops).foldl (fun s sl =>
    let (s, dw0) := cutSlot sl s
    finish sl.ix stAborted dw0 s) s
  -- timers whose Abort is gone no longer run
  let stands (a : Nat × Tick) : Bool := (s.slot? a.1).isSome
  let trim (x : Slot) : Slot := { x with timers := x.timers.filter stands }
  let s := { s with slots := s.slots.map trim }
  s.setCtrl f fun c => { c with
      en := false, rdy := false, css := 0, shst := 0, cfs := false, votePs := 0, votePerm := none, lastPs := 0
      apste := true, wce := true, arb := c.arbSaved.getD {}, arbStaged := none, coalThr := 0, coalTime := 0
      coalWaiting := [], pairs := 0, sqs := [], cqs := []
      asq := { c.asq with head := 0, tail := 0, bells := [] }, acq := { c.acq with head := 0, tail := 0 }
      aers := [], events := [], intMask := 0 }

/-- A function reset: its controller, its mailbox registers and its own registers return to their reset values, and its
sessions end; the Firn status block stands (R8, R397). DEDUCED: log entry 32. -/
def resetFunction (f : Fn) (s : State) : State :=
  let s := endSession (.fn f) (resetController f s)
  s.setCtrl f fun c => { c with
    epochLo := 0, epochHi := 0, epochCount := 1, mbx := {}, devErr := {}
    msixTable := [], msixPending := [], ccBits := 0, asqBase := 0, acqBase := 0
    asq := { c.asq with size := 4096 }, acq := { c.acq with size := 4096 } }

/-- Every function of a port is reset. DEDUCED: log entry 32. -/
def resetPort (p : Port) (s : State) : State :=
  settle ((s.ctrls.filter fun c => c.fn.port == p).foldl (fun s c => resetFunction c.fn s) s)

/-- A change of the ANA state that a port reports: an ANA Change event on every controller of each tenant (R79).
DEDUCED: log entry 32. -/
def anaChange (p : Ctrl → Bool) (s : State) : State := raiseAll (fun c => c.en && p c) .anaChange s

/-- The port takes part in the link configuration (R71, R568). -/
def portUsed (s : State) (p : Port) : Bool := p == .a || s.boot.portcfg == 0

/-- The link of a port is lost. DEDUCED: log entry 32. -/
def dropLink (p : Port) (s : State) : State :=
  let wasUp := (s.link p).up
  let s := (losePtm p s).setLink p fun l => { l with
    up := false, training := false, l12 := false, reeq := false, reeqDue := false, retryAt := none }
  let s := resetPort p (if s.media.shelf.port = p then shelfEnds s else s)
  if wasUp then anaChange (fun c => c.fn.port != p) s else s

/-- PERST_ASSERT (R71). -/
def execPerstAssert (t : Tick) (p : Port) (s : State) : Host.Outcome State Fault Refusal :=
  let s := s.arrive t
  .next (if !portUsed s p then s else dropLink p (s.setLink p fun l => { l with perst := true }))

/-- PERST_DEASSERT (R73). -/
def execPerstDeassert (t : Tick) (p : Port) (s : State) : Host.Outcome State Fault Refusal :=
  let s := s.arrive t
  .next (if !portUsed s p || !(s.link p).perst then s
    else s.setLink p fun l => { l with perst := false, training := linksFree s })

/-- LINK_DOWN: as the port's PERST; the link trains again (R71). -/
def execLinkDown (t : Tick) (p : Port) (s : State) : Host.Outcome State Fault Refusal :=
  let s := s.arrive t
  .next (if !(s.link p).up then s
    else
      let s := dropLink p s
      s.setLink p fun l => { l with training := !l.perst && linksFree s })

/-- LINK_UP: training ends at a rate and a width of Table 3.1, and ANA Optimized is reported on the port (R79).
DESIGN CHOICE: log entry 93. -/
def execLinkUp (t : Tick) (p : Port) (rate width : Nat) (s : State) : Host.Outcome State Fault Refusal :=
  let s := s.arrive t
  let wide := s.boot.portcfg == 1 && p == .a && width == 16
  .next (if !(s.link p).training || !([2, 5, 8, 16, 32, 64, 128].contains rate) || !([1, 2, 4, 8].contains width || wide) then s
    else anaChange (fun _ => true) (s.setLink p fun l => { l with up := true, training := false, rate := rate, width := width }))

/-- L1_2_ENTRY: the CLKREQ pin is released (R573). -/
def execL12Entry (t : Tick) (p : Port) (s : State) : Host.Outcome State Fault Refusal :=
  let s := s.arrive t
  .next (if (s.link p).up then s.setLink p fun l => { l with l12 := true, clkreq := false } else s)

/-- L1_2_EXIT: the CLKREQ pin is driven low again (R573). -/
def execL12Exit (t : Tick) (p : Port) (s : State) : Host.Outcome State Fault Refusal :=
  let s := s.arrive t
  .next (if (s.link p).l12 then s.setLink p fun l => { l with l12 := false, clkreq := true } else s)

/-- FUNCTION_LEVEL_RESET: it is a wake event too (R72, R503). -/
def execFunctionLevelReset (t : Tick) (f : Fn) (s : State) : Host.Outcome State Fault Refusal :=
  let s := s.arrive t
  .next (if !hostReaches s f then s else
    -- R136: a reset of PF0 on the granting port ends the map shelf
    let s := if f.tenant = 0 && s.media.shelf.port = f.port then shelfEnds s else s
    wake (settle (resetFunction f s)))

/-- CONTROLLER_ENABLE (R73, R257). Another command set selection is not supported (CAP.CSS), and does nothing. -/
def execControllerEnable (t : Tick) (f : Fn) (css : Nat) (s : State) : Host.Outcome State Fault Refusal :=
  let s := s.arrive t
  .next (match s.ctrl? f with
    | none => s
    | some c =>
      if c.en || !hostReaches s f || !(css == 0 || css == 6) then s
      else wake (touchIdle (s.setCtrl f fun c => { c with en := true, css := css, rdy := s.boot.life == .running })))

/-- CONTROLLER_DISABLE (R72). -/
def execControllerDisable (t : Tick) (f : Fn) (s : State) : Host.Outcome State Fault Refusal :=
  let s := s.arrive t
  .next (match s.ctrl? f with
    | none => s
    | some c => if !c.en || !hostReaches s f then s else wake (settle (resetController f s)))

/-- CONTROLLER_SHUTDOWN (R198). -/
def execControllerShutdown (t : Tick) (f : Fn) (s : State) : Host.Outcome State Fault Refusal :=
  let s := s.arrive t
  .next (match s.ctrl? f with
    | none => s
    | some c =>
      if !c.en || c.shst != 0 || !hostReaches s f then s
      else wake (settle (s.setCtrl f fun c => { c with shst := 1 })))

/-! ### Doorbells (R85) -/

/-- SQ_DOORBELL. -/
def execSqDoorbell (t : Tick) (f : Fn) (qid tail : Nat) (s : State) : Host.Outcome State Fault Refusal :=
  let s := s.arrive t
  .next (match s.ctrl? f with
    | none => s
    | some c =>
      if !hostReaches s f then s
      else
        let s := wake s
        match if !c.en then none else if qid = 0 then some c.asq else c.sqs.find? (·.qid == qid) with
        | none => raiseEvent f .invalidDoorbellRegister s
        | some q =>
          let fresh := (tail + q.size - q.tail) % max 1 q.size
          let held := (q.tail + q.size - q.head) % max 1 q.size
          if tail ≥ q.size || fresh + held ≥ q.size then raiseEvent f .invalidDoorbellValue s
          else
            -- R58: what holds in the doorbell's tick
            let still := s.nss.filter (·.still)
            let absent := still.flatMap fun n => (n.written.filter (!n.resident.contains ·)).map fun p => (n.nsid, p)
            let bell : Bell := { tick := s.now, bound := firnBound s, absent := absent }
            let ring (x : Sq) : Sq := { x with tail := tail, bells := x.bells ++ List.replicate fresh bell }
            touchIdle (s.setCtrl f fun c => if qid = 0 then { c with asq := ring c.asq }
              else { c with sqs := c.sqs.map fun x => if x.qid = qid then ring x else x }))

/-- CQ_DOORBELL. -/
def execCqDoorbell (t : Tick) (f : Fn) (qid head : Nat) (s : State) : Host.Outcome State Fault Refusal :=
  let s := s.arrive t
  .next (match s.ctrl? f with
    | none => s
    | some c =>
      if !hostReaches s f then s
      else match if !c.en then none else if qid = 0 then some c.acq else c.cqs.find? (·.qid == qid) with
      | none => raiseEvent f .invalidDoorbellRegister s
      | some q =>
        let taken := (head + q.size - q.head) % max 1 q.size
        let held := (q.tail + q.size - q.head) % max 1 q.size
        if head ≥ q.size || taken > held then raiseEvent f .invalidDoorbellValue s
        else
          let move (x : Cq) : Cq := { x with head := head }
          s.setCtrl f fun c => if qid = 0 then { c with acq := move c.acq }
            else { c with cqs := c.cqs.map fun x => if x.qid = qid then move x else x })

/-- AGGREGATION_TIME_EXPIRY: the vector's message is sent (R83). -/
def execAggregationTimeExpiry (t : Tick) (f : Fn) (vector : Nat) (s : State) : Host.Outcome State Fault Refusal :=
  let s := s.arrive t
  .next (match s.ctrl? f with
    | none => s
    | some c => match get? vector c.coalWaiting with
      | none => s
      | some (_, since) =>
        if !s.expired (since + c.coalTime * 100 * ticksPerUs) then s
        else (s.setCtrl f fun c => { c with coalWaiting := c.coalWaiting.filter (·.1 != vector) }) |> sendMsix f vector)

/-! ### Arbitration and fetch (R84 to R92) -/

/-- One turn of a round robin: the queue at the position goes on while its turn lasts, and otherwise the next in order
is served, wrapping from the last to the first (R90). DEDUCED: log entry 30. -/
def rrPick (pos : Nat × Nat) (turn : Nat → Option Nat) (keys : List Nat) : Option (Nat × (Nat × Nat)) :=
  let more := match turn pos.1 with
    | none => true
    | some n => pos.2 < n
  if keys.contains pos.1 && 0 < pos.2 && more then some (pos.1, (pos.1, pos.2 + 1))
  else
    let after := keys.filter fun k => if pos.2 = 0 then pos.1 ≤ k else pos.1 < k
    let least (l : List Nat) : Option Nat := l.foldl (fun a k => match a with
      | none => some k
      | some x => some (min x k)) none
    match least after, least keys with
    | some k, _ => some (k, (k, 1))
    | none, some k => some (k, (k, 1))
    | none, none => none

/-- The lowest free slot of a kind (R84). DEDUCED: log entry 30. -/
def freeSlot (s : State) (admin : Bool) : Option Nat :=
  let base := if admin then 8128 else 0
  (List.range (if admin then 64 else 8128)).find? (fun i => (s.slot? (base + i)).isNone) |>.map (· + base)

/-- I/O slots that a tenant holds. -/
def ioSlots (s : State) (t : Nat) : Nat := (s.slots.filter fun sl => sl.fn.tenant == t && sl.ix < 8128).length

/-- The tenant's I/O queues are fetched from (R84, R89, R405). -/
def ioFetches (s : State) (c : Ctrl) : Bool :=
  exposed s c.fn && (match s.tenant? c.fn.tenant with
  | none => false
  | some t => t.state == .running && !t.draining && ioSlots s t.num < t.cfg.slotQuota)

/-- Controllers that the device fetches from at all. DEDUCED: log entry 30. -/
def fetching (s : State) : List Ctrl :=
  if !s.serving || s.power.ps ≥ 3 then []
  else s.ctrls.filter fun c => c.en && c.rdy && !c.cfs
    && ((s.tenant? c.fn.tenant).map (·.state)) != some .destroying

/-- I/O queues with something to fetch, by class: 0 urgent, 1 high, 2 medium, 3 low. DEDUCED: log entry 30. -/
def ioQueues (c : Ctrl) (cls : Nat) : List Nat :=
  (c.sqs.filter fun q => q.prio == cls && q.head != q.tail).map (·.qid)

/-- What arbitration picks: the function, the queue, and the state with its round robins moved (R90). Queues from which
nothing can be fetched, for want of a slot or quota, do not hold back the levels below. DEDUCED: log entry 30,
DESIGN CHOICE: log entry 99. -/
def arbitrate (s : State) : Option (Fn × Nat × State) :=
  let cs := fetching s
  let adm := if (freeSlot s true).isSome then (cs.filter fun c => c.asq.head != c.asq.tail).map (fun c => cntlid c.fn) else []
  let io := if (freeSlot s false).isSome then cs.filter (ioFetches s) else []
  let at_ (id : Nat) : Fn := ⟨id / 2, if id % 2 = 1 then .b else .a⟩
  match rrPick s.rrAdmin (fun _ => some 1) adm with
  | some (k, pos) => some (at_ k, 0, { s with rrAdmin := pos })
  | none =>
    let urg := io.flatMap fun c => (ioQueues c 0).map fun q => cntlid c.fn * 65536 + q
    match rrPick s.rrUrgent (fun _ => some 1) urg with
    | some (k, pos) => some (at_ (k / 65536), k % 65536, { s with rrUrgent := pos })
    | none =>
      let busy (c : Ctrl) : Bool := [1, 2, 3].any fun k => !(ioQueues c k).isEmpty
      let tens := (io.filter busy).map (·.fn.tenant)
      let weight (t : Nat) : Option Nat := some (((s.tenant? t).map (·.cfg.fetchWeight)).getD 1)
      match rrPick s.rrTenant weight tens with
      | none => none
      | some (ten, tpos) =>
        let mine := io.filter fun c => c.fn.tenant == ten
        let key (c : Ctrl) (k : Nat) : Nat := 3 * (cntlid c.fn % 2) + (k - 1)
        let classes := mine.flatMap fun c => ([1, 2, 3].filter fun k => !(ioQueues c k).isEmpty).map (key c)
        let ctrlOf (k : Nat) : Option Ctrl := mine.find? fun c => cntlid c.fn % 2 == k / 3
        let turn (k : Nat) : Option Nat := (ctrlOf k).map fun c =>
          (if k % 3 = 0 then c.arb.high else if k % 3 = 1 then c.arb.medium else c.arb.low) + 1
        match rrPick ((get? ten s.rrTurn).getD (0, 0)) (fun k => some ((turn k).getD 1)) classes with
        | none => none
        | some (k, cpos) => match ctrlOf k with
          | none => none
          | some c =>
            let qkey := 4 * cntlid c.fn + k % 3 + 1
            let burst := if c.arb.ab = 7 then none else some (2 ^ c.arb.ab)
            match rrPick ((get? qkey s.rrSq).getD (0, 0)) (fun _ => burst) (ioQueues c (k % 3 + 1)) with
            | none => none
            | some (q, qpos) => some (c.fn, q,
                { s with rrTenant := tpos, rrTurn := put ten cpos s.rrTurn, rrSq := put qkey qpos s.rrSq })

/-- Take the entry at the head of a queue: its doorbell. -/
def popSq (f : Fn) (qid : Nat) (s : State) : State × Bell :=
  let q? := (s.ctrl? f).bind fun c => if qid = 0 then some c.asq else c.sqs.find? (·.qid == qid)
  let bell := (q?.bind fun q => q.bells.head?).getD { tick := s.now }
  let pop (q : Sq) : Sq := { q with head := (q.head + 1) % max 1 q.size, bells := q.bells.drop 1 }
  (s.setCtrl f fun c => if qid = 0 then { c with asq := pop c.asq }
    else { c with sqs := c.sqs.map fun x => if x.qid = qid then pop x else x }, bell)

/-- COMMAND_FETCH: arbitration picks a queue and its next entry `e` goes into the lowest free slot with the next ASN; a
Command Identifier still in a slot for the queue fails (R85, R86, R88, R90). DEDUCED: log entry 30. -/
def execCommandFetch (t : Tick) (e : Sqe) (s : State) : Host.Outcome State Fault Refusal :=
  let s := s.arrive t
  .next (match arbitrate s with
    | none => s
    | some (f, qid, s) =>
      let (s, bell) := popSq f qid s
      let asn := s.asn
      let s := takeAsn s
      if s.slots.any fun sl => sl.fn == f && sl.sqid == qid && sl.sqe.cid == e.cid && !sl.orphan then
        touchIdle (postCqe f qid e.cid stCidConflict 0 s)
      else match freeSlot s (qid == 0) with
      | none => s
      | some ix =>
        let urgent := ((s.ctrl? f).bind fun c => c.sqs.find? (·.qid == qid)).map (·.prio) == some 0
        let sl : Slot := { ix := ix, asn := asn, fn := f, sqid := qid, sqe := e, bell := bell, urgent := urgent }
        touchIdle { s with slots := s.slots ++ [sl] })

/-- ASN_SPAN_LIMIT: a command whose ASN lies 2^46 behind the next is ended, with a record (R87). -/
def execAsnSpanLimit (t : Tick) (ix : Nat) (s : State) : Host.Outcome State Fault Refusal :=
  let s := s.arrive t
  .next (match s.slot? ix with
    | none => s
    | some sl =>
      if (s.asn + 2 ^ 48 - sl.asn) % 2 ^ 48 < 2 ^ 46 || sl.phase == .posted then s
      else
        let s := rimeTen 0x0205 sevError sl.fn.tenant
          (le 2 (cntlid sl.fn) ++ le 2 sl.sqid ++ le 2 sl.sqe.cid ++ zeros 2 ++ le 4 sl.sqe.nsid) s
        settle (match runOfSlot s ix with
        | some r => completeRun r.asn stGraphAborted none true s
        | none => complete ix stInternal 0 (dropAer ix sl.fn s)))

/-! ### Admin commands -/

/-- An admin command in its slot passes the checks of Table 3.8 that apply to it and runs. Admin commands wait through
the pause of a hand-over (R546). -/
def adminRun (ix : Nat) (p : Body → Bool) (run : Slot → State → State) (s : State) : State :=
  if !fetched s ix p || s.fw.pauseSince.isSome then s
  else match s.slot? ix with
  | none => s
  | some sl => match checkForm sl with
    | some st => settle (complete ix st 0 s)
    | none => settle (run sl s)

/-- The 20 us abort timer (R105). DEDUCED: log entry 34. -/
abbrev abortTicks : Nat := 20 * ticksPerUs

/-- ABORT (R105, R108). DEDUCED: log entry 34. -/
def execAbort (t : Tick) (ix : Nat) (s : State) : Host.Outcome State Fault Refusal :=
  let s := s.arrive t
  .next (adminRun ix (fun b => match b with
      | .abort .. => true
      | _ => false) (fun sl s => match sl.sqe.body with
    | .abort sqid cid =>
      let out := (s.slots.filter fun x => x.fn == sl.fn && x.phase == .aborting).length
      if out ≥ 8 then complete ix ⟨1, 0x03, true⟩ 0 s
      else match s.slots.find? fun x => x.fn == sl.fn && x.sqid == sqid && x.sqe.cid == cid && x.ix != ix && !x.orphan with
      | none => complete ix stOk 1 s
      | some x =>
        if x.phase == .posted || (x.sqid == 0 && x.sqe.body != .aer) then complete ix stOk 1 s
        else
          let s := s.setSlot x.ix fun x => { x with timers := x.timers ++ [(ix, s.now + abortTicks)] }
          s.setSlot ix fun x => { x with phase := .aborting }
    | _ => s) s)

/-- The events that may commit the completion entry of a command (R105). -/
def slotEvents : Instr → Option (Tick × (State → Host.Outcome State Fault Refusal))
  | .hostDmaComplete t ix => some (t, execHostDmaComplete t ix)
  | .writeDataArrival t ix i data => some (t, execWriteDataArrival t ix i data)
  | .dataFetchFault t ix i => some (t, execDataFetchFault t ix i)
  | .dieReadComplete t d page => some (t, execDieReadComplete t d page)
  | .programComplete t d ok => some (t, fun s => match (s.die d).op with
    | some (.program serial row ch) => .next (settle (programEnds d (.program serial row ch) ok (s.arrive t)))
    | _ => .next s)
  | .grainDrain t nsid grain unit => some (t, execGrainDrain t nsid grain unit)
  | .grainInflate t nsid grain ok => some (t, execGrainInflate t nsid grain ok)
  | .mapPageLoadComplete t nsid page shelf ok => some (t, execMapPageLoadComplete t nsid page shelf ok)
  | .nodeEnd t asn node rep st detail => some (t, execNodeEnd t asn node rep st detail)
  | _ => none

/-- Events that land no later than the deadline commit the command's completion entry: it wins over its timer (R65, R105).
DEDUCED: log entry 6. -/
def completesFirst (s : State) (x : Slot) (deadline : Tick) : Bool :=
  ((s.replay slotEvents deadline).slot? x.ix).all fun y => y.asn != x.asn || y.phase == .posted

/-- ABORT_TIMER_EXPIRY: the command completes with Command Abort Requested; its Aborts complete after it (R105 to
R108, R248). DEDUCED: log entry 34. -/
def execAbortTimerExpiry (t : Tick) (ix : Nat) (s : State) : Host.Outcome State Fault Refusal :=
  let s := s.arrive t
  .next (match s.slots.find? fun x => x.timers.any (·.1 == ix) with
    | none => s
    | some x => match get? ix x.timers with
      | none => s
      | some d =>
        if !s.expired d || s.pfail.stopped || completesFirst s x d then s
        else
          let s := dropAer x.ix x.fn s
          let (s, dw0) := cutSlot x s
          settle (completeAborted x.ix ix dw0 s))

/-- ASYNCHRONOUS_EVENT_REQUEST (R85). DEDUCED: log entry 33. -/
def execAsynchronousEventRequest (t : Tick) (ix : Nat) (s : State) : Host.Outcome State Fault Refusal :=
  let s := s.arrive t
  .next (adminRun ix (fun b => match b with
      | .aer => true
      | _ => false) (fun sl s => match s.ctrl? sl.fn with
    | none => s
    | some c =>
      if c.aers.length ≥ 8 then complete ix ⟨1, 0x05, true⟩ 0 s
      else match c.events with
      | ev :: rest => complete ix stOk ev.dword
          ((s.setCtrl sl.fn fun c => { c with events := rest }).emit (.aen sl.fn ev))
      | [] =>
        let s := s.setSlot ix fun x => { x with phase := .pendingEvent }
        s.setCtrl sl.fn fun c => { c with aers := c.aers ++ [ix] }) s)

/-- PRESUMED: log entry 31. -/
def stQueueId : Status := ⟨1, 0x01, true⟩
/-- PRESUMED: log entry 31. -/
def stQueueSize : Status := ⟨1, 0x02, true⟩
/-- PRESUMED: log entry 31. -/
def stCqInvalid : Status := ⟨1, 0x00, true⟩
/-- PRESUMED: log entry 31. -/
def stVector : Status := ⟨1, 0x08, true⟩
/-- PRESUMED: log entry 31. -/
def stQueueDeletion : Status := ⟨1, 0x0C, true⟩

/-- CREATE_IO_CQ (R82, R83). -/
def execCreateIoCq (t : Tick) (ix : Nat) (s : State) : Host.Outcome State Fault Refusal :=
  let s := s.arrive t
  .next (adminRun ix (fun b => match b with
      | .createCq .. => true
      | _ => false) (fun sl s => match sl.sqe.body, s.ctrl? sl.fn with
    | .createCq qid size vector, some c =>
      if qid = 0 || qid > c.pairs || c.cqs.any (·.qid == qid) then complete ix stQueueId 0 s
      else if size < 2 || size > 4096 then complete ix stQueueSize 0 s
      else if vector > 2048 then complete ix stVector 0 s
      else complete ix stOk 0 (s.setCtrl sl.fn fun c => { c with cqs := c.cqs ++ [{ qid := qid, size := size, vector := vector }] })
    | _, _ => s) s)

/-- CREATE_IO_SQ (R82, R92): where several conditions fail, the first of identifier, completion queue, size and QPRIO gives
the status. DESIGN CHOICE: log entry 99. -/
def execCreateIoSq (t : Tick) (ix : Nat) (s : State) : Host.Outcome State Fault Refusal :=
  let s := s.arrive t
  .next (adminRun ix (fun b => match b with
      | .createSq .. => true
      | _ => false) (fun sl s => match sl.sqe.body, s.ctrl? sl.fn with
    | .createSq qid size cqid prio, some c =>
      let urgentOk := ((s.tenant? sl.fn.tenant).map (·.cfg.urgentOk)).getD false
      if qid = 0 || qid > c.pairs || c.sqs.any (·.qid == qid) then complete ix stQueueId 0 s
      else if !c.cqs.any (·.qid == cqid) then complete ix stCqInvalid 0 s
      else if size < 2 || size > 4096 then complete ix stQueueSize 0 s
      else if prio > 3 || (prio = 0 && !urgentOk) then complete ix stField 0 s
      else
        let q : Sq := { qid := qid, size := size, cqid := cqid, prio := prio }
        complete ix stOk 0 (s.setCtrl sl.fn fun c => { c with sqs := c.sqs ++ [q] })
    | _, _ => s) s)

/-- DELETE_IO_SQ: its commands end first, each with its own completion entry (R109). -/
def execDeleteIoSq (t : Tick) (ix : Nat) (s : State) : Host.Outcome State Fault Refusal :=
  let s := s.arrive t
  .next (adminRun ix (fun b => match b with
      | .deleteSq _ => true
      | _ => false) (fun sl s => match sl.sqe.body, s.ctrl? sl.fn with
    | .deleteSq qid, some c =>
      if !c.sqs.any (·.qid == qid) then complete ix stQueueId 0 s
      else
        let mine := s.slots.filter fun x => x.fn == sl.fn && x.sqid == qid && !x.orphan
        let s := mine.foldl (fun s x => endSlot x.ix stSqDeleted s) s
        let s := s.setCtrl sl.fn fun c => { c with sqs := c.sqs.filter (·.qid != qid) }
        complete ix stOk 0 s
    | _, _ => s) s)

/-- DELETE_IO_CQ: not while a submission queue posts to it. -/
def execDeleteIoCq (t : Tick) (ix : Nat) (s : State) : Host.Outcome State Fault Refusal :=
  let s := s.arrive t
  .next (adminRun ix (fun b => match b with
      | .deleteCq _ => true
      | _ => false) (fun sl s => match sl.sqe.body, s.ctrl? sl.fn with
    | .deleteCq qid, some c =>
      if !c.cqs.any (·.qid == qid) then complete ix stQueueId 0 s
      else if c.sqs.any (·.cqid == qid) then complete ix stQueueDeletion 0 s
      else complete ix stOk 0 (s.setCtrl sl.fn fun c => { c with cqs := c.cqs.filter (·.qid != qid) })
    | _, _ => s) s)

/-- Queue pairs reserved by a tenant. -/
def pairsOf (s : State) (t : Nat) : Nat := sumBy (·.pairs) (s.ctrls.filter fun c => c.fn.tenant == t)

/-- SET_FEATURES_NUMBER_OF_QUEUES (R82): the counts are 0-based, as NVMe codes them. -/
def execSetFeaturesNumberOfQueues (t : Tick) (ix : Nat) (s : State) : Host.Outcome State Fault Refusal :=
  let s := s.arrive t
  .next (adminRun ix (fun b => match b with
      | .setQueues .. => true
      | _ => false) (fun sl s => match sl.sqe.body, s.ctrl? sl.fn with
    | .setQueues nsq ncq, some c =>
      if !c.sqs.isEmpty || !c.cqs.isEmpty then complete ix stSequence 0 s
      else if nsq ≥ 65535 || ncq ≥ 65535 then complete ix stField 0 s
      else
        let s := s.setCtrl sl.fn fun c => { c with pairs := 0 }
        let quota := if exposed s sl.fn then ((s.tenant? sl.fn.tenant).map (·.cfg.ioqQuota)).getD 0 else 0
        let n := min (max nsq ncq + 1) (quota - pairsOf s sl.fn.tenant)
        if n = 0 then complete ix stField 0 s
        else complete ix stOk ((n - 1) * 65537) (s.setCtrl sl.fn fun c => { c with pairs := n })
    | _, _ => s) s)

/-- SET_FEATURES_ARBITRATION: in force from the next beat boundary (R91, R451). -/
def execSetFeaturesArbitration (t : Tick) (ix : Nat) (s : State) : Host.Outcome State Fault Refusal :=
  let s := s.arrive t
  .next (adminRun ix (fun b => match b with
      | .setArb .. => true
      | _ => false) (fun sl s => match sl.sqe.body with
    | .setArb ab lpw mpw hpw save =>
      let a : Arb := { ab := ab % 8, low := lpw % 256, medium := mpw % 256, high := hpw % 256 }
      complete ix stOk 0 (s.setCtrl sl.fn fun c => { c with
        arbStaged := some (a, s.now), arbSaved := if save then some a else c.arbSaved })
    | _ => s) s)

/-- SET_FEATURES_VOLATILE_WRITE_CACHE (R99). -/
def execSetFeaturesVolatileWriteCache (t : Tick) (ix : Nat) (s : State) : Host.Outcome State Fault Refusal :=
  let s := s.arrive t
  .next (adminRun ix (fun b => match b with
      | .setWce _ => true
      | _ => false) (fun sl s => match sl.sqe.body with
    | .setWce w => complete ix stOk 0 (s.setCtrl sl.fn fun c => { c with wce := w })
    | _ => s) s)

/-- SET_FEATURES_POWER_MANAGEMENT: an operational vote or a non-operational permission (R495). -/
def execSetFeaturesPowerManagement (t : Tick) (ix : Nat) (s : State) : Host.Outcome State Fault Refusal :=
  let s := s.arrive t
  .next (adminRun ix (fun b => match b with
      | .setPm .. => true
      | _ => false) (fun sl s => match sl.sqe.body with
    | .setPm ps hint =>
      if ps > 4 || hint ≠ 0 then complete ix stField 0 s
      else
        let s := s.setCtrl sl.fn fun c => { c with
          lastPs := ps
          votePs := if ps ≤ 2 then ps else c.votePs
          votePerm := if ps ≤ 2 then c.votePerm else some ps }
        complete ix stOk 0 s
    | _ => s) s)

/-- SET_FEATURES_APST: only APSTE is taken (R501). -/
def execSetFeaturesApst (t : Tick) (ix : Nat) (s : State) : Host.Outcome State Fault Refusal :=
  let s := s.arrive t
  .next (adminRun ix (fun b => match b with
      | .setApst _ => true
      | _ => false) (fun sl s => match sl.sqe.body with
    | .setApst a => complete ix stOk 0 (s.setCtrl sl.fn fun c => { c with apste := a })
    | _ => s) s)

/-- SET_FEATURES_INTERRUPT_COALESCING (R83). -/
def execSetFeaturesInterruptCoalescing (t : Tick) (ix : Nat) (s : State) : Host.Outcome State Fault Refusal :=
  let s := s.arrive t
  .next (adminRun ix (fun b => match b with
      | .setCoal .. => true
      | _ => false) (fun sl s => match sl.sqe.body with
    | .setCoal thr time => complete ix stOk 0 (s.setCtrl sl.fn fun c => { c with coalThr := thr % 256, coalTime := time % 256 })
    | _ => s) s)

/-- The Autonomous Power State Transition table, built from IDLE_MS (R501): 64-bit entries with the target state in bits
[7:3] and the idle time in bits [31:8]. PRESUMED: log entry 31. -/
def apstTable (s : State) : List Byte :=
  let entry (ps ms : Nat) : List Byte := le 8 (ps * 8 + ms % 2 ^ 24 * 256)
  let three := match idleMsOf s 3 with
    | some ms => entry 3 ms
    | none => zeros 8
  let four := match idleMsOf s 4, idleMsOf s 3 with
    | some a, some b => entry 4 (a - b)
    | some a, none => entry 4 a
    | none, _ => zeros 8
  pad 256 (three ++ three ++ three ++ four)

/-- PRESUMED: log entry 31. -/
def Arb.dword (a : Arb) : Nat := a.ab + 2 ^ 8 * a.low + 2 ^ 16 * a.medium + 2 ^ 24 * a.high

/-- The value of a feature by Select: 0 current, 1 default, 2 saved, 3 capabilities; none for a feature that the spec
does not name. PRESUMED: log entry 31. -/
def featureValue (c : Ctrl) (fid sel : Nat) : Option Nat :=
  let pick (cur dflt saved cap : Nat) : Option Nat :=
    if sel = 0 then some cur else if sel = 1 then some dflt else if sel = 2 then some saved else if sel = 3 then some cap else none
  match fid with
  | 0x01 => pick (Arb.dword c.arb) (Arb.dword {}) (Arb.dword (c.arbSaved.getD {})) 5
  | 0x02 => pick c.lastPs 0 0 4
  | 0x06 => pick (if c.wce then 1 else 0) 1 1 4
  | 0x07 => pick ((c.pairs - 1) * 65537) 0 0 4
  | 0x08 => pick (c.coalThr + 256 * c.coalTime) 0 0 4
  | 0x0C => pick (if c.apste then 1 else 0) 1 1 4
  | 0x19 => pick 0 0 0 0
  | _ => none

/-- GET_FEATURES. -/
def execGetFeatures (t : Tick) (ix : Nat) (s : State) : Host.Outcome State Fault Refusal :=
  let s := s.arrive t
  .next (adminRun ix (fun b => match b with
      | .getFeatures .. => true
      | _ => false) (fun sl s => match sl.sqe.body, s.ctrl? sl.fn with
    | .getFeatures fid sel, some c => match featureValue c fid sel with
      | none => complete ix stField 0 s
      | some v =>
        let s := s.emit (.feature sl.fn fid v)
        let s := if fid = 0x0C && sel ≠ 3 then s.emit (.hostWrite sl.fn [apstTable s]) else s
        complete ix stOk v s
    | _, _ => s) s)

/-- MAILBOX_TRANSFER: one mailbox request travels in an admin command (R438). The request itself is the next command on
the function's endpoint; its response completes this one. -/
def execMailboxTransfer (t : Tick) (ix : Nat) (requestFails responseFails : Bool) (s : State) :
    Host.Outcome State Fault Refusal :=
  let s := s.arrive t
  .next (adminRun ix (fun b => match b with
      | .mailbox .. => true
      | _ => false) (fun sl s => match sl.sqe.body with
    | .mailbox len lo _ =>
      if sl.sqe.nsid ≠ 0 || len < 16 || len > 4096 || len % 4 ≠ 0 || lo % 4 ≠ 0 then complete ix stField 0 s
      else match checkData sl.sqe len with
      | some st => complete ix st 0 s
      | none =>
        if requestFails then complete ix stDataTransfer 0 s
        else s.setSlot ix fun x => { x with phase := .running, outcome := if responseFails then some stDataTransfer else none }
    | _ => s) s)

/-- UNSUPPORTED_NVME_COMMAND: an opcode that the device does not support (R80, R110). -/
def execUnsupportedNvmeCommand (t : Tick) (ix : Nat) (s : State) : Host.Outcome State Fault Refusal :=
  let s := s.arrive t
  .next (if fetched s ix (fun b => match b with
      | .unsupported _ => true
      | _ => false) then settle (complete ix stOpcode 0 s) else s)

end Sys2Proof.Machine
end

