-- ==== Sys2Proof/Machine/Change.lean ====
section
/-! DEFINITION. Changing the device while it works (file 15), and the signed images of file 10: supervisor pairs,
firmware staging, hand-over and trial, microcode, read-level recalibration and SerDes re-equalisation. -/

namespace Sys2Proof.Machine

/-! ### Signed images (R419, R420) -/

abbrev signBytes : Nat := 4808

/-- The signature block of an image. -/
def signBlock (bs : List Byte) : List Byte := bs.drop (bs.length - signBytes)

/-- Both signatures of a block verify under a credential in its bulk form: 0, or the reason that fails. -/
def signReason (cred b : List Byte) : Nat :=
  if !Config.verifyEc (cred.take 97) (slice b 0 0x50) (slice b 0x50 96) then 7
  else if !Config.verifyMl (cred.drop 97) (slice b 0 0x50) (slice b 0xB0 4627) then 8
  else 0

/-- DIGEST of a block verifies over the bytes before it. -/
def digestOkFor (bs : List Byte) : Bool :=
  slice (signBlock bs) 0x20 48 == Config.sha384 (bs.take (bs.length - signBytes))

/-- The lengths agree (reason 0x01). -/
def signLength (bs : List Byte) : Bool :=
  let covered := field (signBlock bs) 8 4
  64 + signBytes ≤ bs.length && bs.length = covered + signBytes && covered = field bs 8 4

/-- MAGIC, FORMAT, KIND and the reserved bytes of a block (reason 0x02). -/
def signForm (kind : Nat) (bs : List Byte) : Bool :=
  let b := signBlock bs
  field b 0 4 == 0x53474231 && field b 4 2 == 1 && field b 6 1 == kind && field b 0x15 1 == 0
    && allZero (slice b 0x18 8) && allZero (slice b 0x12C3 5)

/-- The first check of Table 10.7 that a firmware image fails, 0 when it passes them all. -/
def fwReason (s : State) (bs : List Byte) : Nat :=
  let b := signBlock bs
  let key := field b 7 1
  let revoke := field b 0x14 1
  if !signLength bs then 1
  else if !signForm 1 bs || key > 3 || revoke > 15 || field b 0x16 2 ≠ 0xFFFF
    || field bs 0 4 ≠ 0x51465731 || field bs 4 2 ≠ 1 || field bs 6 2 ≠ 0 || !allZero (slice bs 0x14 44) then 2
  else if field b 0x0C 4 ≠ 0x6440000B then 3
  else if s.fw.revoked.testBit key || revoke.testBit key then 4
  else if field b 0x10 4 < s.fw.minSvn then 5
  else if !digestOkFor bs then 6
  else signReason (Config.vendorKey key) b

/-- The same for a program image of a tenant. DEDUCED: log entry 55. -/
def progReason (s : State) (tenant : Nat) (bs : List Byte) : Nat :=
  let b := signBlock bs
  let cred := ((s.tenant? tenant).map (·.progCred)).getD []
  if !signLength bs then 1
  else if !signForm 2 bs || field b 7 1 ≠ 0 || field b 0x10 4 ≠ 0 || field b 0x14 1 ≠ 0 then 2
  else if field b 0x0C 4 ≠ 0x6440000B then 3
  else if field b 0x16 2 ≠ tenant || cred.isEmpty then 4
  else if !digestOkFor bs then 6
  else signReason cred b

/-- The image of a NOR slot, as its bytes say. -/
def fwImageOf (s : State) (bs : List Byte) : FwImage :=
  let b := signBlock bs
  let dig := slice b 0x20 48
  { version := field bs 0x0C 8, svn := field b 0x10 4, revoke := field b 0x14 1, digest := dig
    newMicrocode := Config.microcode dig != Config.microcode (((fwSlot s s.fw.active).map (·.digest)).getD []) }

/-- DESIGN CHOICE: log entry 19. -/
def setFwSlot (i : Nat) (im : Option FwImage) (s : State) : State :=
  { s with fw := if i = 0 then { s.fw with slot0 := im } else { s.fw with slot1 := im } }

/-- Staged state as R551 codes it. DEDUCED: log entry 83. -/
def stagedCode (s : State) : Nat :=
  if s.fw.handover.isSome then 4 else if s.fw.trial.isSome then 5 else s.fw.stagedState

/-! ### Supervisor pairs (R540 to R543) -/

def pairOf (s : State) (i : Nat) : PairState := if i = 0 then s.fw.pair0 else s.fw.pair1

def setPair (i : Nat) (p : PairState) (s : State) : State :=
  { s with fw := if i = 0 then { s.fw with pair0 := p } else { s.fw with pair1 := p } }

def servingPair (s : State) : Nat := if s.fw.pair0 = .serving then 0 else 1

/-- A pair starts to serve: its heartbeat timer runs (R541). -/
def pairServes (i : Nat) (s : State) : State :=
  setPair i .serving { s with fw := { s.fw with heartbeatAt := s.now + ticksPerMs } }

/-- REPAIR work of a kind and unit ends. -/
def workDone (kind unit : Nat) (s : State) : State :=
  { s with repair := { s.repair with work := s.repair.work.filter (· != (kind, unit)) } }

/-- A pair leaves service, for good when it faults again within 24 operating hours (R543). -/
def pairLeaves (i : Nat) (s : State) : State :=
  let last := if i = 0 then s.fw.faulted0 else s.fw.faulted1
  let again := (last.map fun x => decide (s.rime.opTicks - x < 24 * ticksPerHour)).getD false
  let s := { s with fw := if i = 0 then { s.fw with faulted0 := some s.rime.opTicks }
    else { s.fw with faulted1 := some s.rime.opTicks } }
  workDone 0x12 i (fence (.pair i) (setPair i (if again then .out else .fenced) s))

/-- A supervisor pair is at fault (R541, R542, R547, R550). -/
def pairFault (i cause : Nat) (s : State) : State :=
  if i > 1 || cause > 3 || s.boot.life != .running || s.moraine.fatal.isSome then s
  else match pairOf s i with
  | .serving =>
    if pairOf s (1 - i) == .standby then
      let s := pairServes (1 - i) (pairLeaves i (handoverFail s))
      let s := { s with fw := { s.fw with takeovers := s.fw.takeovers + 1 } }
      rimeDev 0x0802 sevError true (le 1 i ++ le 1 cause) s
    else declareFatal 2 s
  | .standby | .reloading => pairLeaves i (handoverFail s)
  | _ => s

/-- LOCKSTEP_WATCHDOG_EXPIRY: the serving pair has written no heartbeat for 1 ms (R541). DEDUCED: log entry 83. -/
def execLockstepWatchdogExpiry (t : Tick) (s : State) : Host.Outcome State Fault Refusal :=
  let s := s.arrive t
  .next (if s.expired s.fw.heartbeatAt then pairFault (servingPair s) 1 s else s)

/-- PAIR_FAULT. -/
def execPairFault (t : Tick) (pair cause : Nat) (s : State) : Host.Outcome State Fault Refusal :=
  .next (pairFault pair cause (s.arrive t))

/-- PAIR_STANDBY_READY: a pair that left service, or was under test, passes its self-test (R543, R558). -/
def execPairStandbyReady (t : Tick) (pair : Nat) (s : State) : Host.Outcome State Fault Refusal :=
  let s := s.arrive t
  .next (if pair > 1 then s
    else match pairOf s pair with
    | .reloading =>
      let s := workDone 0x12 pair (setPair pair .standby s)
      let s := { s with repair := { s.repair with fenced := s.repair.fenced.filter (· != Party.pair pair) } }
      match s.fw.handover with
      | some (5, _, _) => { s with fw := { s.fw with handover := none } }
      | _ => s
    | .standby => workDone 0x12 pair s
    | _ => s)

/-! ### Hand-over (R545 to R550) -/

/-- A hand-over to the inactive slot begins, for a mailbox request or a Firmware Commit. DEDUCED: log entry 83. -/
def handoverStart (q : Option Rq) (slot : Option Nat) (s : State) : State :=
  { s with fw := { s.fw with handover := some (1, q, slot) } }

/-- HANDOVER_STANDBY_READY: the standby pair has checked and started the new image, or could not (R545, R550). -/
def execHandoverStandbyReady (t : Tick) (ok : Bool) (s : State) : Host.Outcome State Fault Refusal :=
  let s := s.arrive t
  .next (match s.fw.handover with
    | some (1, q, slot) =>
      if ok && (fwSlot s (1 - s.fw.active)).isSome && pairOf s (1 - servingPair s) == .standby then
        { s with fw := { s.fw with handover := some (2, q, slot) } }
      else settle (handoverFail s)
    | _ => s)

/-- The takeover at a beat boundary: the old pair stops and the pause begins (R545). DEDUCED: log entry 83. -/
def handoverTake (s : State) : State :=
  match s.fw.handover with
  | some (2, q, slot) =>
    let old := servingPair s
    let s := pairServes (1 - old) (setPair old .reloading s)
    { s with fw := { s.fw with handover := some (3, q, slot), pauseSince := some s.now } }
  | _ => s

/-- HANDOVER_PAUSE_END: the mirror is replayed, service resumes, the request is answered, and the boot record names the
new slot in trial (R545, R546, R550). DEDUCED: log entry 83. -/
def execHandoverPauseEnd (t : Tick) (s : State) : Host.Outcome State Fault Refusal :=
  let s := s.arrive t
  .next (match s.fw.handover, s.fw.pauseSince with
    | some (3, q, slot), some began =>
      let new := 1 - s.fw.active
      let fresh := ((fwSlot s new).map (·.newMicrocode)).getD false
      let s := { s with
        fw := { s.fw with
          handover := some (5, none, none), pauseSince := none, active := new, nextActive := none, stagedState := 0
          trial := some s.rime.opTicks, lastPause := (s.now - began) / ticksPerUs, handovers := s.fw.handovers + 1
          microcode := if fresh then List.range 8 else s.fw.microcode }
        engines := if fresh then s.engines.map fun e => { e with newMicrocode := false } else s.engines }
      let s := rimeDev 0x0801 sevNotice true (le 1 new ++ le 1 0 ++ le 2 0 ++ le 8 (fwVersion s new)) s
      let s := match q with
        | some q => respond q 0x0802 msOk [] s
        | none => s
      let s := match slot with
        | some ix => complete ix stOk 0 s
        | none => s
      if s.pfail.stopped then (if s.pfail.step = 0 then stopAndRun s else s)
      else
        let s := if firnActs s == some .work && !s.media.quantaReleased then releaseQuanta s else s
        settle (releaseAll s)
    | _, _ => s)

/-! ### Firmware requests (R443 to R445, R544, R548) -/

/-- The role may stage and activate firmware (Table 10.2). -/
def fwRole (s : State) (r : Role) : Bool := isOwner r || isBoard r || hostMay s 3 r

/-- A chunk of a firmware image begins where the one before it ended (R445). DEDUCED: log entry 83. -/
def chunkFits (s : State) (offset total : Nat) (data : List Byte) : Bool :=
  data.length ≥ 1 && offset + data.length ≤ total && (offset = 0 || (match s.fw.staging with
    | none => false
    | some (n, bs) => n = total && bs.length = offset))

/-- A chunk is accepted: the inactive slot no longer holds an image, and the chunk's NOR write is queued. -/
def stageChunk (q : Rq) (code : Nat) (recovery : Bool) (offset total : Nat) (data : List Byte) (s : State) : State :=
  if !chunkFits s offset total data then refuse q code msReserved s
  else
    let old := if offset = 0 then [] else (s.fw.staging.map (·.2)).getD []
    let s := setFwSlot (1 - s.fw.active) none { s with
      fw := { s.fw with staging := some (total, old ++ data), stagedState := 1 }
      boot := { s.boot with nor := s.boot.nor ++ [.fw q recovery offset total data] } }
    keepExecuting q code (100 * ticksPerMs) s

/-- FW_STAGE. -/
def execFwStage (t : Tick) (q : Rq) (offset total : Nat) (data : List Byte) (s : State) : Host.Outcome State Fault Refusal :=
  let s := s.arrive t
  let fm : Form := { code := 0x0801, device := true, body := 8 + data.length, roles := fwRole s }
  .next (request fm q (fun _ s =>
    if s.fw.handover.isSome || s.fw.trial.isSome then refuse q 0x0801 msBusy s
    else stageChunk q 0x0801 false offset total data s) s)

/-- RECOVERY_STAGE: over MCTP from the board controller only (R422). -/
def execRecoveryStage (t : Tick) (q : Rq) (offset total : Nat) (data : List Byte) (s : State) :
    Host.Outcome State Fault Refusal :=
  let s := s.arrive t
  let fm : Form := { code := 0x0805, device := true, body := 8 + data.length, roles := fun r => isBoard r && q.path == .mctp }
  .next (request fm q (fun _ s =>
    if s.fw.handover.isSome || s.fw.trial.isSome then refuse q 0x0805 msBusy s
    else stageChunk q 0x0805 true offset total data s) s)

/-- The last chunk of an image has been written: the image is checked and the request answered (R445, R420). -/
def stageWritten (q : Rq) (recovery : Bool) (offset total : Nat) (data : List Byte) (s : State) : State :=
  let code := if recovery then 0x0805 else 0x0801
  if offset + data.length < total then respond q code msOk [] s
  else
    let bs := (s.fw.staging.map (·.2)).getD []
    let why := fwReason s bs
    let s := { s with fw := { s.fw with staging := none, stagedState := if why = 0 then 2 else 3 } }
    if why = 0 then respond q code msOk [] (setFwSlot (1 - s.fw.active) (some (fwImageOf s bs)) s)
    else respond q code msImage (detailBody why) s

/-- FW_ACTIVATE: a hand-over to the staged slot (R544, R545). DEDUCED: log entry 83. -/
def execFwActivate (t : Tick) (q : Rq) (s : State) : Host.Outcome State Fault Refusal :=
  let s := s.arrive t
  .next (request { code := 0x0802, device := true, body := 0, roles := fwRole s } q (fun _ s =>
    if s.fw.handover.isSome then refuse q 0x0802 msBusy s
    else handoverStart (some q) none (keepExecuting q 0x0802 (2 * ticksPerS) s)) s)

/-- FW_STATUS. -/
def execFwStatus (t : Tick) (q : Rq) (s : State) : Host.Outcome State Fault Refusal :=
  let s := s.arrive t
  let svn (i : Nat) : Nat := ((fwSlot s i).map (·.svn)).getD 0
  .next (answer { code := 0x0803, device := true, body := 0, roles := fwRole s } q (fun _ s =>
    (msOk, le 8 (fwVersion s 0) ++ le 4 (svn 0) ++ le 8 (fwVersion s 1) ++ le 4 (svn 1) ++ le 4 s.fw.minSvn
      ++ le 1 s.fw.active ++ le 1 (stagedCode s) ++ le 2 0, s)) s)

/-- MIN_SVN and the revoked-key mask rise to what the running image asks, and the trial ends (R421, R548).
DEDUCED: log entry 84. -/
def raiseSvn (s : State) : State :=
  match fwSlot s s.fw.active with
  | none => s
  | some im =>
    let svn := max s.fw.minSvn im.svn
    let mask := s.fw.revoked ||| (im.revoke % 16)
    let rises := svn != s.fw.minSvn || mask != s.fw.revoked
    let s := { s with fw := { s.fw with minSvn := svn, revoked := mask, trial := none } }
    if rises then rimeDev 0x0804 sevNotice true (le 4 svn ++ le 1 mask) s else s

/-- SVN_COMMIT. DEDUCED: log entry 84. -/
def execSvnCommit (t : Tick) (q : Rq) (s : State) : Host.Outcome State Fault Refusal :=
  let s := s.arrive t
  .next (answer { code := 0x0804, device := true, body := 0, roles := isOwner } q (fun _ s => (msOk, [], raiseSvn s)) s)

/-- SVN_RAISE: the image in trial has run 24 operating hours with no fatal error (R421). DEDUCED: log entry 84. -/
def execSvnRaise (t : Tick) (s : State) : Host.Outcome State Fault Refusal :=
  let s := s.arrive t
  .next (match s.fw.trial with
    | none => s
    | some began =>
      if s.rime.opTicks - began ≥ 24 * ticksPerHour && s.moraine.fatals.all (· < began) then raiseSvn s else s)

/-! ### Firmware Image Download and Firmware Commit (R400, R544) -/

/-- PRESUMED: log entry 31. -/
def stFwSlot : Status := ⟨1, 0x06, true⟩
/-- PRESUMED: log entry 31. -/
def stFwImage : Status := ⟨1, 0x07, true⟩

/-- FIRMWARE_IMAGE_DOWNLOAD. -/
def execFirmwareImageDownload (t : Tick) (ix : Nat) (s : State) : Host.Outcome State Fault Refusal :=
  let s := s.arrive t
  .next (adminRun ix (fun b => match b with
      | .fwDownload .. => true
      | _ => false) (fun sl s => match sl.sqe.body with
    | .fwDownload off data =>
      if sl.fn.tenant ≠ 0 || !adminMay s sl.fn 3 then complete ix stLockdown 0 s
      else match checkData sl.sqe data.length with
      | some st => complete ix st 0 s
      | none =>
        let old := if off = 0 then [] else s.fw.download
        let bs := pad off old ++ data ++ old.drop (off + data.length)
        complete ix stOk 0 { s with fw := { s.fw with download := bs } }
    | _ => s) s)

/-- FIRMWARE_COMMIT: the commit actions of Table 15.2. DEDUCED: log entry 83. -/
def execFirmwareCommit (t : Tick) (ix : Nat) (s : State) : Host.Outcome State Fault Refusal :=
  let s := s.arrive t
  .next (adminRun ix (fun b => match b with
      | .fwCommit .. => true
      | _ => false) (fun sl s => match sl.sqe.body with
    | .fwCommit slot ca =>
      let target := if slot = 0 then 1 - s.fw.active else slot - 1
      if sl.fn.tenant ≠ 0 || !adminMay s sl.fn 3 then complete ix stLockdown 0 s
      else if s.fw.handover.isSome then complete ix stFwProhibited 0 s
      else if ca > 3 then complete ix stField 0 s
      else if slot > 2 || target = s.fw.active then complete ix stFwSlot 0 s
      else if s.fw.trial.isSome then complete ix stFwProhibited 0 s
      else if ca = 2 then
        if (fwSlot s target).isNone then complete ix stFwImage 0 s
        else complete ix stOk 0 { s with fw := { s.fw with nextActive := some target } }
      else if fwReason s s.fw.download ≠ 0 then complete ix stFwImage 0 s
      else
        let s := setFwSlot target (some (fwImageOf s s.fw.download)) s
        let s := { s with fw := { s.fw with
          download := [], staging := none, stagedState := 2
          nextActive := if ca = 1 then some target else s.fw.nextActive } }
        if ca = 3 then handoverStart none (some ix) (s.setSlot ix fun x => { x with phase := .running })
        else complete ix stOk 0 s
    | _ => s) s)

/-! ### Microcode (R552, R553) -/

/-- MICROCODE_LOAD: the next cluster's inactive bank is loaded; its idle engines take it at once. -/
def execMicrocodeLoad (t : Tick) (cluster : Nat) (s : State) : Host.Outcome State Fault Refusal :=
  let s := s.arrive t
  .next (match s.fw.microcode with
    | [] => s
    | c :: rest =>
      if c ≠ cluster || !s.serving then s
      else { s with
        fw := { s.fw with microcode := rest }
        engines := s.engines.map fun e =>
          if e.cluster = c && e.job.isNone then { e with newMicrocode := true } else e })

/-! ### REPAIR (R491, R558) -/

/-- A REPAIR request of a kind: its unit, the range of the unit, and the work it queues. DEDUCED: log entry 71. -/
def repairRequest (kind unit : Nat) (unitOk : Bool) (q : Rq) (run : State → Option Nat × State) (s : State) : State :=
  let fm : Form := { code := 0x0903, device := true, body := 8, badField := !unitOk, roles := fun r => isOwner r || isBoard r }
  request fm q (fun _ s =>
    if s.repair.work.contains (kind, unit) then refuse q 0x0903 msBusy s
    else match run s with
      | (some st, s) => refuse q 0x0903 st s
      | (none, s) => respond q 0x0903 msOk [] s) s

/-- Work is queued and shown on log page 0xC4 or 0xC7. -/
def workAdd (kind unit : Nat) (s : State) : State :=
  { s with repair := { s.repair with work := s.repair.work ++ [(kind, unit)] } }

/-- Dies of a channel. -/
def diesOf (ch : Nat) : List DieId := (List.range (min 16 (Config.diesOn ch))).map fun p => ⟨ch, p⟩

/-- NAND_RECAL. -/
def execNandRecal (t : Tick) (q : Rq) (unit : Nat) (s : State) : Host.Outcome State Fault Refusal :=
  .next (repairRequest 0x10 unit (unit < 32) q (fun s =>
    let s := (diesOf unit).foldl (fun s d => s.setDie d fun x => { x with recalDue := x.isolated.isNone }) s
    (none, workAdd 0x10 unit s)) (s.arrive t))

/-- The die's temperature differs by more than 20 degrees from its value at the last calibration (R554).
DESIGN CHOICE: log entry 85. -/
def dieTempMoved (s : State) (x : Die) : Bool :=
  s.rime.opTicks != x.calibratedAt
    && 20 < (Config.dieTemp x.id.ch x.id.pos s.rime.opTicks - Config.dieTemp x.id.ch x.id.pos x.calibratedAt).natAbs

/-- Recalibrations of a MAINT window (R554, R555): dies that have come due, and used ones whose temperature has moved, ask for
one. DESIGN CHOICE: log entry 85. -/
def startRecals (s : State) : State :=
  let old (x : Die) : Bool := s.rime.opTicks - x.calibratedAt ≥ 168 * ticksPerHour
  let s := if s.rime.opTicks < 168 * ticksPerHour then s
    else ((List.range 32).flatMap diesOf).foldl (fun s d =>
      if old (s.die d) then s.setDie d fun x => { x with recalDue := x.isolated.isNone } else s) s
  let s := (s.media.dies.filter fun x => x.isolated.isNone && !x.recalDue && dieTempMoved s x).foldl (fun s x =>
    s.setDie x.id fun x => { x with recalDue := true }) s
  let wants (x : Die) : Bool := x.recalDue && x.op != some .recal && !s.media.waiting.contains (x.id, .recal)
  (s.media.dies.filter wants).foldl (fun s x => dieAsk x.id .recal s) s

/-- A recalibration request ends once no die of its channel awaits one. DESIGN CHOICE: log entry 85. -/
def settleRecals (s : State) : State :=
  let open_ (k : Nat × Nat) : Bool := k.1 != 0x10 || s.media.dies.any fun x => x.id.ch == k.2 && x.recalDue
  { s with repair := { s.repair with work := s.repair.work.filter open_ } }

/-- PAIR_TEST. -/
def execPairTest (t : Tick) (q : Rq) (unit : Nat) (s : State) : Host.Outcome State Fault Refusal :=
  .next (repairRequest 0x12 unit (unit < 2) q (fun s =>
    if pairOf s unit == .serving then (some msNotPermitted, s) else (none, workAdd 0x12 unit s)) (s.arrive t))

/-! ### SerDes re-equalisation (R556, R557) -/

/-- Nominal ns from a phase step to the START of the next STILL window, none without one. -/
def nsToStill (p : Plan) (phase : Nat) : Option Nat :=
  let ds := (p.windows.filter (·.type == .still)).map fun w =>
    let d := phaseDistance phase w.start
    (if d = 0 then 4096 else d) * p.periodNs / 4096
  ds.foldl (fun a x => match a with
    | none => some x
    | some y => some (min x y)) none

/-- Indexes of the windows that follow a STILL window. -/
def afterStill (p : Plan) : List Nat :=
  let n := p.windows.length
  (List.range n).filter fun i => match p.windows[i]?, p.windows[(i + n - 1) % max 1 n]? with
    | some w, some v => v.type == .still && w.type != .still
    | _, _ => false

/-- The plan leaves 4 ms after some STILL window before the next starts (R557). DESIGN CHOICE: log entry 85. -/
def reeqGap (p : Plan) : Bool :=
  (afterStill p).any fun i => match p.windows[i]? with
    | some w => ((nsToStill p w.start).map fun d => decide (d ≥ 4000000)).getD false
    | none => false

/-- A re-equalisation falls due: in an override when the plan has no gap for it. DESIGN CHOICE: log entry 85. -/
def reeqDue (p : Port) (s : State) : State :=
  let s := s.setLink p fun l => { l with reeqDue := true }
  taskDue 4 (if p = .a then 0 else 1) s

/-- The device may start one now (R557). DESIGN CHOICE: log entry 85. -/
def reeqNow (s : State) : Bool :=
  (match s.firn.ovr with
    | some (4, d) => s.now < d
    | _ => false)
  || (!ovrActive s && s.firn.tailUntil.isNone && (afterStill s.firn.plan).contains s.firn.window
    && ((nsToStill s.firn.plan (firnPhase s)).map fun d => decide (d ≥ 4000000)).getD false)

/-- SERDES_REEQUALISATION. -/
def execSerdesReequalisation (t : Tick) (p : Port) (s : State) : Host.Outcome State Fault Refusal :=
  let s := s.arrive t
  let l := s.link p
  let due := l.reeqDue || (l.retryAt.map (s.expired ·)).getD false
  .next (if !s.serving || !l.up || !due || l.reeq || s.linkA.reeq || s.linkB.reeq || !reeqNow s then s
    else
      taskServed 4 (if p = .a then 0 else 1) (s.setLink p fun l => { l with reeq := true, reeqDue := false }))

/-- SERDES_REEQ_COMPLETE: the link is trained at the highest rate that passes (R557). DESIGN CHOICE: log entry 85. -/
def execSerdesReeqComplete (t : Tick) (p : Port) (rate : Nat) (s : State) : Host.Outcome State Fault Refusal :=
  let s := s.arrive t
  .next (if !(s.link p).reeq || !([2, 5, 8, 16, 32, 64, 128].contains rate) then s
    else
      let s := s.setLink p fun l =>
        let failed := rate < l.rate || (l.retryAt.isSome && rate ≤ l.rate)
        { l with reeq := false, rate := rate, reeqs := l.reeqs + 1, retryAt := if failed then some (s.now + ticksPerHour) else none }
      workDone 0x11 (if p = .a then 0 else 1) s)

/-- LINK_PARTNER_REEQUALISATION: honoured at any time (R556). -/
def execLinkPartnerReequalisation (t : Tick) (p : Port) (s : State) : Host.Outcome State Fault Refusal :=
  let s := s.arrive t
  .next (if (s.link p).up then s.setLink p fun l => { l with reeq := true } else s)

/-- CORRECTABLE_LINK_ERROR: more than 64 within one minute make a re-equalisation due (R556).
DESIGN CHOICE: log entry 85. -/
def execCorrectableLinkError (t : Tick) (p : Port) (s : State) : Host.Outcome State Fault Refusal :=
  let s := s.arrive t
  .next (if !(s.link p).up then s
    else
      let l := s.link p
      let fresh := s.now - l.errorsSince ≥ 60 * ticksPerS || l.errors = 0
      let n := if fresh then 1 else l.errors + 1
      let s := s.setLink p fun l => { l with
        errors := if n > 64 then 0 else n, errorsSince := if fresh then s.now else l.errorsSince }
      if n > 64 then reeqDue p s else s)

/-- SERDES_REEQ. -/
def execSerdesReeq (t : Tick) (q : Rq) (unit : Nat) (s : State) : Host.Outcome State Fault Refusal :=
  .next (repairRequest 0x11 unit (unit < 2) q (fun s =>
    (none, workAdd 0x11 unit (reeqDue (if unit = 0 then .a else .b) s))) (s.arrive t))

/-! ### Log page 0xC7 (R559) -/

def PairState.code : PairState → Nat
  | .serving => 0
  | .standby => 1
  | .reloading => 2
  | .fenced => 3
  | .out => 4

/-- Operating hours of trial left. -/
def trialLeft (s : State) : Nat :=
  match s.fw.trial with
  | none => 0
  | some began => ceilDiv (24 * ticksPerHour - (s.rime.opTicks - began)) ticksPerHour

def logC7 (s : State) : List Byte :=
  let bits (l : List Bool) : Nat := l.foldr (fun b n => 2 * n + (if b then 1 else 0)) 0
  let cluster (c : Nat) : Bool := s.engines.all fun e => e.cluster != c || e.newMicrocode
  let port (l : Link) : List Byte := le 1 l.rate ++ le 1 l.width ++ le 2 0 ++ le 4 (sat 4 l.reeqs)
  let awaiting (ch : Nat) : Nat := (s.media.dies.filter fun x => x.id.ch == ch && x.recalDue).length
  le 1 (stagedCode s) ++ le 1 (servingPair s) ++ le 1 (PairState.code s.fw.pair0) ++ le 1 (PairState.code s.fw.pair1)
    ++ le 1 (bits ((List.range 8).map cluster)) ++ le 1 (bits [s.linkA.reeq, s.linkB.reeq]) ++ le 2 (sat 2 s.fw.lastPause)
    ++ le 4 s.fw.handovers ++ le 4 s.fw.takeovers ++ le 4 (trialLeft s) ++ zeros 4
    ++ (List.range 32).flatMap (fun ch => le 1 (awaiting ch)) ++ port s.linkA ++ port s.linkB ++ zeros 56

end Sys2Proof.Machine
end

