-- ==== Sys2Proof/Machine/Keys.lean ====
section
/-! DEFINITION. The key operations of the mailbox (file 09, Table 9.2). -/

namespace Sys2Proof.Machine

/-- The GENERATION after one more key or clear (R358). -/
def genNext (g : Nat) : Nat := if g ≥ 65535 then 1 else g + 1

/-- The policy word of a slot (Table 9.1). -/
def policyWord (k : KeySlot) : Nat :=
  let bit (b : Bool) (i : Nat) : Nat := if b then 2 ^ i else 0
  k.owner + bit k.valid 16 + bit k.persist 17 + k.size * 2 ^ 18 + bit k.uMedia 20 + bit k.uEnc 21 + bit k.uDec 22
    + bit k.uHmac 23 + bit k.uKdf 24 + bit k.exportable 25 + k.origin * 2 ^ 26 + k.gen * 2 ^ 48

/-- The policy word of a blob: VALID, ORIGIN and GENERATION are zero (R366). -/
def blobWord (p : KeyPolicy) : Nat :=
  policyWord { slot := 0, owner := p.owner, persist := p.persist, size := p.size, uMedia := p.uMedia, uEnc := p.uEnc,
               uDec := p.uDec, uHmac := p.uHmac, uKdf := p.uKdf, exportable := p.exportable }

/-- A policy that a request may not carry: RESERVED_SET (R361). DEDUCED: log entry 56. -/
def policyBad (p : KeyPolicy) : Bool :=
  p.reservedSet || p.owner > 0x100 || p.size > 2 || p.uKdf || (p.uMedia && p.size != 2)

/-- Clear a slot: its jobs end, and the key and the policy word go, GENERATION apart (R358, R361, R362).
DEDUCED: log entry 56. -/
def clearSlot (k : Nat) (s : State) : State :=
  let s := endKeyJobs k s
  updSlot k (fun x => { slot := k, gen := genNext x.gen, claimed := x.claimed }) s

/-- Place a key in a slot under a policy (R358, R361, R427). DEDUCED: log entry 56. -/
def placeKey (k owner : Nat) (p : KeyPolicy) (origin : Nat) (key : List Byte) (s : State) : State :=
  updSlot k (fun x =>
    { x with
      owner := owner, valid := true, persist := p.persist, size := p.size, uMedia := p.uMedia, uEnc := p.uEnc
      uDec := p.uDec, uHmac := p.uHmac, uKdf := false, exportable := p.exportable, origin := origin
      gen := genNext x.gen, key := pad 64 key, marked := s.owner.unlocked }) s

/-- A slot that no operation of this tenant may name: the device's own, or another owner's (R355, R357, R361).
DEDUCED: log entry 56. -/
def slotForeign (s : State) (k tenant : Nat) : Bool :=
  let x := keySlot s k
  k < 16 || x.owner == 0x100 || (x.valid && x.owner != tenant)
    || (match x.claimed.bind fun c => s.run? c.1 with
      | some r => r.tenant != tenant
      | none => false)

/-- The checks that every key operation shares, after those of the message: the slot's owner, then the generation.
DEDUCED: log entry 56. -/
def slotStatus (s : State) (k gen tenant : Nat) : Option Nat :=
  if slotForeign s k tenant then some msNotPermitted
  else if gen ≠ 0 && gen ≠ (keySlot s k).gen then some msStale
  else none

/-- A key request: its code, the slot and generation it names, and the bytes it carries beyond the 48 of R446.
DEDUCED: log entry 56. -/
def keyRequest (code slot gen more : Nat) (byOwner bad : Bool) (q : Rq) (run : State → Nat × List Byte × State)
    (s : State) : State :=
  let fm : Form := { code := code, body := 48 + more, badField := slot > 1023 || gen > 65535 || bad
                     roles := fun r => isAdmin r || (byOwner && isOwner r), limit := 10 * ticksPerMs }
  answer fm q (fun _ s => match slotStatus s slot gen q.tenant with
    | some st => (st, [], s)
    | none => run s) s

/-- What fills an empty slot: the slot must be empty and the quota must leave one (R355, R361). -/
def fillSlot (slot tenant : Nat) (run : State → Nat × List Byte × State) (s : State) : Nat × List Byte × State :=
  let x := keySlot s slot
  if x.valid || x.claimed.isSome then (msNotPermitted, [], s)
  else if slotsHeld s tenant ≥ ((s.tenant? tenant).map (·.cfg.keyQuota)).getD 0 then (msNoResource, [], s)
  else
    let (st, body, s) := run s
    if st = msOk then (st, le 2 (keySlot s slot).gen, s) else (st, body, s)

/-- GENERATE. -/
def execGenerate (t : Tick) (q : Rq) (slot gen : Nat) (p : KeyPolicy) (s : State) : Host.Outcome State Fault Refusal :=
  .next (keyRequest 0x0401 slot gen 0 false (policyBad p) q (fun s =>
    if p.owner ≠ q.tenant then (msNotPermitted, [], s)
    else fillSlot slot q.tenant (fun s =>
      let (key, s) := draw (keyBytes p.size) s
      (msOk, [], placeKey slot q.tenant p 0 key s)) s) (s.arrive t))

/-- DERIVE: KDF output of purpose 4 on the request's label (R363). -/
def execDerive (t : Tick) (q : Rq) (slot gen : Nat) (p : KeyPolicy) (label : List Byte) (s : State) :
    Host.Outcome State Fault Refusal :=
  .next (keyRequest 0x0402 slot gen 0 false (policyBad p || label.length != 32) q (fun s =>
    if p.owner ≠ q.tenant then (msNotPermitted, [], s)
    else fillSlot slot q.tenant (fun s =>
      (msOk, [], placeKey slot q.tenant p 1 (kdf s q.tenant 4 label (8 * keyBytes p.size)) s)) s) (s.arrive t))

/-- Bytes 0x00 to 0x3F of a blob, its additional authenticated data (R366). -/
def blobHead (b : KeyBlob) : List Byte :=
  le 4 b.magic ++ le 2 b.format ++ le 2 b.keyLen ++ le 8 (blobWord b.policy) ++ pad 32 b.label ++ pad 12 b.nonce
    ++ le 4 b.reserved

/-- KEYLEN of a key by SIZE: a 384-bit key travels in 64 bytes (R366). -/
def blobKeyLen (size : Nat) : Nat := if size = 0 then 32 else 64

/-- A reserved value or field of a blob (R367). -/
def blobBad (b : KeyBlob) : Bool :=
  b.magic != 0x4B424C31 || b.format != 1 || !(b.keyLen == 32 || b.keyLen == 64) || b.reserved != 0 || policyBad b.policy
    || b.keyLen != blobKeyLen b.policy.size || b.key.length != b.keyLen || b.tag.length != 16
    || b.label.length != 32 || b.nonce.length != 12

/-- UNWRAP (R367). -/
def execUnwrap (t : Tick) (q : Rq) (slot gen : Nat) (b : KeyBlob) (s : State) : Host.Outcome State Fault Refusal :=
  .next (keyRequest 0x0403 slot gen (80 + (if b.keyLen = 64 then 64 else 32)) false (blobBad b) q (fun s =>
    if b.policy.owner ≠ q.tenant then (msNotPermitted, [], s)
    else fillSlot slot q.tenant (fun s =>
      let kek := kdf s q.tenant 3 b.label 256
      if gcmTag kek b.nonce (blobHead b) b.key ≠ b.tag then (msAuthFail, [], s)
      else
        let key := gcmText kek b.nonce b.key
        if !allZero (key.drop (keyBytes b.policy.size)) then (msReserved, [], s)
        else (msOk, [], placeKey slot q.tenant b.policy 2 key s)) s) (s.arrive t))

/-- WRAP (R368). -/
def execWrap (t : Tick) (q : Rq) (slot gen : Nat) (label : List Byte) (s : State) : Host.Outcome State Fault Refusal :=
  .next (keyRequest 0x0404 slot gen 0 false (label.length != 32) q (fun s =>
    let x := keySlot s slot
    if !x.valid || !x.exportable then (msNotPermitted, [], s)
    else
      let (nonce, s) := draw 12 s
      let kek := kdf s q.tenant 3 label 256
      let p : KeyPolicy := { owner := x.owner, persist := x.persist, size := x.size, uMedia := x.uMedia, uEnc := x.uEnc,
                             uDec := x.uDec, uHmac := x.uHmac, uKdf := x.uKdf, exportable := x.exportable, reservedSet := false }
      let key := pad (blobKeyLen x.size) (x.key.take (keyBytes x.size))
      let b : KeyBlob := { magic := 0x4B424C31, format := 1, keyLen := blobKeyLen x.size, policy := p, label := label,
                           nonce := nonce, reserved := 0, key := gcmText kek nonce key, tag := [] }
      (msOk, blobHead b ++ b.key ++ gcmTag kek nonce (blobHead b) b.key, s)) (s.arrive t))

/-- RESTRICT: bits are cleared, and none is set (R361). -/
def execRestrict (t : Tick) (q : Rq) (slot gen : Nat) (p : KeyPolicy) (s : State) : Host.Outcome State Fault Refusal :=
  .next (keyRequest 0x0405 slot gen 0 false (policyBad p) q (fun s =>
    let x := keySlot s slot
    let sets := (p.persist && !x.persist) || (p.uMedia && !x.uMedia) || (p.uEnc && !x.uEnc) || (p.uDec && !x.uDec)
      || (p.uHmac && !x.uHmac) || (p.exportable && !x.exportable)
    if !x.valid || sets || p.owner ≠ x.owner || p.size ≠ x.size then (msNotPermitted, [], s)
    else (msOk, [], updSlot slot (fun x =>
      { x with
        persist := p.persist, uMedia := p.uMedia, uEnc := p.uEnc, uDec := p.uDec, uHmac := p.uHmac
        exportable := p.exportable }) s)) (s.arrive t))

/-- CLEAR. -/
def execClear (t : Tick) (q : Rq) (slot gen : Nat) (s : State) : Host.Outcome State Fault Refusal :=
  .next (keyRequest 0x0406 slot gen 0 true false q (fun s => (msOk, [], settle (clearSlot slot s))) (s.arrive t))

/-- QUERY. -/
def execQuery (t : Tick) (q : Rq) (slot gen : Nat) (s : State) : Host.Outcome State Fault Refusal :=
  .next (keyRequest 0x0407 slot gen 0 true false q (fun s => (msOk, le 8 (policyWord (keySlot s slot)), s)) (s.arrive t))

/-- LOAD_NS_KEY: a tenant-held namespace's entry becomes present when the verifier agrees (R372). -/
def execLoadNsKey (t : Tick) (q : Rq) (slot gen nsid : Nat) (s : State) : Host.Outcome State Fault Refusal :=
  .next (keyRequest 0x0408 slot gen 0 false (nsid == 0 || nsid > 1024) q (fun s =>
    let x := keySlot s slot
    match s.ns? nsid with
    | none => (msNotPermitted, [], s)
    | some n =>
      if n.tenant ≠ q.tenant || n.keysrc ≠ 1 || !x.valid || !x.uMedia || x.size ≠ 2 then (msNotPermitted, [], s)
      else if nsVerifier x.key ≠ n.verifier then (msAuthFail, [], s)
      else (msOk, [], s.setNs nsid fun n => { n with key := some x.key })) (s.arrive t))

end Sys2Proof.Machine
end

