-- ==== Sys2Proof/Machine/Twill.lean ====
section
/-! DEFINITION. Twill (file 08, R335 to R353): the ordered partition with its holes, requests and results, bulk
load, parity and the background scan. -/

namespace Sys2Proof.Machine

/-! ### A partition (R336 to R344) -/

def twPart (s : State) (tenant : Nat) : TwPart := (s.twill.parts.find? (·.tenant == tenant)).getD { tenant := tenant }

def updTw (tenant : Nat) (g : TwPart → TwPart) (s : State) : State :=
  let ps := if s.twill.parts.any (·.tenant == tenant) then s.twill.parts else s.twill.parts ++ [{ tenant := tenant }]
  { s with twill := { s.twill with parts := ps.map fun p => if p.tenant = tenant then g p else p } }

/-- TWILL_SLOTS and S of a tenant. -/
def twSlots (s : State) (tenant : Nat) : Nat := ((s.tenant? tenant).map (·.cfg.twillSlots)).getD 0
def twSpace (s : State) (tenant : Nat) : Nat := 2 ^ ((s.tenant? tenant).map (·.cfg.holeLog2)).getD 4

/-- The entry limit of a partition (R337). -/
def twLimit (slots space : Nat) : Nat := slots * (space - 1) / space

/-- Another entry has room (R335, R337). -/
def twRoom (s : State) (tenant : Nat) : Bool :=
  (twPart s tenant).entries.length < twLimit (twSlots s tenant) (twSpace s tenant)
    && sumBy (fun p => p.entries.length) s.twill.parts < 1048576

/-- Place entries in key order from slot `base` on, with slot k of the region a hole when k mod S is S − 1 (R343).
DEDUCED: log entry 58. -/
def twSpread (base space : Nat) (es : List TwEntry) : List TwEntry :=
  (es.zip (List.range es.length)).map fun e => { e.1 with slot := base + e.2 + e.2 / (space - 1) }

/-- The nearest hole below, and above, a slot. -/
def holeBelow (es : List TwEntry) : Nat → Nat → Option Nat
  | 0, _ => none
  | fuel + 1, k =>
    if k = 0 then none
    else if es.any (·.slot == k - 1) then holeBelow es fuel (k - 1) else some (k - 1)

def holeAbove (es : List TwEntry) (slots : Nat) : Nat → Nat → Option Nat
  | 0, _ => none
  | fuel + 1, k =>
    if k ≥ slots then none
    else if es.any (·.slot == k) then holeAbove es slots fuel (k + 1) else some k

/-- The place of a new key: the slot after its predecessor, and its successor's slot. -/
def twPlace (es : List TwEntry) (slots key : Nat) : Nat × Nat :=
  let before := es.filter (·.key < key)
  let after := es.filter (key < ·.key)
  ((before.getLast?.map (·.slot + 1)).getD 0, (after.head?.map (·.slot)).getD slots)

/-- The aligned group to re-spread: it grows fourfold until it has 64 holes or is the whole partition (R344). -/
def twGroup (es : List TwEntry) (slots place : Nat) : Nat → Nat → Nat × Nat
  | 0, _ => (0, slots)
  | fuel + 1, len =>
    let base := place / len * len
    let n := min len (slots - base)
    if len ≥ slots then (0, slots)
    else if n - (es.filter fun e => base ≤ e.slot && e.slot < base + n).length ≥ 64 then (base, n)
    else twGroup es slots place fuel (4 * len)

/-- Put an entry in its place in key order. DEDUCED: log entry 58. -/
def twInsertAt (es : List TwEntry) (e : TwEntry) : List TwEntry :=
  es.filter (·.key < e.key) ++ [e] ++ es.filter (e.key < ·.key)

/-- Insert a key where a hole lies between its neighbours, or by moving entries toward the nearest hole: the
entries and how many moved; none when that hole is more than 4 S away (R343, R344). DEDUCED: log entry 58. -/
def twShift (es : List TwEntry) (slots space key : Nat) (value : BitVec 64) : Option (List TwEntry × Nat) :=
  let (lo, hi) := twPlace es slots key
  if lo < hi then some (twInsertAt es { slot := lo, key := key, value := value }, 0)
  else
    let below := holeBelow es (4 * space + 2) lo
    let above := holeAbove es slots (4 * space + 2) hi
    let mBelow := (below.map fun h => lo - 1 - h).getD (4 * space + 1)
    let mAbove := (above.map fun h => h - hi).getD (4 * space + 1)
    if min mBelow mAbove > 4 * space then none
    else if mBelow ≤ mAbove then
      let h := below.getD 0
      let es := es.map fun e => if h < e.slot ∧ e.slot < lo then { e with slot := e.slot - 1 } else e
      some (twInsertAt es { slot := lo - 1, key := key, value := value }, mBelow)
    else
      let h := above.getD 0
      let es := es.map fun e => if hi ≤ e.slot ∧ e.slot < h then { e with slot := e.slot + 1 } else e
      some (twInsertAt es { slot := hi, key := key, value := value }, mAbove)

/-- The whole insert: the entries, the entries moved, and the slots re-spread before it. DEDUCED: log entry 58. -/
def twInsert (es : List TwEntry) (slots space key : Nat) (value : BitVec 64) : List TwEntry × Nat × Nat :=
  match twShift es slots space key value with
  | some (es, m) => (es, m, 0)
  | none =>
    let (lo, _) := twPlace es slots key
    let (base, n) := twGroup es slots (min lo (slots - 1)) 16 (64 * space)
    let inside (e : TwEntry) : Bool := base ≤ e.slot && e.slot < base + n
    let es := es.filter (fun e => e.slot < base) ++ twSpread base space (es.filter inside)
      ++ es.filter fun e => base + n ≤ e.slot
    match twShift es slots space key value with
    | some (es, m) => (es, m, n)
    | none =>
      let es := twSpread 0 space es
      match twShift es slots space key value with
      | some (es, m) => (es, m, slots)
      | none => (twSpread 0 space (twInsertAt es { slot := 0, key := key, value := value }), 0, slots)

/-! ### Parity (R349, R350) -/

/-- A slot that failed its parity becomes a hole, counted and recorded. -/
def twLose (tenant slot : Nat) (s : State) : State :=
  let s := updTw tenant (fun p => { p with
    entries := p.entries.filter (·.slot != slot), bad := p.bad.filter (· != slot), lost := p.lost + 1 }) s
  rimeTen 0x0403 sevWarning tenant (le 4 slot ++ le 4 (twPart s tenant).lost) s

/-- The partitions in tenant order, with the first slot of each. -/
def twBases (s : State) : List (Nat × Nat) :=
  (s.tenants.foldl (fun (a : List (Nat × Nat) × Nat) t => (a.1 ++ [(t.num, a.2)], a.2 + t.cfg.twillSlots)) ([], 0)).1

/-- The tenant and slot within its partition of a slot of the array. DEDUCED: log entry 58. -/
def twLocate (s : State) (slot : Nat) : Option (Nat × Nat) :=
  (twBases s).findSome? fun b => if b.2 ≤ slot ∧ slot < b.2 + twSlots s b.1 then some (b.1, slot - b.2) else none

/-- TWILL_BACKGROUND_SCAN: every slot of the array is read once; those that fail their parity are lost (R349,
R350). -/
def execTwillBackgroundScan (t : Tick) (bad : List Nat) (s : State) : Host.Outcome State Fault Refusal :=
  let s := s.arrive t
  .next (if s.boot.life != .running || !s.units.twillIn then s
    else
      let known := (s.twill.parts.flatMap fun p => p.bad.map fun k => (p.tenant, k))
      let met := (known ++ bad.filterMap (twLocate s)).dedup
      let s := met.foldl (fun s m => twLose m.1 m.2 s) s
      { s with twill := { s.twill with scannedAt := s.now } })

/-! ### Requests and results (R340 to R342) -/

structure TwReq where
  op : Nat
  count : Nat
  tag : Nat
  value : Nat
  key : Nat
  valid : Bool
  deriving DecidableEq, Repr

/-- An operation is an update. -/
def twUpdate (op : Nat) : Bool := 0x10 ≤ op

/-- Read a request (Table 8.9). -/
def twReq (bs : List Byte) : TwReq :=
  let op := field bs 0 1
  let count := field bs 2 2
  let value := field bs 8 8
  let known := (1 ≤ op && op ≤ 5) || (0x10 ≤ op && op ≤ 0x13)
  let valueOk := value = 0 || [0x10, 0x11, 0x12].contains op
  { op := op, count := count, tag := field bs 4 4, value := value, key := unbe (slice bs 16 16)
    valid := known && field bs 1 1 == 0 && valueOk && (if op = 5 then 1 ≤ count && count ≤ 256 else count == 0) }

/-- A result (R341). -/
def twResult (status index tag : Nat) (value : BitVec 64) (key : Nat) : List Byte :=
  le 1 status ++ zeros 1 ++ le 2 index ++ le 4 tag ++ le 8 value.toNat ++ be 16 key

/-- The result that returns the request's key. -/
def twPlain (q : TwReq) (status : Nat) : List Byte := twResult status 0 q.tag 0 q.key

/-- Cycles held by an update (Table 8.12). -/
def twCycles (n : Nat) (s : State) : State := { s with twill := { s.twill with cycles := s.twill.cycles + n } }

/-- Answer one search: the entry it finds, if any. -/
def twFind (q : TwReq) (tenant : Nat) (find : List TwEntry → Option TwEntry) (s : State) : List Byte × State :=
  match find (twPart s tenant).entries with
  | none => (twPlain q 1, s)
  | some e =>
    if (twPart s tenant).bad.contains e.slot then (twPlain q 8, twLose tenant e.slot s)
    else (twResult 0 0 q.tag e.value e.key, s)

/-- The results of a scan, entry by entry; it stops at a slot that fails its parity. DEDUCED: log entry 58. -/
def twScan (q : TwReq) (tenant : Nat) (s : State) : List Byte × State :=
  let p := twPart s tenant
  let es := (p.entries.filter (q.key ≤ ·.key)).take q.count
  let good := es.takeWhile fun e => !p.bad.contains e.slot
  let found := (good.zip (List.range good.length)).flatMap fun e => twResult 0 e.2 q.tag e.1.value e.1.key
  match es[good.length]? with
  | some e => (found ++ twResult 8 good.length q.tag 0 q.key, twLose tenant e.slot s)
  | none => (if es.isEmpty then twPlain q 1 else found, s)

/-- Add an entry (R343, R345). -/
def twAdd (tenant key : Nat) (value : BitVec 64) (s : State) : State :=
  let p := twPart s tenant
  let (es, moved, spread) := twInsert p.entries (twSlots s tenant) (twSpace s tenant) key value
  let s := updTw tenant (fun p => { p with entries := es, respreads := p.respreads + (if spread > 0 then 1 else 0) }) s
  twCycles (2 + ceilDiv moved 8 + ceilDiv spread 8) s

/-- Slots whose contents an insert reads and moves that fail their parity. DEDUCED: log entry 58. -/
def twMeets (tenant key : Nat) (s : State) : Option Nat :=
  let p := twPart s tenant
  let (es, _, _) := twInsert p.entries (twSlots s tenant) (twSpace s tenant) key 0
  p.bad.find? fun b => p.entries.any fun e => e.slot == b && !(es.any fun x => x.key == e.key && x.slot == b)

/-- Set the value of a present key. -/
def twSet (tenant key : Nat) (value : BitVec 64) (s : State) : State :=
  twCycles 2 (updTw tenant (fun p => { p with
    entries := p.entries.map fun e => if e.key = key then { e with value := value } else e }) s)

/-- One update (Table 8.10). -/
def twUpdateRun (q : TwReq) (tenant : Nat) (s : State) : List Byte × State :=
  let p := twPart s tenant
  let v := BitVec.ofNat 64 q.value
  match p.entries.find? (·.key == q.key) with
  | some e =>
    if p.bad.contains e.slot then (twPlain q 8, twLose tenant e.slot s)
    else match q.op with
      | 0x10 => (twResult 5 0 q.tag e.value e.key, s)
      | 0x13 =>
        (twResult 4 0 q.tag e.value e.key,
          twCycles 2 (updTw tenant (fun p => { p with entries := p.entries.filter (·.key != q.key) }) s))
      | _ => (twResult 3 0 q.tag e.value e.key, twSet tenant q.key v s)
  | none =>
    if q.op = 0x10 ∨ q.op = 0x11 then
      if !twRoom s tenant then (twPlain q 6, s)
      else match twMeets tenant q.key s with
        | some b => (twPlain q 8, twLose tenant b s)
        | none => (twResult 2 0 q.tag v q.key, twAdd tenant q.key v s)
    else (twPlain q 1, s)

/-- The request at the head of a node's stream: its edge and bytes, with whether they are poisoned. -/
def twHead (r : GRun) (node : Nat) : Option (Nat × List Byte × Bool) :=
  match gIn r.image node (workPort r node 0) with
  | none => none
  | some e => match jobTake r e 0 32 with
    | ([], _) => none
    | (bs, poison) => some (e, bs, poison)

/-- One command on a TWILL node: a request of the operation given, with what it answers. A request with a reserved
value ends the node; the end mark ends it normally (R342). DEDUCED: log entry 58. -/
def twServe (op asn node : Nat) (run : TwReq → Nat → State → List Byte × State) (s : State) : State :=
  match s.run? asn with
  | none => s
  | some r =>
    let n := gNode r.image node
    if !s.serving || n.typ ≠ ntTwill || !s.units.twillIn || workPort r node 0 ≠ 0 || !chunkReady r node 0
      || !unitMayServe s 3 asn then s
    else match twHead r node with
      | none =>
        let e := (gIn r.image node 0).getD 0
        settle (pump asn (endOutputs asn node 0 none (takeEnd asn e 0 (startRep asn node 0 s))))
      | some (e, bs, poison) =>
        let q := twReq bs
        if poison then settle (failNode asn node 0 3 0 s)
        else if !q.valid then
          settle (pump asn (endOutputs asn node 0 (some (6, 0x20)) (jobConsume asn e 0 32 (startRep asn node 0 s))))
        else if q.op ≠ op then s
        else
          let s := jobConsume asn e 0 32 (startRep asn node 0 (noteUnit 3 r.tenant 32 s))
          let write := field (gParam r.image n) 0 4 % 2 = 1
          let (out, s) := if twUpdate op && !write then (twPlain q 7, s) else run q r.tenant s
          let s := emitBytes asn ((gOut r.image node 0).getD 0) 0 out s
          let ended := ((s.run? asn).map fun r => atEnd r e 0).getD false
          let s := if ended then endOutputs asn node 0 none (takeEnd asn e 0 s) else s
          settle (pump asn s)

/-- TWILL_GET. -/
def execTwillGet (t : Tick) (asn node : Nat) (s : State) : Host.Outcome State Fault Refusal :=
  .next (twServe 1 asn node (fun q t => twFind q t fun es => es.find? (·.key == q.key)) (s.arrive t))

/-- TWILL_FLOOR. -/
def execTwillFloor (t : Tick) (asn node : Nat) (s : State) : Host.Outcome State Fault Refusal :=
  .next (twServe 2 asn node (fun q t => twFind q t fun es => (es.filter (·.key ≤ q.key)).getLast?) (s.arrive t))

/-- TWILL_CEIL. -/
def execTwillCeil (t : Tick) (asn node : Nat) (s : State) : Host.Outcome State Fault Refusal :=
  .next (twServe 3 asn node (fun q t => twFind q t fun es => es.find? (q.key ≤ ·.key)) (s.arrive t))

/-- TWILL_NEXT. -/
def execTwillNext (t : Tick) (asn node : Nat) (s : State) : Host.Outcome State Fault Refusal :=
  .next (twServe 4 asn node (fun q t => twFind q t fun es => es.find? (q.key < ·.key)) (s.arrive t))

/-- TWILL_SCAN. -/
def execTwillScan (t : Tick) (asn node : Nat) (s : State) : Host.Outcome State Fault Refusal :=
  .next (twServe 5 asn node twScan (s.arrive t))

/-- TWILL_INSERT. -/
def execTwillInsert (t : Tick) (asn node : Nat) (s : State) : Host.Outcome State Fault Refusal :=
  .next (twServe 0x10 asn node twUpdateRun (s.arrive t))

/-- TWILL_PUT. -/
def execTwillPut (t : Tick) (asn node : Nat) (s : State) : Host.Outcome State Fault Refusal :=
  .next (twServe 0x11 asn node twUpdateRun (s.arrive t))

/-- TWILL_REPLACE. -/
def execTwillReplace (t : Tick) (asn node : Nat) (s : State) : Host.Outcome State Fault Refusal :=
  .next (twServe 0x12 asn node twUpdateRun (s.arrive t))

/-- TWILL_DELETE. -/
def execTwillDelete (t : Tick) (asn node : Nat) (s : State) : Host.Outcome State Fault Refusal :=
  .next (twServe 0x13 asn node twUpdateRun (s.arrive t))

/-- TWILL_BULK_ENTRY: one entry of the bulk load acts as a PUT without a result; its end mark opens the requests
(R348). -/
def execTwillBulkEntry (t : Tick) (asn node : Nat) (s : State) : Host.Outcome State Fault Refusal :=
  let s := s.arrive t
  .next (match s.run? asn with
    | none => s
    | some r =>
      let e := (gIn r.image node 1).getD 0
      if !s.serving || (gNode r.image node).typ ≠ ntTwill || !s.units.twillIn || workPort r node 0 ≠ 1
        || !chunkReady r node 0 || !unitMayServe s 3 asn then s
      else
        let close (s : State) : State :=
          if ((s.run? asn).map fun r => atEnd r e 0).getD false
          then updRep asn node 0 (fun x => { x with bulkDone := true }) (takeEnd asn e 0 s) else s
        match twHead r node with
        | none => settle (pump asn (close (startRep asn node 0 s)))
        | some (_, bs, poison) =>
          let key := unbe (slice bs 0 16)
          let v := BitVec.ofNat 64 (field bs 16 8)
          let end_ (d : Nat) (s : State) : State := pump asn (endOutputs asn node 0 (some (6, d)) s)
          if poison then settle (failNode asn node 0 3 0 s)
          else
            let s := jobConsume asn e 0 32 (startRep asn node 0 (noteUnit 3 r.tenant 32 s))
            if field bs 24 8 ≠ 0 then settle (end_ 0x20 s)
            else if ((r.rep node 0).bulkLast.map fun k => decide (key ≤ k)).getD false then settle (end_ 0x21 s)
            else
              let s := updRep asn node 0 (fun x => { x with bulkLast := some key }) s
              match (twPart s r.tenant).entries.find? (·.key == key) with
              | some x =>
                let s := if (twPart s r.tenant).bad.contains x.slot then twLose r.tenant x.slot s else twSet r.tenant key v s
                settle (pump asn (close s))
              | none =>
                if !twRoom s r.tenant then settle (end_ 0x22 s)
                else
                  let s := match twMeets r.tenant key s with
                    | some b => twLose r.tenant b s
                    | none => twAdd r.tenant key v s
                  settle (pump asn (close s)))

/-- Twill partition status (Table 8.13). -/
def twStatus (s : State) (tenant : Nat) : List Byte :=
  let p := twPart s tenant
  let slots := twSlots s tenant
  le 4 slots ++ le 1 (((s.tenant? tenant).map (·.cfg.holeLog2)).getD 4) ++ zeros 3 ++ le 4 p.entries.length
    ++ le 4 (twLimit slots (twSpace s tenant)) ++ le 4 p.lost ++ le 4 (sat 4 p.respreads)
    ++ le 4 (sat 4 ((s.now - s.twill.scannedAt) / ticksPerMs)) ++ zeros 4

end Sys2Proof.Machine
end

