-- ==== Sys2Proof/Machine/Settings.lean ====
section
/-! DEFINITION. Settings sets (file 11, R447 to R451): the records of Table 11.9, staging, the commit through the A/B
banks (file 05, R204 to R208), live-safe changes; the map shelf; namespaces that the mailbox creates; and the requests
about the board, the hold-up store and the device as a whole. -/

namespace Sys2Proof.Machine

/-! ### Records (Table 11.9) -/

/-- IDLE_MS values are in range, and those that expire rise strictly once the defaults stand (R498). -/
def idleOk (v : List Nat) : Bool :=
  let full := (v.zip [10, 100, 2000, 600000]).map fun x => if x.1 = 0 then x.2 else x.1
  v.length == 4 && v.all (fun x => x = 0 || x = 0xFFFFFFFF || x ≤ 86400000)
    && (full.filter (· != 0xFFFFFFFF)).Pairwise (· < ·)

/-- The device record breaks no range and sets no reserved bit. -/
def devRecOk (r : DevRec) : Bool :=
  r.stillDiePositions ≤ 8 && r.telemMask < 4 && r.computeRes % 2 ^ 30 == 0 && r.computeRes < 2 ^ 64
    && idleOk r.idleMs && !r.plan.reserved

/-- The tenant record breaks no range and sets no reserved bit. -/
def tenRecOk (r : TenRec) : Bool :=
  let share (v : Nat) : Bool := 1 ≤ v && v ≤ 64
  r.tenant ≤ 255 && r.ports < 4 && r.hostAdmin < 16 && share r.fetchWeight && share r.mediaShare && share r.unitShare
    && r.ioqQuota ≤ 2048 && r.slotQuota ≤ 8128 && r.opQuota ≤ 4096 && r.imageQuota ≤ 1024 && r.engineQuota ≤ 64
    && 2 ≤ r.holeLog2 && r.holeLog2 ≤ 6 && r.keyQuota ≤ 1008 && r.twillSlots ≤ 1179648 && r.twillSlots % 4096 == 0
    && r.slmSize % 2 ^ 21 == 0 && r.slmSize < 2 ^ 64 && r.sramPart.length == 8 && r.sramPart.all (· ≤ 64)
    && (r.tenantCred.isEmpty || r.tenantCred.length == 48) && (r.progCred.isEmpty || r.progCred.length == 48)

def DevRec.bytes (r : DevRec) : List Byte :=
  pad 512 (le 2 1 ++ le 1 r.stillDiePositions ++ zeros 1 ++ le 4 r.telemMask ++ le 8 r.computeRes
    ++ pad 16 (r.idleMs.flatMap (le 4)) ++ zeros 32 ++ r.plan.bytes)

def TenRec.bytes (r : TenRec) : List Byte :=
  pad 256 (le 2 r.tenant ++ le 1 r.ports ++ le 1 r.hostAdmin ++ le 1 (if r.urgentOk then 1 else 0) ++ le 1 r.fetchWeight
    ++ le 1 r.mediaShare ++ le 1 r.unitShare ++ le 2 r.ioqQuota ++ le 2 r.slotQuota ++ le 2 r.opQuota ++ le 2 r.imageQuota
    ++ le 1 r.engineQuota ++ le 1 r.holeLog2 ++ le 2 r.keyQuota ++ le 4 r.twillSlots ++ le 8 r.slmSize
    ++ pad 8 (r.sramPart.flatMap (le 1)) ++ pad 48 r.tenantCred ++ pad 48 r.progCred)

/-- The set in force. -/
def setInForce (s : State) : SetBody := { dev := s.settings.dev, tens := s.tenants.map (·.cfg) }

/-- The record of a tenant in a set; a record that is not listed is blank. -/
def SetBody.ten (b : SetBody) (t : Nat) : TenRec := (b.tens.find? (·.tenant == t)).getD (TenRec.blank t)

/-- Replace a tenant's record. -/
def SetBody.put (b : SetBody) (r : TenRec) : SetBody :=
  { b with tens := b.tens.filter (·.tenant != r.tenant) ++ [r] }

/-- The bytes of a part. -/
def SetBody.part (b : SetBody) (part : Nat) : List Byte := if part = 0 then DevRec.bytes b.dev else TenRec.bytes (SetBody.ten b (part - 1))

/-! ### A set takes effect -/

/-- A live-safe value enters a set (R451). DEDUCED: log entry 51. -/
def liveInto (l : Live) (b : SetBody) : SetBody :=
  let ten (t : Nat) (g : TenRec → TenRec) : SetBody := SetBody.put b (g (SetBody.ten b t))
  match l with
  | .fetchWeight t v => ten t fun r => { r with fetchWeight := v }
  | .mediaShare t v => ten t fun r => { r with mediaShare := v }
  | .unitShare t v => ten t fun r => { r with unitShare := v }
  | .telemMask v => { b with dev := { b.dev with telemMask := v } }
  | .idleMs n v => { b with dev := { b.dev with idleMs := b.dev.idleMs.set (n - 1) v } }
  | .edges st =>
    let ws := (b.dev.plan.windows.zip st).map fun x => { x.1 with start := x.2 }
    { b with dev := { b.dev with plan := { b.dev.plan with windows := ws } } }

/-- Memories that a tenant's record sizes: what lies beyond a smaller size is gone, and a change of TWILL_SLOTS or of S
re-spreads the partition (R258, R267, R336, R343). DEDUCED: log entry 51. -/
def retune (old new : TenRec) (s : State) : State :=
  let t := new.tenant
  let slm := s.compute.slm.map fun x => if x.1 = t then (x.1, x.2.filter (·.1 < new.slmSize)) else x
  let sram := s.compute.sram.map fun x =>
    if x.1 = t then (x.1, x.2.1, x.2.2.filter (·.1 < 65536 * new.sramPart.getD x.2.1 0)) else x
  let s := { s with compute := { s.compute with
    slm := slm, sram := sram
    slmPoison := s.compute.slmPoison.filter fun x => x.1 != t || x.2 < new.slmSize
    sramPoison := s.compute.sramPoison.filter fun x => x.1 != t || x.2.2 < 65536 * new.sramPart.getD x.2.1 0 } }
  if old.twillSlots = new.twillSlots && old.holeLog2 = new.holeLog2 then s
  else if s.twill.parts.any (·.tenant == t) then
    updTw t (fun p => { p with entries := twSpread 0 (2 ^ new.holeLog2) p.entries, bad := [], respreads := p.respreads + 1 }) s
  else s

/-- A set comes into force (R47, R205, R451). DEDUCED: log entry 51. -/
def putInForce (b : SetBody) (s : State) : State :=
  let olds := s.tenants.map (·.cfg)
  let s := { s with
    settings := { s.settings with dev := b.dev }
    tenants := s.tenants.map fun x => { x with cfg := SetBody.ten b x.num } }
  let s := olds.foldl (fun s r => if SetBody.ten b r.tenant = r then s else retune r (SetBody.ten b r.tenant) s) s
  if s.firn.plan = b.dev.plan then s else firnNewPlan b.dev.plan s

/-- The field that a live-safe value sets. -/
def Live.key : Live → Nat × Nat
  | .fetchWeight t _ => (1, t)
  | .mediaShare t _ => (2, t)
  | .unitShare t _ => (3, t)
  | .telemMask _ => (4, 0)
  | .idleMs n _ => (4 + n, 0)
  | .edges _ => (9, 0)

/-- Live-safe changes accepted before this tick take effect at the boundary and are journalled, 32 bytes each (R191,
R451). DEDUCED: log entry 51. -/
def applyLive (s : State) : State :=
  let due := s.settings.live.filter (·.1 < s.now)
  if due.isEmpty then s
  else
    let body := due.foldl (fun b l => liveInto l.2 b) (setInForce s)
    let kept := due.foldl (fun js l => js.filter (fun j => Live.key j.2 != Live.key l.2) ++ [(s.now, l.2)]) s.settings.journalled
    let s := { s with settings := { s.settings with
      live := s.settings.live.filter (fun l => !(l.1 < s.now)), journalled := kept } }
    journalAdd due.length (putInForce body s)

/-! ### The commit (R205, R448, R449) -/

/-- The bank that a commit writes: the one that does not hold the generation in force (R205). -/
def targetBank (s : State) : Nat :=
  if (s.settings.bankA.map (·.gen)) = some s.settings.gen then 1 else 0

def setBank (i : Nat) (b : Option Bank) (s : State) : State :=
  { s with settings := if i = 0 then { s.settings with bankA := b } else { s.settings with bankB := b } }

/-- The header and body of a bank (Table 5.8). DEDUCED: log entry 108. -/
def bankBytes (gen : Nat) (b : SetBody) : List Byte :=
  let body := (List.range 257).flatMap (SetBody.part b)
  le 4 0x51534231 ++ le 2 1 ++ zeros 2 ++ le 8 gen ++ le 4 body.length ++ zeros 44 ++ body

/-- A bank as it is programmed, with its COMMIT word (R205). DEDUCED: log entry 108. -/
def bankOf (gen : Nat) (b : SetBody) (commit : Nat) : Bank :=
  { gen := gen, body := b, digest := Config.sha384 (bankBytes gen b), commit := commit }

/-- A COMMIT word that is programmed (R204). -/
def commitWord : Nat := 0x5A3CC3A5

/-- A bank is valid: its body fits, its digest verifies and its COMMIT word stands (R204). DEDUCED: log entry 108. -/
def bankValid (b : Bank) : Bool :=
  (bankBytes b.gen b.body).length ≤ 64 + 1048384 && b.digest == Config.sha384 (bankBytes b.gen b.body)
    && b.commit == commitWord

/-- The rule of Table 11.10 that a set breaks, with its part number. DEDUCED: log entry 50. -/
def setReason (s : State) (b : SetBody) (creds : Bool) : Option (Nat × Nat) :=
  let sum (f : TenRec → Nat) : Nat := sumBy f b.tens
  let ports (r : TenRec) : Bool :=
    if s.boot.portcfg = 0 then r.tenant != 0 || r.ports == 3
    else if r.tenant = 0 then r.ports.testBit 0 else !r.ports.testBit 1
  let few := (List.range channels).foldl (fun a ch => min a (min 16 (Config.diesOn ch))) 16
  if sum (·.ioqQuota) > 2048 || sum (·.slotQuota) > 8128 || sum (·.opQuota) > 4096 || sum (·.imageQuota) > 1024
    || sum (·.keyQuota) > 1008 || sum (·.twillSlots) > 1179648
    || (List.range 8).any (fun c => sum (fun r => r.sramPart.getD c 0) > 64) then some (1, 0)
  else if sum (·.slmSize) > b.dev.computeRes || b.dev.computeRes > Config.dramBytes - 12 * 2 ^ 30
    then some (2, 0)
  else match b.tens.find? fun r => !ports r with
  | some r => some (3, 1 + r.tenant)
  | none =>
    if b.dev.stillDiePositions ≠ s.settings.dev.stillDiePositions && hasStill s then some (4, 0)
    else match b.tens.find? fun r => creds && (let o := SetBody.ten (setInForce s) r.tenant
        o.tenantCred != r.tenantCred || o.progCred != r.progCred) with
    | some r => some (5, 1 + r.tenant)
    | none => if b.dev.stillDiePositions ≠ 0 && b.dev.stillDiePositions ≥ few then some (6, 0) else none

/-- No quota lies below what its tenant holds (R336, R448). DEDUCED: log entry 50. -/
def holdingsFit (s : State) (b : SetBody) : Bool :=
  s.tenants.all fun x =>
    let r := SetBody.ten b x.num
    pairsOf s x.num ≤ r.ioqQuota && ioSlots s x.num ≤ r.slotQuota && (imagesOf s x.num).length ≤ r.imageQuota
      && opsInFlight s (·.tenant == x.num) ≤ r.opQuota && slotsHeld s x.num ≤ r.keyQuota
      && (twPart s x.num).entries.length ≤ twLimit r.twillSlots (2 ^ r.holeLog2)

/-- The record without its live-safe fields. -/
def TenRec.still (r : TenRec) : TenRec := { r with fetchWeight := 1, mediaShare := 1, unitShare := 1 }

def DevRec.still (r : DevRec) : DevRec :=
  { r with
    telemMask := 0, idleMs := []
    plan := { r.plan with windows := r.plan.windows.map fun w => { w with start := 0 } } }

def stoppedNow (x : Tenant) : Bool := x.state == .stopped && !x.draining

/-- Every tenant whose record changes beyond the live-safe fields is stopped; the device record touches them all
(R448). -/
def commitStopped (s : State) (b : SetBody) : Bool :=
  (DevRec.still b.dev == DevRec.still s.settings.dev || s.tenants.all stoppedNow)
    && s.tenants.all fun x => stoppedNow x || TenRec.still (SetBody.ten b x.num) == TenRec.still x.cfg

/-- Sets of ABSENT tenants' records are written blank (R449). -/
def SetBody.blanked (s : State) (b : SetBody) : SetBody :=
  { b with tens := b.tens.filter fun r => (s.tenant? r.tenant).isSome }

/-- The first NOR step of a commit: the target bank is erased (R205). DEDUCED: log entry 50. -/
def commitBegin (c : Commit) (b : SetBody) (s : State) : State :=
  let s := setBank (targetBank s) none s
  { s with
    settings := { s.settings with commit := some (1, b, c), commitAt := s.now }
    boot := { s.boot with nor := s.boot.nor ++ [.bank] } }

/-- A commit request is checked and starts. -/
def commitStart (c : Commit) (s : State) : State :=
  match c with
  | .live => if s.settings.journalled.isEmpty then s else commitBegin c (setInForce s) s
  | .set q base =>
    match s.settings.staged with
    | none => refuse q 0x0203 msStale s
    | some (base0, body) =>
      if base ≠ base0 || base ≠ s.settings.gen then refuse q 0x0203 msStale s
      else
        let b := SetBody.blanked s body
        match setReason s b true with
        | some (why, part) => respond q 0x0203 msSet (detailBody (why + part * 2 ^ 16)) s
        | none => match planReason (s.tenants.map (·.num)) (hasStill s) b.dev.plan with
          | some (why, ix) => respond q 0x0203 msPlan (detailBody (why + 256 * ix)) s
          | none =>
            if !holdingsFit s b then refuse q 0x0203 msNoResource s
            else if !commitStopped s b then refuse q 0x0203 msNotStopped s
            else commitBegin c b { s with settings := { s.settings with staged := none } }
  | .create q r cred =>
    if (s.tenant? r.tenant).isSome then refuse q 0x0301 msNotPermitted s
    else
      let b := SetBody.put (setInForce s) { r with tenantCred := Config.sha384 cred }
      match setReason s b false with
      | some (3, part) => respond q 0x0301 msSet (detailBody (3 + part * 2 ^ 16)) s
      | some _ => refuse q 0x0301 msNoResource s
      | none => commitBegin c b s
  | .cred q tn prog cred =>
    let code := if prog then 0x0307 else 0x0306
    match s.tenant? tn with
    | none => refuse q code msNotPermitted s
    | some x =>
      if x.state == .destroying then refuse q code msNotPermitted s
      else
        let d := Config.sha384 cred
        let r := if prog then { x.cfg with progCred := d } else { x.cfg with tenantCred := d }
        commitBegin c (SetBody.put (setInForce s) r) s

/-- Start the next commit that waits. DEDUCED: log entry 50. -/
def commitNext : Nat → State → State
  | 0, s => s
  | n + 1, s =>
    match s.settings.commit, s.settings.commitQueue with
    | none, c :: rest => commitNext n (commitStart c { s with settings := { s.settings with commitQueue := rest } })
    | _, _ => s

/-- A commit is asked for: it waits for those before it (R434). -/
def commitAsk (c : Commit) (s : State) : State :=
  let s := { s with settings := { s.settings with commitQueue := s.settings.commitQueue ++ [c] } }
  commitNext s.settings.commitQueue.length s

/-- A NOR step of the commit has completed: erase, program and verify, COMMIT (R205). DEDUCED: log entry 51. -/
def commitStep (s : State) : State :=
  match s.settings.commit with
  | none => s
  | some (step, b, c) =>
    let move (k : Nat) (s : State) : State := { s with settings := { s.settings with commit := some (k, b, c) } }
    let bank (word : Nat) (s : State) : State := setBank (targetBank s) (some (bankOf (s.settings.gen + 1) b word)) s
    if step < 4 then
      let s := if step = 1 then move 2 s else move 4 (bank 0xFFFFFFFF s)
      { s with boot := { s.boot with nor := s.boot.nor ++ [.bank] } }
    else
      let s := bank commitWord s
      move 5 { s with
        holdup := { s.holdup with bankWrites := s.holdup.bankWrites + 1 }
        settings := { s.settings with
          journalled := s.settings.journalled.filter (s.settings.commitAt < ·.1) }
        media := { s.media with liveRecs := s.media.liveRecs.filter (s.settings.commitAt < ·.1) } }

/-- The tenant that a creation adds (R402, R404). -/
def bornTenant (s : State) (r : TenRec) (cred : List Byte) : Tenant :=
  { num := r.tenant, state := .stopped, creation := s.rime.next, cfg := r, cred := cred }

/-- A tenant's view begins a series of its own (R524). -/
def newView (tn : Nat) (s : State) : State :=
  let f := s.rime.flushedNext
  { s with rime := { s.rime with
    tenantNext := s.rime.tenantNext.filter (·.1 != tn)
    flushedNext := (f.1, f.2.1, f.2.2.filter (·.1 != tn)) } }

/-- What a commit's request asked for besides the set, and its answer (R205, R448, R449). -/
def commitAnswer (c : Commit) (b : SetBody) (s : State) : State :=
  match c with
  | .live => { s with settings := { s.settings with bankedAt := some s.rime.opTicks } }
  | .set q _ => respond q 0x0203 msOk (le 8 s.settings.gen) s
  | .create q r cred =>
    let x := bornTenant s (SetBody.ten b r.tenant) cred
    let s := newView r.tenant { s with tenants := s.tenants ++ [x] }
    respond q 0x0301 msOk (le 4 x.creation) s
  | .cred q tn prog cred =>
    let s := s.setTenant tn fun x => if prog then { x with progCred := cred } else { x with cred := cred }
    let s := if prog then s else endSessions (tenantSession tn) s
    respond q (if prog then 0x0307 else 0x0306) msOk [] s

/-- At a beat boundary, a set whose COMMIT has been programmed comes into force; live-safe values that took effect
after the commit began stand (R205, R208). -/
def commitTake (s : State) : State :=
  match s.settings.commit with
  | some (5, b, c) =>
    let s := { s with settings := { s.settings with
      gen := s.settings.gen + 1, commit := none, copy := some (bankOf (s.settings.gen + 1) b commitWord) } }
    let s := putInForce (s.settings.journalled.foldl (fun b l => liveInto l.2 b) b) s
    let s := commitAnswer c b s
    commitNext s.settings.commitQueue.length s
  | _ => s

/-! ### Requests on the settings set -/

/-- SET_READ: the record, in force or staged; without a staged copy the staged set is the one in force.
DEDUCED: log entry 50. -/
def execSetRead (t : Tick) (q : Rq) (part src : Nat) (s : State) : Host.Outcome State Fault Refusal :=
  .next (answer { code := 0x0201, body := 8, badField := part > 256 || src > 1, roles := fun r => isOwner r || isAdmin r } q
    (fun r s =>
      if isAdmin r && part ≠ 1 + q.tenant then (msNotPermitted, [], s)
      else
        let (g, b) := if src = 1 then s.settings.staged.getD (s.settings.gen, setInForce s) else (s.settings.gen, setInForce s)
        (msOk, le 8 g ++ SetBody.part b part, s)) (s.arrive t))

/-- The checks of a stage after those of R430: the status, or none when it passes (R447). DEDUCED: log entry 50. -/
def stageStatus (s : State) (base part : Nat) (rec : SetRec) (b : SetBody) : Option (Nat × List Byte) :=
  if base ≠ s.settings.gen then some (msStale, [])
  else match rec with
  | .dev r =>
    match planReason (s.tenants.map (·.num)) (hasStill s) r.plan with
    | some (why, ix) => some (msPlan, detailBody (why + 256 * ix))
    | none =>
      if DevRec.still r = DevRec.still b.dev then none
      else if s.tenants.any (·.state != .stopped) then some (msTenantRunning, [])
      else if s.tenants.any (·.draining) then some (msBusy, []) else none
  | .ten r =>
    match s.tenant? r.tenant with
    | none => some (msNotPermitted, [])
    | some x =>
      let o := SetBody.ten b r.tenant
      if o.tenantCred ≠ r.tenantCred || o.progCred ≠ r.progCred then some (msSet, detailBody (5 + part * 2 ^ 16))
      else if TenRec.still o = TenRec.still r then none
      else if x.state != .stopped then some (msTenantRunning, [])
      else if x.draining then some (msBusy, []) else none

/-- The record suits its part and breaks no range. -/
def recOk (part : Nat) : SetRec → Bool
  | .dev r => part == 0 && devRecOk r
  | .ten r => part == 1 + r.tenant && tenRecOk r

/-- SET_STAGE (R447). DEDUCED: log entry 50. -/
def execSetStage (t : Tick) (q : Rq) (baseGen part : Nat) (rec : SetRec) (s : State) : Host.Outcome State Fault Refusal :=
  let fm : Form := { code := 0x0202, body := 16 + (if part = 0 then 512 else 256), badField := part > 256 || !recOk part rec
                     roles := isOwner }
  .next (answer fm q (fun _ s =>
    let b := match s.settings.staged with
      | some (g, b) => if g = s.settings.gen then b else setInForce s
      | none => setInForce s
    match stageStatus s baseGen part rec b with
    | some (st, body) => (st, body, s)
    | none =>
      let b := match rec with
        | .dev r => { b with dev := r }
        | .ten r => SetBody.put b r
      (msOk, [], { s with settings := { s.settings with staged := some (baseGen, b) } })) (s.arrive t))

/-- SET_COMMIT (R205, R448). DEDUCED: log entry 50. -/
def execSetCommit (t : Tick) (q : Rq) (baseGen : Nat) (s : State) : Host.Outcome State Fault Refusal :=
  .next (request { code := 0x0203, device := true, body := 8, roles := isOwner } q (fun _ s =>
    commitAsk (.set q baseGen) (keepExecuting q 0x0203 (10 * ticksPerS) s)) (s.arrive t))

/-- SET_DISCARD. DEDUCED: log entry 50. -/
def execSetDiscard (t : Tick) (q : Rq) (s : State) : Host.Outcome State Fault Refusal :=
  .next (answer { code := 0x0204, device := true, body := 0, roles := isOwner } q (fun _ s =>
    (msOk, [], { s with settings := { s.settings with staged := none } })) (s.arrive t))

/-- A beat boundary is still to land in this tick. DEDUCED: log entry 26. -/
def boundaryHere (s : State) : Bool := s.awaited (fun c => match c with
  | .beatBoundary t => some t
  | _ => none) s.now

/-- The beat at which a change accepted now takes effect (R451). DEDUCED: log entry 26. -/
def liveBeat (s : State) : Nat := s.firn.beat.toNat + (if boundaryHere s then 2 else 1)

/-- Accept a live-safe change: it awaits the boundary, and enters the staged copy (R451). DEDUCED: log entry 51. -/
def liveAccept (l : Live) (s : State) : State :=
  { s with settings := { s.settings with
    live := s.settings.live ++ [(s.now, l)]
    staged := s.settings.staged.map fun x => (x.1, liveInto l x.2) } }

/-- The set in force with the changes that await a boundary. -/
def setPending (s : State) : SetBody := s.settings.live.foldl (fun b l => liveInto l.2 b) (setInForce s)

/-- FIELD of SET_LIVE with its range (Table 11.11). -/
def liveOf (s : State) (tenant fld value : Nat) : Option Live :=
  let share := tenant ≤ 255 && 1 ≤ value && value ≤ 64
  let dev := tenant == 0xFFFF
  match fld with
  | 1 => if share then some (.fetchWeight tenant value) else none
  | 2 => if share then some (.mediaShare tenant value) else none
  | 3 => if share then some (.unitShare tenant value) else none
  | 4 => if dev && value < 4 then some (.telemMask value) else none
  | _ => if dev && 5 ≤ fld && fld ≤ 8 && idleOk ((setPending s).dev.idleMs.set (fld - 5) value)
    then some (.idleMs (fld - 4) value) else none

/-- SET_LIVE (R451). -/
def execSetLive (t : Tick) (q : Rq) (fld value : Nat) (s : State) : Host.Outcome State Fault Refusal :=
  let s := s.arrive t
  let l := liveOf s q.tenant fld value
  .next (answer { code := 0x0205, either := true, body := 16, badField := l.isNone, roles := isOwner } q (fun _ s =>
    if fld ≤ 3 && ((s.tenant? q.tenant).map (·.state == .destroying)).getD true then (msNotPermitted, [], s)
    else match l with
    | none => (msReserved, [], s)
    | some l => (msOk, le 8 (liveBeat s), liveAccept l s)) s)

/-- FIRN_EDGES: new START values (R46, R451). -/
def execFirnEdges (t : Tick) (q : Rq) (starts : List Nat) (s : State) : Host.Outcome State Fault Refusal :=
  let s := s.arrive t
  let n := (setPending s).dev.plan.windows.length
  let bad := starts.length != 16 || starts.any (· > 4095) || (starts.drop n).any (· != 0)
  .next (answer { code := 0x0502, device := true, body := 32, badField := bad, roles := isOwner } q (fun _ s =>
    let l := Live.edges (starts.take n)
    match planReason (s.tenants.map (·.num)) (hasStill s) (liveInto l (setPending s)).dev.plan with
    | some (why, ix) => (msPlan, detailBody (why + 256 * ix), s)
    | none => (msOk, le 8 (liveBeat s), liveAccept l s)) s)

/-- PLAN_READ. -/
def execPlanRead (t : Tick) (q : Rq) (s : State) : Host.Outcome State Fault Refusal :=
  .next (answer { code := 0x0501, device := true, body := 0, roles := isOwner } q
    (fun _ s => (msOk, le 8 s.settings.gen ++ s.firn.plan.bytes, s)) (s.arrive t))

/-! ### The map shelf (R133) -/

/-- SHELF_GRANT: a grant while a shelf is in use takes its place, and what the old one held is dropped.
DESIGN CHOICE: log entry 100. -/
def execShelfGrant (t : Tick) (q : Rq) (port : Nat) (ranges : List (Nat × Nat)) (s : State) :
    Host.Outcome State Fault Refusal :=
  let bad := port > 1 || ranges.isEmpty || ranges.length > 64
    || ranges.any fun r => r.1 % 2 ^ 21 != 0 || r.2 % 2 ^ 21 != 0 || r.2 == 0
  let total := sumBy (·.2) ranges
  .next (answer { code := 0x0206, device := true, body := 8 + 16 * ranges.length, badField := bad, roles := isOwner } q
    (fun _ s =>
      if !s.media.cacheMode || total > 32 * 2 ^ 30 || (port = 1 && s.boot.portcfg ≠ 0) then (msNoResource, [], s)
      else (msOk, le 8 total, { s with media := { s.media with shelf := { s.media.shelf with
        state := 1, port := if port = 1 then .b else .a, ranges := ranges, pages := [] } } })) (s.arrive t))

/-- SHELF_WITHDRAW (R136). -/
def execShelfWithdraw (t : Tick) (q : Rq) (s : State) : Host.Outcome State Fault Refusal :=
  .next (answer { code := 0x0207, device := true, body := 0, roles := isOwner } q
    (fun _ s => (msOk, [], shelfStop 0 s)) (s.arrive t))

/-! ### Namespaces (R137 to R141, Table 11.8) -/

/-- Sums that a creation or resize must keep: R137 for the still pool, R140 and R141. `less` is what the namespace
holds already. DEDUCED: log entry 53. -/
def capacityFits (s : State) (still : Bool) (assured stretch : Nat) (less : Nat × Nat) : Bool :=
  let a := sumBy (·.assured) s.nss + assured - less.1
  let st := sumBy (·.assured) (s.nss.filter (·.still)) + assured - less.1
  let stretched := sumBy (·.stretch) s.nss + stretch - less.2
  a ≤ dac s && (!still || st ≤ stillPool s * 64 * 85 / 100)
    && (stretch ≤ less.2
      || (s.media.dev == .normal && stretched ≤ (dac s - a) * (measuredRatio s).1 / (measuredRatio s).2))

/-- The device offers a still class: not with data pages of less than 16 KiB (R60, R119, R121). DEDUCED: log entry 50. -/
def stillOffered (s : State) : Bool :=
  stillBudget > 0 && s.settings.dev.stillDiePositions > 0 && 256 ≤ Config.framesPerPage

/-- The free NSIDs of the 1,024 (R75): which of them a creation takes is not given. DEDUCED: log entry 53. -/
def freeNsids (s : State) : List Nat :=
  ((List.range 1024).map (· + 1)).filter fun n => !s.nss.any (·.nsid == n)

/-- The map mode is chosen again (R130). -/
def mapMode (s : State) : State := { s with media := { s.media with cacheMode := cacheModeNow s } }

/-- Add a namespace: a device-held one draws its salt and its key is present at once (R372). DEDUCED: log entry 53. -/
def addNs (n : Ns) (s : State) : State :=
  if n.keysrc = 0 then
    let (salt, s) := draw 32 s
    let n := { n with salt := salt, marked := s.owner.unlocked }
    mapMode { s with nss := s.nss ++ [{ n with key := some (nsDeviceKey s n) }] }
  else mapMode { s with nss := s.nss ++ [n] }

/-- Controllers of a tenant learn that their namespaces changed. -/
def nsChanged (tenant : Nat) (s : State) : State := raiseAll (fun c => c.en && c.fn.tenant == tenant) .nsAttrChanged s

/-- NS_CREATE (Table 11.8). DEDUCED: log entry 53. -/
def execNsCreate (t : Tick) (q : Rq) (grain still keysrc lbaf slot gen assured stretch : Nat) (s : State) :
    Host.Outcome State Fault Refusal :=
  let unit := 32 * 2 ^ 20
  let bad := grain > 1 || still > 1 || keysrc > 1 || lbaf > 1 || (still = 1 && (grain ≠ 0 || stretch ≠ 0))
    || (keysrc = 0 && (slot ≠ 0 || gen ≠ 0)) || slot > 1023 || gen > 65535
    || assured < unit || assured % unit ≠ 0 || stretch % unit ≠ 0 || assured ≥ 2 ^ 64 || stretch ≥ 2 ^ 64
  let fm : Form :=
    { code := 0x0309, body := 32, badField := bad, roles := fun r => isOwner r || isAdmin r, limit := 100 * ticksPerMs }
  .next (answer fm q (fun r s =>
    let key := keySlot s slot
    let alive := ((s.tenant? q.tenant).map (·.state != .destroying)).getD false
    if !alive || (keysrc = 1 && isOwner r) then (msNotPermitted, [], s)
    else match (if keysrc = 1 then slotStatus s slot gen q.tenant else none) with
    | some st => (st, [], s)
    | none =>
      if keysrc = 1 && (!key.valid || !key.uMedia || key.size ≠ 2) then (msNotPermitted, [], s)
      else if !capacityFits s (still = 1) assured stretch (0, 0) || (still = 1 && !stillOffered s) then (msNoResource, [], s)
      else match pick (freeNsids s) s with
      | (none, s) => (msNoResource, [], s)
      | (some n, s) =>
        let ns : Ns :=
          { nsid := n, tenant := q.tenant, grain32 := grain == 1, lbaf := lbaf, still := still == 1, keysrc := keysrc,
            assured := assured, stretch := stretch, attached := [⟨q.tenant, .a⟩, ⟨q.tenant, .b⟩],
            key := if keysrc = 1 then some key.key else none, verifier := if keysrc = 1 then nsVerifier key.key else [] }
        (msOk, le 4 n, nsChanged q.tenant (addNs ns s))) (s.arrive t))

/-- NS_RESIZE: capacity only rises (R140, R141). DEDUCED: log entry 53. -/
def execNsResize (t : Tick) (q : Rq) (nsid assured stretch : Nat) (s : State) : Host.Outcome State Fault Refusal :=
  let unit := 32 * 2 ^ 20
  let bad := nsid = 0 || nsid > 1024 || assured < unit || assured % unit ≠ 0 || stretch % unit ≠ 0
    || assured ≥ 2 ^ 64 || stretch ≥ 2 ^ 64
  let fm : Form :=
    { code := 0x030A, body := 24, badField := bad, roles := fun r => isOwner r || isAdmin r, limit := 100 * ticksPerMs }
  .next (answer fm q (fun _ s =>
    match s.ns? nsid with
    | none => (msNotPermitted, [], s)
    | some n =>
      if n.tenant ≠ q.tenant || assured < n.assured || stretch < n.stretch || (n.still && stretch ≠ 0) then (msNotPermitted, [], s)
      else if !capacityFits s n.still assured stretch (n.assured, n.stretch) then (msNoResource, [], s)
      else
        let s := s.setNs nsid fun n => { n with assured := assured, stretch := stretch }
        (msOk, [], nsChanged q.tenant (mapMode s))) (s.arrive t))

/-! ### The board and the device -/

/-- The 32 bytes of the board descriptor (Table 5.1). -/
def descBytes (d : BoardDesc) : List Byte :=
  pad 32 (le 2 d.format ++ le 1 d.huAddr ++ le 1 d.huCmd ++ le 1 d.huIsolate ++ le 1 d.huRestore ++ le 1 d.huPage ++ le 1 0
    ++ le 4 d.vminMv ++ le 4 d.vnomMv ++ le 4 d.eRatedMj)

/-- A field of the board descriptor lies outside its range (Table 5.1). DEDUCED: log entry 89. -/
def boardDescBad (d : BoardDesc) : Bool :=
  d.format != 1 || !(d.huAddr == 0 || (0x08 ≤ d.huAddr && d.huAddr ≤ 0x77)) || d.huCmd > 255 || d.huIsolate > 255
    || d.huRestore > 255 || d.huPage > 255 || d.vnomMv ≤ d.vminMv || d.vnomMv ≥ 2 ^ 32 || d.eRatedMj < 1800
    || d.eRatedMj ≥ 2 ^ 32

/-- BOARD_DESC: the descriptor goes to the NOR (R178). DEDUCED: log entry 89. -/
def execBoardDesc (t : Tick) (q : Rq) (d : BoardDesc) (s : State) : Host.Outcome State Fault Refusal :=
  .next (request { code := 0x0A03, device := true, body := 32, badField := boardDescBad d, roles := isBoard } q (fun _ s =>
    let s := keepExecuting q 0x0A03 (100 * ticksPerMs) s
    { s with boot := { s.boot with nor := s.boot.nor ++ [.desc q d 0, .desc q d 1] } }) (s.arrive t))

/-- POWER_LIMIT (R512). -/
def execPowerLimit (t : Tick) (q : Rq) (limitMw : Nat) (s : State) : Host.Outcome State Fault Refusal :=
  let bad := limitMw ≠ 0 && !(30000 ≤ limitMw && limitMw ≤ 86000)
  .next (answer { code := 0x0A04, device := true, body := 8, badField := bad, roles := fun r => isOwner r || isBoard r } q
    (fun _ s => (msOk, [], { s with power := { s.power with limit := if limitMw = 0 then 86000 else limitMw } })) (s.arrive t))

/-- The 64 bytes of Table 5.6. -/
def holdupBytes (s : State) : List Byte :=
  let h := s.holdup
  let hours := match h.passedAt with
    | some p => (s.rime.opTicks - p) / ticksPerHour
    | none => 0xFFFFFFFF
  pad 64 (le 1 (if h.proven then 0 else 1) ++ le 1 (if h.proven then 0 else proofReason s) ++ zeros 2 ++ le 4 (sat 4 hours)
    ++ le 4 h.eAvail ++ le 4 h.eStep ++ le 4 h.v1 ++ le 4 h.v2 ++ le 4 h.passes ++ le 4 h.fails ++ le 4 (sat 4 h.seqUs)
    ++ le 4 h.sequences ++ le 4 h.losses ++ le 4 h.cuts ++ le 4 h.bankWrites)

/-- HOLDUP_STATUS (R197). -/
def execHoldupStatus (t : Tick) (q : Rq) (s : State) : Host.Outcome State Fault Refusal :=
  .next (answer { code := 0x0A01, device := true, body := 0, roles := fun r => isOwner r || isBoard r } q
    (fun _ s => (msOk, holdupBytes s, s)) (s.arrive t))

/-- SHUTDOWN: the device shutdown that answers it follows (R198). DEDUCED: log entry 86. -/
def execShutdown (t : Tick) (q : Rq) (s : State) : Host.Outcome State Fault Refusal :=
  .next (request { code := 0x0A02, device := true, body := 0, roles := fun r => isOwner r || isBoard r } q (fun _ s =>
    if s.boot.shutdownRq.isSome then refuse q 0x0A02 msBusy s
    else { keepExecuting q 0x0A02 (200 * ticksPerMs) s with boot := { s.boot with shutdownRq := some q } }) (s.arrive t))

/-- "FJS-6440-B55-I" in ASCII. -/
def orderingCode : List Byte :=
  [0x46, 0x4A, 0x53, 0x2D, 0x36, 0x34, 0x34, 0x30, 0x2D, 0x42, 0x35, 0x35, 0x2D, 0x49]

def Role.code : Role → Nat
  | .host _ => 0
  | .owner => 1
  | .admin _ => 2
  | .board => 3

/-- DEVICE_INFO (Table 11.7). -/
def execDeviceInfo (t : Tick) (q : Rq) (s : State) : Host.Outcome State Fault Refusal :=
  .next (answer { code := 0x0101, device := true, body := 0, roles := fun _ => true } q (fun r s =>
    (msOk, pad 16 orderingCode ++ le 4 0x6440000B ++ le 1 0x42 ++ le 1 (DevState.code s.media.dev)
      ++ le 1 (if s.boot.life == .running then 1 else 0) ++ le 1 (Role.code r) ++ le 8 (fwVersion s s.fw.active)
      ++ le 8 s.settings.gen ++ le 4 (Endpoint.id q.ep) ++ le 2 s.tenants.length ++ le 2 4096 ++ le 4 524288
      ++ le 1 (if s.owner.cred.isEmpty then 0 else 1) ++ zeros 11, s)) (s.arrive t))

/-- BULK_WRITE (R444). -/
def execBulkWrite (t : Tick) (q : Rq) (offset : Nat) (data : List Byte) (s : State) : Host.Outcome State Fault Refusal :=
  let bad := offset + data.length > 524288 || data.length > 4072
  .next (answer { code := 0x0105, body := 8 + data.length, badField := bad, roles := fun _ => true } q
    (fun _ s => (msOk, [], s.setEp q.ep fun x => { x with bulk := Memory.writeN x.bulk offset data })) (s.arrive t))

end Sys2Proof.Machine
end

