-- ==== Sys2Proof/Machine/Tenants.lean ====
section
/-! DEFINITION. Tenants, sessions, ownership and debug (file 10), program images (file 07, R274, R275), and the end of
a page program, which also verifies the device-tables records of an erasure. -/

namespace Sys2Proof.Machine

/-! ### Sessions (R394 to R397) -/

/-- ASCII "QM-FJS6440-SES01". -/
def sessionLabel : List Byte :=
  [0x51, 0x4D, 0x2D, 0x46, 0x4A, 0x53, 0x36, 0x34, 0x34, 0x30, 0x2D, 0x53, 0x45, 0x53, 0x30, 0x31]

/-- The 72 bytes that a proof signs (R396). -/
def sessionBytes (nonce : List Byte) (role tenant : Nat) (e : Endpoint) : List Byte :=
  sessionLabel ++ pad 48 nonce ++ le 1 role ++ le 2 tenant ++ zeros 1 ++ le 4 (Endpoint.id e)

/-- The endpoint can carry a session of the role (Table 10.1). DEDUCED: log entry 49. -/
def sessionPlace (role tenant : Nat) : Endpoint → Bool
  | .fn f => if role = 1 then f.tenant == 0 else f.tenant == tenant
  | .mctp .. => role == 1

/-- A reserved role, or a tenant number outside its range. -/
def roleBad (role tenant : Nat) : Bool := !(role == 1 || role == 2) || tenant > 255 || (role = 1 && tenant ≠ 0)

/-- CHALLENGE: a nonce, unless the endpoint is locked out (R396). DEDUCED: log entry 49. -/
def execChallenge (t : Tick) (q : Rq) (role tenant : Nat) (s : State) : Host.Outcome State Fault Refusal :=
  .next (answer { code := 0x0102, body := 4, badField := roleBad role tenant, roles := fun _ => true } q (fun _ s =>
    let locked := ((s.ep q.ep).lockout.map fun d => !s.expired d).getD false
    if locked || !sessionPlace role tenant q.ep then (msNotPermitted, [], s)
    else
      let (n, s) := draw 48 s
      (msOk, n, s.setEp q.ep fun x => { x with nonce := some (n, s.now) })) (s.arrive t))

/-- Both signatures over a message verify under a credential (R394): SIG_EC stands first. DEDUCED: log entry 49. -/
def proofOk (cred msg sig : List Byte) : Bool :=
  !cred.isEmpty && Config.verifyEc (cred.take 97) msg (sig.take 96) && Config.verifyMl (cred.drop 97) msg (slice sig 96 4627)

/-- A failed proof is counted; the eighth within an operating hour locks the endpoint for 60 s (R396).
DEDUCED: log entry 49. -/
def proofFails (e : Endpoint) (s : State) : State :=
  let fails := ((s.ep e).failed.filter fun x => s.rime.opTicks - x < ticksPerHour) ++ [s.rime.opTicks]
  if fails.length < 8 then s.setEp e fun x => { x with failed := fails }
  else
    let s := s.setEp e fun x => { x with failed := [], lockout := some (s.now + 60 * ticksPerS) }
    match e with
    | .fn f => rimeTen 0x0505 sevWarning f.tenant (le 4 (Endpoint.id e)) s
    | .mctp .. => rimeDev 0x0505 sevWarning false (le 4 (Endpoint.id e)) s

/-- PROVE (R396, R397). DEDUCED: log entry 49. -/
def execProve (t : Tick) (q : Rq) (role tenant bulkLen : Nat) (s : State) : Host.Outcome State Fault Refusal :=
  let fm : Form := { code := 0x0103, body := 8, badField := roleBad role tenant || bulkLen != 4723, roles := fun _ => true }
  .next (bulkRequest fm q bulkLen (fun _ bs s =>
    if !sessionPlace role tenant q.ep then refuse q 0x0103 msNotPermitted s
    else
      let nonce := (s.ep q.ep).nonce
      let s := s.setEp q.ep fun x => { x with nonce := none }
      let cred := if role = 1 then s.owner.cred else ((s.tenant? tenant).map (·.cred)).getD []
      let good := match nonce with
        | none => false
        | some (n, at_) => !s.expired (at_ + 60 * ticksPerS + 1) && proofOk cred (sessionBytes n role tenant q.ep) bs
      if !good then refuse q 0x0103 msAuthFail (proofFails q.ep s)
      else
        let s := endSession q.ep s
        respond q 0x0103 msOk [] (s.setEp q.ep fun x => { x with session := some (role, tenant, s.now) })) (s.arrive t))

/-- CLOSE: the session of the endpoint ends. -/
def execClose (t : Tick) (q : Rq) (s : State) : Host.Outcome State Fault Refusal :=
  .next (answer { code := 0x0104, body := 0, roles := fun r => isOwner r || isAdmin r } q
    (fun _ s => (msOk, [], endSession q.ep s)) (s.arrive t))

/-! ### Stop and start (R89, R253, R450) -/

/-- The drain of a tenant is complete: held runs may stay. DEDUCED: log entry 52. -/
def drained (s : State) (tenant : Nat) : Bool :=
  (s.slots.all fun sl => sl.fn.tenant != tenant || sl.ix ≥ 8128 || sl.phase == .held || sl.phase == .posted)
    && s.compute.runs.all fun r => r.tenant != tenant || r.released.isNone

/-- The end of a drain: DRAINING clears and the stop is answered (R450). DEDUCED: log entry 52. -/
def drainEnd (tenant : Nat) (s : State) : State :=
  match s.tenant? tenant with
  | none => s
  | some x =>
    if !x.draining then s
    else
      let s := s.setTenant tenant fun x => { x with draining := false, graceAt := none, stopRq := none }
      match x.stopRq with
      | none => s
      | some q => respond q 0x0303 msOk [] s

/-- TENANT_DRAIN_COMPLETE. -/
def execTenantDrainComplete (t : Tick) (tenant : Nat) (s : State) : Host.Outcome State Fault Refusal :=
  let s := s.arrive t
  .next (if drained s tenant then drainEnd tenant s else s)

/-- TENANT_STOP. DEDUCED: log entry 52. -/
def execTenantStop (t : Tick) (q : Rq) (graceMs : Nat) (s : State) : Host.Outcome State Fault Refusal :=
  let fm : Form :=
    { code := 0x0303, body := 4, badField := graceMs > 60000, roles := isOwner, limit := (graceMs + 200) * ticksPerMs }
  .next (request fm q (fun _ s =>
    match s.tenant? q.tenant with
    | none => refuse q 0x0303 msNotPermitted s
    | some x =>
      if x.state == .destroying then refuse q 0x0303 msNotPermitted s
      else if x.draining then refuse q 0x0303 msBusy s
      else if x.state == .stopped then respond q 0x0303 msOk [] s
      else
        let s := keepExecuting q 0x0303 ((graceMs + 200) * ticksPerMs) s
        let s := s.setTenant q.tenant fun x =>
          { x with
            state := .stopped, draining := true, graceAt := some (s.now + graceMs * ticksPerMs), stopRq := some q }
        if drained s q.tenant then drainEnd q.tenant s else s) (s.arrive t))

/-- TENANT_START. DEDUCED: log entry 52. -/
def execTenantStart (t : Tick) (q : Rq) (s : State) : Host.Outcome State Fault Refusal :=
  .next (request { code := 0x0304, body := 0, roles := isOwner } q (fun _ s =>
    match s.tenant? q.tenant with
    | none => refuse q 0x0304 msNotPermitted s
    | some x =>
      if x.state == .destroying then refuse q 0x0304 msNotPermitted s
      else if x.draining then refuse q 0x0304 msBusy s
      else
        let s := s.setTenant q.tenant fun x => { x with state := .running }
        releaseAll (respond q 0x0304 msOk [] s)) (s.arrive t))

def TState.code : TState → Nat
  | .stopped => 1
  | .running => 2
  | .destroying => 3

/-- TENANT_STATE. DEDUCED: log entry 52. -/
def execTenantState (t : Tick) (q : Rq) (s : State) : Host.Outcome State Fault Refusal :=
  .next (answer { code := 0x0305, body := 0, roles := fun r => isOwner r || isAdmin r } q (fun _ s =>
    match s.tenant? q.tenant with
    | none => (msOk, zeros 8, s)
    | some x => (msOk, le 1 (TState.code x.state) ++ le 1 (if x.draining then 1 else 0) ++ zeros 2 ++ le 4 x.creation, s))
    (s.arrive t))

/-! ### Creation and credentials (R404, R449) -/

/-- TENANT_CREATE. DEDUCED: log entry 52. -/
def execTenantCreate (t : Tick) (q : Rq) (rec : TenRec) (bulkLen : Nat) (s : State) : Host.Outcome State Fault Refusal :=
  let fm : Form :=
    { code := 0x0301, body := 260, badField := !tenRecOk rec || rec.tenant != q.tenant || bulkLen != 2689
      roles := isOwner, limit := 10 * ticksPerS }
  .next (bulkRequest fm q bulkLen (fun _ bs s =>
    if (s.tenant? q.tenant).isSome then refuse q 0x0301 msNotPermitted s
    else commitAsk (.create q { rec with progCred := [] } bs) (keepExecuting q 0x0301 (10 * ticksPerS) s)) (s.arrive t))

/-- A change of a tenant's credential. -/
def credRequest (code : Nat) (prog : Bool) (roles : Role → Bool) (q : Rq) (bulkLen : Nat) (s : State) : State :=
  let fm : Form := { code := code, body := 4, badField := bulkLen != 2689, roles := roles, limit := 10 * ticksPerS }
  bulkRequest fm q bulkLen (fun _ bs s =>
    commitAsk (.cred q q.tenant prog bs) (keepExecuting q code (10 * ticksPerS) s)) s

/-- TENANT_CRED. -/
def execTenantCred (t : Tick) (q : Rq) (bulkLen : Nat) (s : State) : Host.Outcome State Fault Refusal :=
  .next (credRequest 0x0306 false (fun r => isOwner r || isAdmin r) q bulkLen (s.arrive t))

/-- PROGSIGN_CRED. -/
def execProgsignCred (t : Tick) (q : Rq) (bulkLen : Nat) (s : State) : Host.Outcome State Fault Refusal :=
  .next (credRequest 0x0307 true isAdmin q bulkLen (s.arrive t))

/-! ### Crypto-erase (R410 to R412) -/

/-- Crypto-erase of a tenant. Its held runs, whose images go, end with Graph Aborted. DEDUCED: log entry 52. -/
def eraseTenant (tn : Nat) (s : State) : State :=
  let s := (s.compute.runs.filter (·.tenant == tn)).foldl (fun s r => completeRun r.asn stGraphAborted none true s) s
  let s := (tenantNs s tn).foldl (fun s n => cryptoErase n s) s
  let mine (k : KeySlot) : Bool := k.valid && k.owner == tn && k.slot ≥ 16
  let s := ((s.units.keys.filter mine).map (·.slot)).foldl (fun s k => clearSlot k s) s
  let s := s.setTenant tn fun x => { x with progs := [] }
  let s := { s with compute := { s.compute with
    images := s.compute.images.filter (·.tenant != tn)
    slm := s.compute.slm.filter (·.1 != tn), slmPoison := s.compute.slmPoison.filter (·.1 != tn)
    sram := s.compute.sram.filter (·.1 != tn), sramPoison := s.compute.sramPoison.filter (·.1 != tn) } }
  let s := { s with units := { s.units with digestRegs := s.units.digestRegs.filter (·.tenant != tn) } }
  if s.twill.parts.any (·.tenant == tn) then updTw tn (fun p => { p with entries := [], bad := [] }) s else s

/-- Keys that depend on the seed follow it (R364, R372). DEDUCED: log entry 44. -/
def reseed (seed : List Byte) (s : State) : State :=
  let s := { s with units := { s.units with seed := seed } }
  { s with nss := s.nss.map fun n => if n.keysrc = 0 && n.key.isSome then { n with key := some (nsDeviceKey s n) } else n }

/-! ### Destruction (R406, Table 10.4) -/

/-- Contexts that a tenant's jobs hold in the units. -/
def contextsOf (s : State) (tn : Nat) : Nat :=
  let jobs := ((s.units.lanes ++ s.units.digests).flatMap fun u => u.job.toList ++ u.store) ++ s.units.wrapped.map (·.2.2)
  (jobs.filter (·.tenant == tn)).length
    + sumBy (fun f => (f.contexts.filter fun c => ((s.run? c.1).map (·.tenant)) == some tn).length) s.units.felts

/-- Steps 1 and 2: the tenant is DESTROYING, its commands and runs end without a completion, and its sessions end. What
is reclaimed comes with it: slots of commands, ops, contexts, Twill locks, and whether it was running.
DEDUCED: log entry 52. -/
def destroyBegin (tn : Nat) (s : State) : State × (Nat × List Nat) :=
  let mine := s.slots.filter (·.fn.tenant == tn)
  let cmds := (mine.filter fun sl => (runOfSlot s sl.ix).isNone).length
  let ops := opsInFlight s (·.tenant == tn)
  let ctx := contextsOf s tn
  let was := ((s.tenant? tn).map fun x => if x.state == .running then 1 else 0).getD 0
  let s := anaChange (·.fn.tenant == tn) (drainEnd tn s)
  let s := s.setTenant tn fun x => { x with state := .destroying, sanitize := none }
  let lose (sl : Slot) : Slot := if sl.fn.tenant = tn then { sl with orphan := true } else sl
  let s := { s with slots := s.slots.map lose }
  let s := (s.slots.filter (·.fn.tenant == tn)).foldl (fun s sl =>
    let (s, dw0) := cutSlot sl s
    finish sl.ix stAborted dw0 s) s
  let mute (c : Ctrl) : Ctrl :=
    if c.fn.tenant = tn then { c with aers := [], events := c.events.filter (· == .anaChange) } else c
  let s := { s with ctrls := s.ctrls.map mute }
  (endSessions (tenantSession tn) s, (tn, [cmds, ops, ctx, 0, was]))

/-- Steps 5 and 6: what the tenant had is removed, its record is written, and it is ABSENT. DEDUCED: log entry 52. -/
def destroyEnd (x : Nat × List Nat) (s : State) : State :=
  let tn := x.1
  let n (i : Nat) : Nat := sat 2 (x.2.getD i 0)
  let s := rimeTen 0x0501 sevNotice tn (le 2 (n 0) ++ le 2 (n 1) ++ le 2 (n 2) ++ le 2 (n 3)) s
  let bare (c : Ctrl) : Ctrl := if c.fn.tenant = tn then { c with pairs := 0, sqs := [], cqs := [] } else c
  -- the owner's totals keep the tenant's still-class reads (R67)
  let gone := (get? tn s.firn.stillReads).getD (0, 0, 0)
  let was := s.firn.stillGone
  let of (l : Live) : Bool := (Live.key l).1 ≤ 3 && (Live.key l).2 == tn
  mapMode { s with
    nss := s.nss.filter (·.tenant != tn)
    ctrls := s.ctrls.map bare
    compute := { s.compute with
      sets := s.compute.sets.filter (·.tenant != tn), counts := s.compute.counts.filter (·.tenant != tn)
      engUse := s.compute.engUse.filter (·.tenant != tn), unitUse := s.compute.unitUse.filter (·.tenant != tn)
      snapshot := s.compute.snapshot.filter (·.1 != tn) }
    twill := { s.twill with parts := s.twill.parts.filter (·.tenant != tn) }
    firn := { s.firn with
      stillReads := s.firn.stillReads.filter (·.1 != tn)
      stillGone := (was.1 + gone.1, was.2.1 + gone.2.1, was.2.2 + gone.2.2) }
    settings := { s.settings with
      live := s.settings.live.filter (fun l => !of l.2), journalled := s.settings.journalled.filter (fun l => !of l.2) }
    media := { s.media with liveRecs := s.media.liveRecs.filter (fun l => !of l.2) }
    tenants := s.tenants.filter (·.num != tn) }

/-! ### Erasures in progress -/

/-- The response code of an erasure. DEDUCED: log entry 54. -/
def EraseKind.code : EraseKind → Nat
  | .destroy => 0x0302
  | .erase => 0x0308
  | .claim _ => 0x0310
  | .transfer _ => 0x0311
  | .release => 0x0312
  | .restore => 0x0313
  | .debug _ => 0x0315

/-- An erasure is queued; the first of the queue writes its intent record (R407, R412, R434). -/
def erasureStart (s : State) : State :=
  match s.owner.erasures with
  | e :: rest => if e.step = 0 then { s with owner := { s.owner with erasures := { e with step := 3 } :: rest } } else s
  | [] => s

def erasureAsk (q : Rq) (kind : EraseKind) (limit : Nat) (destroys erases : List Nat) (s : State) : State :=
  let s := keepExecuting q (EraseKind.code kind) limit s
  let (s, ds) := destroys.foldl (fun (a : State × List (Nat × List Nat)) tn =>
    let (s, d) := destroyBegin tn a.1
    (s, a.2 ++ [d])) (s, [])
  let e : Erasure := { q := q, kind := kind, destroys := ds, erases := erases }
  settle (erasureStart { s with owner := { s.owner with erasures := s.owner.erasures ++ [e] } })

/-- Tenant 0's view begins again (R402). DEDUCED: log entry 44. -/
def rebirth (s : State) : State :=
  newView 0 (s.setTenant 0 fun x => { x with creation := s.rime.next })

/-- The ownership changes, with its record (R416, R418). DEDUCED: log entry 44. -/
def ownerBecomes (cred seed : List Byte) (why : Nat) (s : State) : State :=
  let s := { s with owner := { s.owner with cred := cred } }
  rimeDev 0x0503 sevCritical true (le 1 why) (rebirth (reseed seed s))

/-- What R418 does to the shelf, to tenant 0's credentials and to the owner's sessions. DEDUCED: log entry 44. -/
def ownerLeaves (s : State) : State :=
  let s := endSessions (tenantSession 0) (shelfStop 0 s)
  endSessions ownerSession (s.setTenant 0 fun x =>
    { x with cred := [], progCred := [], cfg := { x.cfg with tenantCred := [], progCred := [] } })

/-- An erasure has ended: what its request asked for beyond the erasure, and its answer. DEDUCED: log entry 44. -/
def erasureEnd (e : Erasure) (s : State) : State :=
  let s := e.destroys.foldl (fun s d => destroyEnd d s) s
  let s := { s with owner := { s.owner with intent := none, erasures := s.owner.erasures.drop 1 } }
  let s := match e.kind with
    | .destroy | .erase => s
    | .claim cred => ownerBecomes cred s.units.seed 0 s
    | .transfer cred =>
      let (seed, s) := draw 48 (ownerLeaves s)
      ownerBecomes cred seed 1 s
    | .release => ownerBecomes [] (zeros 48) 2 (ownerLeaves s)
    | .restore =>
      let s := ownerBecomes [] (zeros 48) 3 (ownerLeaves s)
      { s with
        settings := { s.settings with
          bankA := none, bankB := none, copy := none, staged := none, journalled := [], live := [] }
        media := { s.media with liveRecs := [] }
        boot := { s.boot with restore := true } }
    | .debug k =>
      let (seed, s) := draw 48 s
      let s := reseed seed s
      let n := s.owner.unlocks + 1
      let s := rimeDev 0x0504 sevCritical true (le 1 k ++ zeros 3 ++ le 4 n) s
      { s with owner := { s.owner with unlocked := true, unlocks := n } }
  settle (erasureStart (respond e.q (EraseKind.code e.kind) msOk [] s))

/-- A device-tables record of the erasure has been verified: the intent, the erase, the end (Table 10.4). -/
def erasureStep (s : State) : State :=
  match s.owner.erasures with
  | [] => s
  | e :: rest =>
    let ds := e.destroys.map (·.1)
    let move (k : Nat) (s : State) : State := { s with owner := { s.owner with erasures := { e with step := k } :: rest } }
    match e.step with
    | 3 =>
      let s := { s with owner := { s.owner with intent := some (ds, e.erases) } }
      let s := match e.kind with
        | .claim _ =>
          let (seed, s) := draw 48 s
          reseed seed s
        | _ => s
      move 4 ((ds ++ e.erases).foldl (fun s tn => eraseTenant tn s) s)
    | 4 => if ds.isEmpty then erasureEnd e s else move 6 s
    | 6 => erasureEnd e s
    | _ => s

/-- PROGRAM_COMPLETE: a page program reports its status (R153, R161, R181). On a die with no operation of the media, it
is the program of a device-tables record. During a start that PFAIL_N ends, it is the verified media write at which the start
ends (R188). DESIGN CHOICE: log entry 37. -/
def execProgramComplete (t : Tick) (d : DieId) (ok : Bool) (s : State) : Host.Outcome State Fault Refusal :=
  let s := s.arrive t
  .next (
    if !s.pins.pwrgd then s
    else if s.boot.life == .starting then (if ok && s.boot.endedByPfail then endStart s else s)
    else if 1 ≤ s.pfail.step && s.pfail.step ≤ 5 then pfailProgram ok s
    else match (s.die d).op with
    | none => if ok && s.serving then erasureStep s else s
    | some (.program serial row ch) =>
      if (s.die d).resetting then s else settle (programEnds d (.program serial row ch) ok s)
    | some _ => s)

/-! ### Erasing requests -/

/-- TENANT_DESTROY (R406). -/
def execTenantDestroy (t : Tick) (q : Rq) (s : State) : Host.Outcome State Fault Refusal :=
  .next (request { code := 0x0302, body := 0, roles := isOwner, limit := 100 * ticksPerMs } q (fun _ s =>
    match s.tenant? q.tenant with
    | none => refuse q 0x0302 msNotPermitted s
    | some x =>
      if q.tenant = 0 then refuse q 0x0302 msNotPermitted s
      else if x.state == .destroying then refuse q 0x0302 msBusy s
      else erasureAsk q .destroy (100 * ticksPerMs) [q.tenant] [] s) (s.arrive t))

/-- TENANT_ERASE (R411). -/
def execTenantErase (t : Tick) (q : Rq) (s : State) : Host.Outcome State Fault Refusal :=
  .next (request { code := 0x0308, body := 0, roles := isOwner, limit := 100 * ticksPerMs } q (fun _ s =>
    match s.tenant? q.tenant with
    | none => refuse q 0x0308 msNotPermitted s
    | some x =>
      if !stoppedNow x then refuse q 0x0308 msNotStopped s
      else erasureAsk q .erase (100 * ticksPerMs) [] [q.tenant] s) (s.arrive t))

/-- Tenants other than tenant 0. -/
def others (s : State) : List Nat := (s.tenants.map (·.num)).filter (· != 0)

/-- OWN_CLAIM (R416). DEDUCED: log entry 54. -/
def execOwnClaim (t : Tick) (q : Rq) (bulkLen : Nat) (s : State) : Host.Outcome State Fault Refusal :=
  let may (r : Role) : Bool := match r with
    | .board => true
    | .host f => f.tenant == 0
    | _ => false
  let fm : Form :=
    { code := 0x0310, device := true, body := 4, badField := bulkLen != 2689, roles := may, limit := 20 * ticksPerS }
  .next (bulkRequest fm q bulkLen (fun _ bs s =>
      if !s.owner.cred.isEmpty then refuse q 0x0310 msNotPermitted s
      else if s.slots.any (·.ix < 8128) then refuse q 0x0310 msBusy s
      else erasureAsk q (.claim bs) (20 * ticksPerS) [] (s.tenants.map (·.num)) s) (s.arrive t))

/-- An owner request that needs every tenant stopped. DEDUCED: log entry 52. -/
def whenStopped (q : Rq) (code : Nat) (run : State → State) (s : State) : State :=
  if s.tenants.all stoppedNow then run s else refuse q code msNotStopped s

/-- OWN_TRANSFER (R418). DEDUCED: log entry 54. -/
def execOwnTransfer (t : Tick) (q : Rq) (bulkLen : Nat) (s : State) : Host.Outcome State Fault Refusal :=
  let fm : Form :=
    { code := 0x0311, device := true, body := 4, badField := bulkLen != 2689, roles := isOwner, limit := 20 * ticksPerS }
  .next (bulkRequest fm q bulkLen (fun _ bs s => whenStopped q 0x0311 (fun s => erasureAsk q (.transfer bs) (20 * ticksPerS) (others s) [0] s) s) (s.arrive t))

/-- OWN_RELEASE (R418). DEDUCED: log entry 54. -/
def execOwnRelease (t : Tick) (q : Rq) (s : State) : Host.Outcome State Fault Refusal :=
  .next (request { code := 0x0312, device := true, body := 0, roles := isOwner, limit := 20 * ticksPerS } q
    (fun _ s => whenStopped q 0x0312 (fun s => erasureAsk q .release (20 * ticksPerS) (others s) [0] s) s) (s.arrive t))

/-- FACTORY_RESTORE (R415). DEDUCED: log entry 54. -/
def execFactoryRestore (t : Tick) (q : Rq) (s : State) : Host.Outcome State Fault Refusal :=
  .next (request { code := 0x0313, device := true, body := 0, roles := isOwner, limit := 20 * ticksPerS } q
    (fun _ s => whenStopped q 0x0313 (fun s => erasureAsk q .restore (20 * ticksPerS) (others s) [0] s) s) (s.arrive t))

/-! ### Debug unlock (R426, R427) -/

/-- DEBUG_NONCE. -/
def execDebugNonce (t : Tick) (q : Rq) (s : State) : Host.Outcome State Fault Refusal :=
  .next (answer { code := 0x0314, device := true, body := 0, roles := isOwner } q (fun _ s =>
    let (n, s) := draw 48 s
    (msOk, n, { s with owner := { s.owner with debugNonce := some (n, s.now) } })) (s.arrive t))

/-- The status that an unlock token earns: the fields, the vendor's signatures, then the owner's.
DEDUCED: log entry 54. -/
def tokenStatus (s : State) (nonce : Option (List Byte × Tick)) (bs : List Byte) : Nat :=
  let block := slice bs 0 108
  let k := field block 104 1
  let fresh := match nonce with
    | none => false
    | some (n, at_) => !s.expired (at_ + 600 * ticksPerS + 1) && slice block 0 48 == pad 48 n
  if field block 100 4 ≠ 1 || k > 3 || !allZero (slice block 105 3) then msReserved
  else if !fresh || field block 48 4 ≠ 0x6440000B || slice block 52 48 ≠ Config.sha384 Config.identityKey
    || s.fw.revoked.testBit k || !proofOk (Config.vendorKey k) block (slice bs 108 4723)
    || !proofOk s.owner.cred block (slice bs 4831 4723) then msAuthFail
  else msOk

/-- DEBUG_UNLOCK. DEDUCED: log entry 54. -/
def execDebugUnlock (t : Tick) (q : Rq) (bulkLen : Nat) (s : State) : Host.Outcome State Fault Refusal :=
  let fm : Form :=
    { code := 0x0315, device := true, body := 4, badField := bulkLen != 9554, roles := isOwner, limit := ticksPerS }
  .next (bulkRequest fm q bulkLen (fun _ bs s => whenStopped q 0x0315 (fun s =>
      let st := tokenStatus s s.owner.debugNonce bs
      let s := { s with owner := { s.owner with debugNonce := none } }
      if st ≠ msOk then refuse q 0x0315 st s
      else erasureAsk q (.debug (field bs 104 1)) ticksPerS [] (s.tenants.map (·.num)) s) s) (s.arrive t))

/-! ### Program images (R274, R275, R420) -/

/-- A reserved value or a reserved field of a program image header. DEDUCED: log entry 55. -/
def progReserved (bs : List Byte) : Bool :=
  field bs 4 2 != 1 || field bs 6 1 > 1 || field bs 7 1 != 0 || !allZero (slice bs 0x24 28)

/-- The offset of the first field of the header that breaks a rule of Table 7.5. DEDUCED: log entry 55. -/
def progFault (bs : List Byte) : Option Nat :=
  let code := field bs 0x0C 4
  let sp := field bs 0x14 4
  let slim := field bs 0x18 4
  let x := field bs 0x1C 4
  let y := field bs 0x20 4
  if field bs 0 4 ≠ 0x434D5031 then some 0
  else if field bs 8 4 ≠ 64 + code + x + y then some 8
  else if code % 4 ≠ 0 || code < 4 || code > 65536 then some 0x0C
  else if field bs 0x10 4 % 4 ≠ 0 || field bs 0x10 4 ≥ code then some 0x10
  else if sp % 4 ≠ 0 || sp < 0x140 || sp > 0x40000 then some 0x14
  else if slim % 4 ≠ 0 || slim < 0x140 || slim > sp then some 0x18
  else if x % 4 ≠ 0 || x > 130752 then some 0x1C
  else if y % 4 ≠ 0 || y > 131072 then some 0x20
  else none

/-- PROG_INSTALL: the signature block first, then the header. Which free PROG_ID it gets is not given.
DEDUCED: log entry 55. -/
def execProgInstall (t : Tick) (q : Rq) (bulkLen : Nat) (s : State) : Host.Outcome State Fault Refusal :=
  let fm : Form :=
    { code := 0x0601, body := 4, badField := bulkLen > 524288, roles := fun r => isOwner r || isAdmin r
      limit := 100 * ticksPerMs }
  .next (bulkRequest fm q bulkLen (fun _ bs s =>
    match s.tenant? q.tenant with
    | none => refuse q 0x0601 msNotPermitted s
    | some x =>
      let why := progReason s q.tenant bs
      if x.state == .destroying then refuse q 0x0601 msNotPermitted s
      else if why = 1 then respond q 0x0601 msProgram (detailBody 8) s
      else if why ≠ 0 then respond q 0x0601 msImage (detailBody why) s
      else if progReserved bs then refuse q 0x0601 msReserved s
      else match progFault bs with
      | some off => respond q 0x0601 msProgram (detailBody off) s
      | none =>
        let free := ((List.range (x.progs.length + 1)).map (· + 1)).filter fun i => !x.progs.any (·.id == i)
        let (id, s) := pick free s
        let p : ProgImage := { id := id.getD 0, bytes := bs }
        respond q 0x0601 msOk (le 4 p.id) (s.setTenant q.tenant fun x => { x with progs := x.progs ++ [p] })) (s.arrive t))

/-- PROG_REMOVE. DEDUCED: log entry 55. -/
def execProgRemove (t : Tick) (q : Rq) (progId : Nat) (s : State) : Host.Outcome State Fault Refusal :=
  .next (answer { code := 0x0602, body := 4, roles := fun r => isOwner r || isAdmin r, limit := 10 * ticksPerMs } q (fun _ s =>
    if (progOf s q.tenant progId).isNone then (msNotPermitted, [], s)
    else (msOk, [], s.setTenant q.tenant fun x => { x with progs := x.progs.filter (·.id != progId) })) (s.arrive t))

/-- PROG_LIST: as many entries as one response holds. DEDUCED: log entry 55. -/
def execProgList (t : Tick) (q : Rq) (s : State) : Host.Outcome State Fault Refusal :=
  .next (answer { code := 0x0603, body := 0, roles := fun r => isOwner r || isAdmin r } q (fun _ s =>
    match s.tenant? q.tenant with
    | none => (msNotPermitted, [], s)
    | some x =>
      let ps := x.progs.take 72
      let entry (p : ProgImage) : List Byte := le 4 p.id ++ le 4 (field p.bytes 8 4) ++ slice (signBlock p.bytes) 0x20 48
      (msOk, le 4 ps.length ++ zeros 4 ++ ps.flatMap entry, s)) (s.arrive t))

/-- TWILL_STATUS (Table 8.13). -/
def execTwillStatus (t : Tick) (q : Rq) (s : State) : Host.Outcome State Fault Refusal :=
  .next (answer { code := 0x0604, body := 0, roles := fun r => isOwner r || isAdmin r } q (fun _ s =>
    if (s.tenant? q.tenant).isNone then (msNotPermitted, [], s) else (msOk, twStatus s q.tenant, s)) (s.arrive t))

end Sys2Proof.Machine
end

