-- ==== Sys2Proof/Machine/Memories.lean ====
section
/-! DEFINITION. Memories, codes and self-repair (file 12): errors of DRAM and of the on-die memories, remap words,
scrub passes, retraining and post-package repair, engine self-tests, Calving, the reclaim of fenced parties, and log
page 0xC4. -/

namespace Sys2Proof.Machine

/-- Within the last 24 operating hours. -/
def within24 (s : State) (x : Nat) : Bool := s.rime.opTicks - x < 24 * ticksPerHour

/-! ### DRAM channels (R457 to R468) -/

def updChan (ch : Nat) (g : DramCh → DramCh) (s : State) : State :=
  { s with repair := { s.repair with chans := s.repair.chans.map fun c => if c.ix = ch then g c else c } }

def chan? (s : State) (ch : Nat) : Option DramCh := s.repair.chans.find? (·.ix == ch)

/-- A channel falls due for retraining; the cause is the place in R462's list (R56, R463).
DESIGN CHOICE: log entry 74. -/
def retrainDue (ch cause : Nat) (s : State) : State :=
  taskDue 1 ch (updChan ch (fun c => { c with due := some (c.due.getD cause) }) s)

/-- The channel's temperature differs by more than 15 degrees from its value at the last training (R462).
DESIGN CHOICE: log entry 74. -/
def tempMoved (s : State) (c : DramCh) : Bool :=
  s.rime.opTicks != c.trainedAt
    && 15 < (Config.dramTemp c.ix s.rime.opTicks - Config.dramTemp c.ix c.trainedAt).natAbs

/-- Channels that fall due by their age or their temperature, or again after a reverted retraining (R462, R463).
DESIGN CHOICE: log entry 74. -/
def retrainAges (s : State) : State :=
  s.repair.chans.foldl (fun s c =>
    if !c.inService || c.due.isSome || c.retraining then s
    else match c.retry with
    | some (t, k) => if s.rime.opTicks - t ≥ ticksPerHour then retrainDue c.ix k (updChan c.ix (fun c => { c with retry := none }) s) else s
    | none => if s.rime.opTicks - c.trainedAt ≥ 24 * ticksPerHour then retrainDue c.ix 0 s
      else if tempMoved s c then retrainDue c.ix 1 s else s) s

/-- A retraining, a rate change or a post-package repair runs on some channel (R463). -/
def dramBusy (s : State) : Bool := chanBusy s || rateChanging s

/-- Start the retraining of the channel that an override serves, or else of the lowest channel due (R56, R463).
DESIGN CHOICE: log entry 74. -/
def retrainStart (want : Option Nat) (s : State) : State :=
  if dramBusy s then s
  else match s.repair.chans.find? fun c => c.inService && c.due.isSome && want.all (· == c.ix) with
    | none => s
    | some c => taskServed 1 c.ix (updChan c.ix (fun c => { c with retraining := true, retry := none }) s)

/-- Start the post-package repair of the lowest channel with a failing row, or with a hard repair asked for (R466,
R468). DESIGN CHOICE: log entry 74. -/
def repairStart (s : State) : State :=
  if dramBusy s then s
  else match s.repair.chans.find? fun c => c.inService && !c.failing.isEmpty with
    | some c => updChan c.ix (fun c => { c with repairing := c.failing.head?.map fun r => (r, 0), failing := c.failing.drop 1 }) s
    | none => match s.repair.chans.find? fun c => c.inService && !c.hardQueue.isEmpty with
      | some c => updChan c.ix (fun c => { c with repairing := c.hardQueue.head?.map fun r => (r, 1), hardQueue := c.hardQueue.drop 1 }) s
      | none => s

/-- A row is found failing (R465). DESIGN CHOICE: log entry 74. -/
def rowFails (ch row : Nat) (s : State) : State :=
  updChan ch (fun c =>
    let known := c.failing.contains row || c.soft.contains row || c.hard.contains row || c.repairing.map (·.1) == some row
    if known then c else { c with failing := c.failing ++ [row] }) s

/-- A resident map page is lost from DRAM and must be loaded again (Table 12.1). DESIGN CHOICE: log entry 39. -/
def losePage (nsid page : Nat) (s : State) : State :=
  s.setNs nsid fun n =>
    if n.resident.contains page && n.written.contains page then
      { n with resident := n.resident.filter (· != page), loading := n.loading.filter (· != page) ++ [page] }
    else n

/-- DRAM_UNCORRECTABLE (R457, R465). DESIGN CHOICE: log entry 73. -/
def execDramUncorrectable (t : Tick) (ch row : Nat) (user : DramUser) (s : State) : Host.Outcome State Fault Refusal :=
  let s := s.arrive t
  .next (if s.boot.life != .running || !((chan? s ch).map (·.inService)).getD false then s
    else
      let s := rowFails ch row { s with repair := { s.repair with uncorrected := bump 7 1 s.repair.uncorrected } }
      match user with
      | .mapPageClean nsid page =>
        if ((s.ns? nsid).map fun n => n.dirty.contains page).getD false then s else losePage nsid page s
      | .mapPageDirty nsid page =>
        if ((s.ns? nsid).map fun n => n.dirty.contains page).getD false then losePage nsid page s else s
      | .readCache => s
      | .shelfTag nsid page => { s with media := { s.media with shelf := { s.media.shelf with
          pages := s.media.shelf.pages.filter fun x => !(x.1 == nsid && x.2.1 == page) } } }
      | .slm tenant addr =>
        if (s.tenant? tenant).isNone || s.compute.slmPoison.contains (tenant, addr / 64) then s
        else { s with compute := { s.compute with slmPoison := s.compute.slmPoison ++ [(tenant, addr / 64)] } }
      | .wrappedContext unit asn node replica =>
        if s.units.wrapped.any fun w => w.1 == decide (unit ≥ 4) && w.2.2.is asn node replica then
          { s with units := { s.units with lost := s.units.lost ++ [(asn, node, replica)] } }
        else s
      | .heldTwice good => if good then s else declareFatal 1 s)

/-- DRAM_RETRAINING_COMPLETE: the new timing is in force, or the previous one again (R463). -/
def execDramRetrainingComplete (t : Tick) (ok : Bool) (stallUs : Nat) (s : State) : Host.Outcome State Fault Refusal :=
  let s := s.arrive t
  .next (match s.repair.chans.find? (·.retraining) with
    | none => s
    | some c =>
      let cause := c.due.getD 0
      -- R181: abandoned, the channel runs on its previous timing and stays due
      if s.pfail.stopped then
        let s := updChan c.ix (fun c => { c with retraining := false }) s
        if s.pfail.step = 1 then pfailNext s else s
      else
      let s := updChan c.ix (fun c =>
        if ok then { c with retraining := false, due := none, trainedAt := s.rime.opTicks }
        else { c with retraining := false, due := none, retry := some (s.rime.opTicks, cause) }) s
      let s := rimeDev 0x0602 (if ok then sevInfo else sevWarning) false
        (le 1 c.ix ++ le 1 (if ok then 0 else 1) ++ le 1 cause ++ le 1 0 ++ le 4 (sat 4 stallUs)) s
      workDone 3 c.ix s)

/-- POST_PACKAGE_REPAIR_COMPLETE: a row is repaired, or its units are taken out of use when its bank group has no
repair resource left (R466, R467, R468). The bank group, bank and device are free values: the row's number alone names
it here. DESIGN CHOICE: log entry 74. -/
def execPostPackageRepairComplete (t : Tick) (ch : Nat) (s : State) : Host.Outcome State Fault Refusal :=
  let s := s.arrive t
  .next (match chan? s ch with
    | none => s
    | some c => match c.repairing with
      | none => s
      | some (row, hard) =>
        let left := Config.repairResources ch - (c.soft.length + c.hard.length)
        let kind := if hard = 1 then 1 else if left = 0 then 2 else 0
        let s := updChan ch (fun c =>
          match kind with
          | 0 => { c with repairing := none, soft := c.soft ++ [row] }
          | 1 => { c with repairing := none, soft := c.soft.filter (· != row), hard := c.hard ++ [row] }
          | _ => { c with repairing := none }) s
        let s := if kind = 2 then { s with repair := { s.repair with retiredBytes := s.repair.retiredBytes + Config.dramRowBytes } } else s
        let (a, s) := freeNat s
        let (b, s) := freeNat s
        let s := rimeDev 0x0603 sevNotice false
          (le 1 ch ++ le 2 a ++ le 1 kind ++ le 3 b ++ le 1 0 ++ le 4 row) s
        -- a hard repair goes on to the next row of the request
        match chan? s ch with
        | none => s
        | some c =>
          if hard = 1 ∧ c.hardQueue.isEmpty then workDone 4 ch s
          else if hard = 1 then
            updChan ch (fun c => { c with repairing := c.hardQueue.head?.map fun r => (r, 1), hardQueue := c.hardQueue.drop 1 }) s
          else s)

/-! ### Calving and the self-tests of engines (R480 to R485) -/

/-- The engine holds a self-test pass from the last 24 operating hours. -/
def passedLately (s : State) (e : Engine) : Bool := (e.passedAt.map (within24 s)).getD false

/-- Calving at a beat boundary (R484): each spare that holds a fresh pass takes the position of a failed engine; one
that does not is tested first; a position whose cluster has no spare left stays vacant (R485).
DEDUCED: log entry 71. -/
def calvingTake (s : State) : State :=
  s.repair.calving.foldl (fun s c =>
    let (p, cause) := c
    let drop (s : State) : State := { s with repair := { s.repair with calving := s.repair.calving.filter (· != c) } }
    match s.engine? p with
    | none => drop s
    | some e =>
      let pos := e.pos.getD 0xFF
      match spareOf s e.cluster with
      | some sp =>
        if !passedLately s sp then s.setEngine sp.ix fun x => { x with testDue := true }
        else
          let s := s.setEngine p fun x => { x with pos := none }
          let s := s.setEngine sp.ix fun x => { x with status := 0, pos := e.pos, calved := true }
          let s := rimeDev 0x0605 sevNotice true (le 1 1 ++ le 1 p ++ le 1 sp.ix ++ le 1 pos ++ le 1 cause) s
          workDone 1 p (drop s)
      | none =>
        let s := s.setEngine p fun x => { x with pos := none }
        let s := rimeDev 0x0605 sevNotice true (le 1 2 ++ le 1 p ++ le 1 0xFF ++ le 1 pos ++ le 1 cause) s
        workDone 1 p (drop s)) s

/-- A self-test of the engine is due (R482, R484, R491). DESIGN CHOICE: log entry 73. -/
def testWanted (s : State) (e : Engine) : Bool := e.status < 2 && (e.testDue || e.quanta > 0 || !passedLately s e)

/-- Quanta start at a MAINT window of at least 50 us on every engine due that holds no dispatch (R482). -/
def startTests (s : State) : State :=
  { s with engines := s.engines.map fun e =>
      if testWanted s e && e.job.isNone && !e.testing then { e with testing := true } else e }

/-- The engine of a cluster whose quanta an override runs: one that holds no dispatch and is due (R482). -/
def overrideTest (c : Nat) (s : State) : State :=
  if s.engines.any fun e => e.cluster == c && e.testing then s
  else match s.engines.find? fun e => e.cluster == c && testWanted s e && e.job.isNone with
    | none => s
    | some e => s.setEngine e.ix fun e => { e with testing := true }

/-- The plan leaves the quanta to overrides (R482). -/
def testsInOverride (s : State) : Bool := s.firn.plan.longestMaintNs < 50000

/-- Quanta start with an override. -/
def startOverrideTests (s : State) : State :=
  if testsInOverride s then (List.range 8).foldl (fun s c => overrideTest c s) s else s

/-- ENGINE_SELF_TEST_QUANTUM_END (R481, R482). -/
def execEngineSelfTestQuantumEnd (t : Tick) (p : Nat) (pass : Bool) (s : State) : Host.Outcome State Fault Refusal :=
  let s := s.arrive t
  .next (match s.engine? p with
    | none => s
    | some e =>
      if !e.testing then s
      else if !pass then
        let s := { s with repair := { s.repair with testFails := s.repair.testFails + 1 } }
        settle (engineFault p 0 (workDone 2 p s))
      else
        let full := e.quanta + 1 ≥ 24
        let again := !full && ovrActive s && testsInOverride s
        let s := s.setEngine p fun e =>
          if full then { e with testing := false, testDue := false, quanta := 0, passedAt := some s.rime.opTicks }
          else { e with testing := again, quanta := e.quanta + 1 }
        let s := if full then workDone 2 p s else s
        if full && ovrActive s && testsInOverride s then overrideTest e.cluster s else s)

/-! ### On-die memories (R469 to R474) -/

/-- The memories of Table 12.2 in the order of Table 12.6, then the Rime ring and the supervisor memories. -/
abbrev mcInstr : Nat := 0
abbrev mcBanks : Nat := 1
abbrev mcStaging : Nat := 2
abbrev mcCluster : Nat := 3
abbrev mcContext : Nat := 4
abbrev mcKeys : Nat := 5
abbrev mcTwill : Nat := 6
abbrev mcDram : Nat := 7
abbrev mcRime : Nat := 8
abbrev mcSupervisor : Nat := 9

/-- Macros of a memory, and bytes of each (Table 12.2). DESIGN CHOICE: log entry 73. -/
def macrosOf : Nat → Nat × Nat
  | 0 => (72, 65536)
  | 1 => (288, 65536)
  | 2 => (512, 262144)
  | 3 => (128, 262144)
  | 4 => (8, 8192)
  | 5 => (3, 65536)
  | 6 => (32, 1048576)
  | 8 => (1, 131072)
  | 9 => (32, 262144)
  | _ => (0, 0)

/-- Remap words a macro uses. -/
def remapUsed (s : State) (cls mcr : Nat) : Nat :=
  ((s.repair.remap.find? fun r => r.1 == cls && r.2.1 == mcr).map (·.2.2)).getD 0

def setRemap (cls mcr n : Nat) (s : State) : State :=
  { s with repair := { s.repair with
    remap := (s.repair.remap.filter fun r => !(r.1 == cls && r.2.1 == mcr)) ++ [(cls, mcr, n)] } }

/-- The staged piece and LBA that hold a byte of staging SRAM: pieces stand one after another in the order they were
staged. DESIGN CHOICE: log entry 21. -/
def stagedAt (addr : Nat) : Nat → List Staged → Option (Staged × Nat)
  | _, [] => none
  | base, p :: ps =>
    let len := sumBy List.length p.data
    if p.tomb || p.zeroes then stagedAt addr base ps
    else if addr < base + len then
      let lba := (List.range p.data.length).find? fun i => addr < base + sumBy List.length (p.data.take (i + 1))
      some (p, p.lba + lba.getD 0)
    else stagedAt addr (base + len) ps

/-- The tenant and the offset in its partition of a byte of a cluster's SRAM: partitions stand in tenant order.
DESIGN CHOICE: log entry 21. -/
def clusterAt (s : State) (cluster addr : Nat) : Option (Nat × Nat) :=
  (s.tenants.foldl (fun (a : Nat × Option (Nat × Nat)) t =>
    let len := partLen s t.num cluster
    (a.1 + len, if a.2.isNone && a.1 ≤ addr && addr < a.1 + len then some (t.num, addr - a.1) else a.2)) (0, none)).2

/-- The lanes of a run's edge buffers, in the order in which they were placed (R236). -/
def bufferOrder (im : List Byte) : List (Nat × Nat) :=
  let owned (o : Option (Nat × Nat)) : List (Nat × Nat) := (List.range (gNEdges im)).flatMap fun i =>
    ((bufferLanes im i).filter fun k => laneOwner im i k == o).map fun k => (i, k)
  ((engineReps im).flatMap fun x => owned (some x)) ++ owned none

/-- The run, edge, lane and offset of a byte that an edge buffer holds. DESIGN CHOICE: log entry 21. -/
def bufferAt (s : State) (tenant cluster off : Nat) : Option (Nat × Nat × Nat × Nat) :=
  (s.compute.runs.filter (·.tenant == tenant)).findSome? fun r =>
    ((bufferOrder r.image).zip r.buffers).findSome? fun x =>
      let b := x.2
      if b.1 = cluster ∧ b.2.1 ≤ off ∧ off < b.2.1 + b.2.2 then some (r.asn, x.1.1, x.1.2, off - b.2.1) else none

/-- Poison the 64-bit word at an offset of a lane's buffer, which holds its chunks oldest first. -/
def poisonBuffer (asn edge lane off : Nat) (s : State) : State :=
  let hit (l : Lane) : Lane :=
    let (_, cs) := l.chunks.foldl (fun (a : Nat × List Chunk) c =>
      let c' : Chunk := if a.1 ≤ off ∧ off < a.1 + c.bytes.length then { c with poison := c.poison ++ [(off - a.1) / 8 * 8] } else c
      (a.1 + c.bytes.length, a.2 ++ [c'])) (0, [])
    { l with chunks := cs }
  updLane asn edge lane hit s

/-- Key store: 72 bytes a slot for 1,024 slots, then 64 bytes an entry of the media key table. -/
abbrev slotBytes : Nat := 72

/-- The location holds no live data, so that it may be tested (R472). DESIGN CHOICE: log entry 73. -/
def locationFree (s : State) (cls mcr offset : Nat) : Bool :=
  match cls with
  | 0 => ((s.engine? mcr).map fun e => e.job.isNone).getD true
  | 1 => ((s.engine? (mcr / 4)).map fun e => e.job.isNone).getD true
  | 2 => (stagedAt (mcr * 262144 + offset) 0 s.staged).isNone
  | 3 => match clusterAt s (mcr / 16) (mcr % 16 * 262144 + offset) with
    | none => true
    | some (tn, off) => (bufferAt s tn (mcr / 16) off).isNone
  | 6 => match twLocate s ((mcr * 1048576 + offset) / 28) with
    | none => true
    | some (tn, k) => !(twPart s tn).entries.any (·.slot == k)
  | _ => true

/-- A macro needs a ninth remap word (last column of Table 12.2). -/
def macroFull (cls mcr offset : Nat) (s : State) : State :=
  let note (s : State) : State :=
    rimeDev 0x0604 sevNotice false (le 1 (min cls 9) ++ le 1 0 ++ le 2 mcr ++ le 4 offset ++ le 2 8 ++ le 1 1) s
  match cls with
  | 0 => settle (engineFault mcr 1 s)
  | 1 => settle (engineFault (mcr / 4) 1 s)
  | 2 => if remapUsed s 2 mcr > 8 then s
    else
      let s := setRemap 2 mcr 9 s
      { s with repair := { s.repair with stagingKib := s.repair.stagingKib - 256 } }
  | 4 => updUnit mcr (fun x => { x with withdrawn := min 16 (x.withdrawn + 1) }) s
  | 5 =>
    let addr := mcr * 65536 + offset
    let k := addr / slotBytes
    if k < 1024 ∧ k ≠ 0 then updSlot k (fun x => { x with owner := 0x100 }) (clearSlot k s) else s
  | 9 => pairFault (mcr / 16) 2 s
  | _ => note s

/-- A location fails its test and receives a remap word, when one is left (R471, R472).
DESIGN CHOICE: log entry 73. -/
def remapOne (cls mcr offset : Nat) (s : State) : State :=
  let used := remapUsed s cls mcr
  if used ≥ 8 then macroFull cls mcr offset s
  else
    let s := setRemap cls mcr (used + 1) s
    rimeDev 0x0604 sevNotice false
      (le 1 cls ++ le 1 0 ++ le 2 mcr ++ le 4 offset ++ le 2 (used + 1) ++ le 1 (if used + 1 = 8 then 1 else 0)) s

/-- Run the tests whose locations hold no live data any longer (R472). DESIGN CHOICE: log entry 73. -/
def runTests (s : State) : State :=
  s.repair.tests.foldl (fun s x =>
    let (cls, mcr, offset, fails) := x
    if !locationFree s cls mcr offset then s
    else
      let s := { s with repair := { s.repair with tests := s.repair.tests.filter (· != x) } }
      if fails then remapOne cls mcr offset s else s) s

/-- An uncorrectable byte of staging SRAM: committed data is damaged, a write not yet committed ends (R474, R114). -/
def stagingLost (addr : Nat) (s : State) : State :=
  match stagedAt addr 0 s.staged with
  | none => s
  | some (p, lba) =>
    if p.committed then
      let newer := (stagedVersions s p.nsid lba).any fun v => verLt p.asn v.1
      let onMedia := ((s.ns? p.nsid).map fun n => verLt p.asn (mediaVersion s n lba).1).getD true
      if newer || onMedia then s else enterDamaged p.nsid lba s
    else match s.slots.find? fun sl => sl.asn == p.asn && Body.writing sl.sqe.body with
      | none => s
      | some sl =>
        let s := rimeTen 0x0205 sevError sl.fn.tenant
          (le 2 (cntlid sl.fn) ++ le 2 sl.sqid ++ le 2 sl.sqe.cid ++ le 2 0 ++ le 4 sl.sqe.nsid) s
        complete sl.ix stInternal 0 s

/-- Bytes of a saved context of a unit (Tables 9.7 and 9.8). -/
def contextBytes (u : Nat) : Nat := if u < 4 then 160 else 384

/-- An uncorrectable byte of a context store: its job ends with CONTEXT_LOST (Table 12.2). -/
def contextLost (u offset : Nat) (s : State) : State :=
  match (unit? s u).bind fun x => x.store[offset / contextBytes u]? with
  | none => s
  | some j => failJob j.asn j.node j.replica 0x34 (rimeTen 0x0404 sevWarning j.tenant (le 1 u ++ le 1 2) s)

/-- An uncorrectable byte of the key store (Table 12.2). -/
def keyLost (addr : Nat) (s : State) : State :=
  let k := addr / slotBytes
  if k < 1024 then
    let x := keySlot s k
    let note (why : Nat) (s : State) : State :=
      if x.owner ≤ 255 then rimeTen 0x0502 sevError x.owner (le 2 k ++ le 1 why) s else s
    if !x.valid then s
    else if x.persist then note 1 s
    else note 2 (clearSlot k s)
  else
    let nsid := (addr - 1024 * slotBytes) / 64
    match s.ns? nsid with
    | none => s
    | some n => if n.keysrc = 1 then s.setNs nsid fun n => { n with key := none } else s

/-- The record of the Rime ring at an offset is dropped and counted (Table 12.2). DEDUCED: log entry 79. -/
def ringLost (offset : Nat) (s : State) : State :=
  match s.rime.ring.findIdx? fun r => r.1.seq % 4096 == offset / 32 with
  | none => s
  | some i => { s with rime := { s.rime with
      ring := s.rime.ring.eraseIdx i
      flushing := s.rime.flushing.map fun n => if i < n then n - 1 else n
      dropped := s.rime.dropped + 1, droppedAll := s.rime.droppedAll + 1 } }

/-- What an uncorrectable location does to its user (Table 12.2). DESIGN CHOICE: log entry 73. -/
def locationLost (cls mcr offset : Nat) (s : State) : State :=
  match cls with
  | 0 => if ((s.engine? mcr).map fun e => e.job.isSome).getD false then settle (engineFault mcr 2 s) else s
  | 1 => s.setEngine (mcr / 4) fun e =>
      if e.job.isNone then e else { e with bad := (e.bad ++ [mcr % 4 * 65536 + offset]).dedup }
  | 2 => settle (stagingLost (mcr * 262144 + offset) s)
  | 3 =>
    let cl := mcr / 16
    match clusterAt s cl (mcr % 16 * 262144 + offset) with
    | none => s
    | some (tn, off) => match bufferAt s tn cl off with
      | some (asn, edge, lane, o) => poisonBuffer asn edge lane o s
      | none =>
        let w := (tn, cl, off / 8 * 8)
        if s.compute.sramPoison.contains w then s
        else { s with compute := { s.compute with sramPoison := s.compute.sramPoison ++ [w] } }
  | 4 => settle (contextLost mcr offset s)
  | 5 => settle (keyLost (mcr * 65536 + offset) s)
  | 6 => match twLocate s ((mcr * 1048576 + offset) / 28) with
    | none => s
    | some (tn, k) => updTw tn (fun p => { p with bad := if p.bad.contains k then p.bad else p.bad ++ [k] }) s
  | 8 => ringLost offset s
  | 9 => pairFault (mcr / 16) 2 s
  | _ => s

/-- Corrected lines of DRAM: three at different times in one row make it failing, more than 64 in an operating hour
make a retraining due (R462, R465). -/
def dramCorrected (ch row : Nat) (s : State) : State :=
  let mine (x : Nat × Nat × Nat × Nat) : Bool := x.1 == mcDram && x.2.1 == ch
  let s := if (s.repair.seen.filter fun x => mine x && x.2.2.1 == row).length ≥ 3 then rowFails ch row s else s
  let hour := s.repair.seen.filter fun x => mine x && s.rime.opTicks - x.2.2.2 < ticksPerHour
  if hour.length > 64 then retrainDue ch 2 s else s

/-- SRAM_CORRECTION: an error met by a read of an on-die memory, or a corrected line of DRAM (R470 to R474, R465).
`testFails` is the outcome of the location's test, should one be due. DESIGN CHOICE: log entry 73. -/
def execSramCorrection (t : Tick) (cls mcr offset : Nat) (uncorrectable testFails : Bool) (s : State) :
    Host.Outcome State Fault Refusal :=
  let s := s.arrive t
  let dram := cls == mcDram
  let known := if dram then ((chan? s mcr).map (·.inService)).getD false && !uncorrectable
    else mcr < (macrosOf cls).1 && offset < (macrosOf cls).2 && !(cls == mcTwill && !uncorrectable)
  .next (if s.boot.life != .running || !known then s
    else
      let old := s.repair.seen.filter fun x => within24 s x.2.2.2
      let again := old.any fun x => x.1 == cls && x.2.1 == mcr && x.2.2.1 == offset
      let s := { s with repair := { s.repair with
        seen := old ++ [(cls, mcr, offset, s.rime.opTicks)]
        corrected := if uncorrectable then s.repair.corrected else bump cls 1 s.repair.corrected
        uncorrected := if uncorrectable then bump cls 1 s.repair.uncorrected else s.repair.uncorrected } }
      if dram then dramCorrected mcr offset s
      else
        let inEdge := cls == mcCluster && !uncorrectable
          && ((clusterAt s (mcr / 16) (mcr % 16 * 262144 + offset)).bind fun x => bufferAt s x.1 (mcr / 16) x.2).isSome
        let s := if inEdge then { s with repair := { s.repair with edgeFixed := bump (mcr / 16) 1 s.repair.edgeFixed } } else s
        let s := if uncorrectable then locationLost cls mcr offset s else s
        if uncorrectable || again then
          runTests { s with repair := { s.repair with tests := s.repair.tests ++ [(cls, mcr, offset, testFails)] } }
        else s)

/-! ### Scrub (R475 to R477) -/

/-- SCRUB_PATROL: the patrol has read through every SRAM, or every DRAM line, once (R475). -/
def execScrubPatrol (t : Tick) (dram : Bool) (s : State) : Host.Outcome State Fault Refusal :=
  let s := s.arrive t
  .next (if s.boot.life != .running then s
    else { s with repair := if dram then { s.repair with dramPatrol := s.rime.opTicks }
        else { s.repair with sramPatrol := s.rime.opTicks } })

/-- The next queued pass runs when none does; the last 16 passes to end are kept. DEDUCED: log entry 75. -/
def scrubNext (ps : List Pass) : List Pass :=
  let done := ps.filter (·.state ≥ 2)
  let go := ps.filter (·.state < 2)
  let go := if go.any (·.state == 1) then go else match go with
    | [] => []
    | p :: rest => { p with state := 1 } :: rest
  done.drop (done.length - 16) ++ go

/-- SCRUB_PASS_COMPLETE: the running pass ends and its result is kept (R477). DEDUCED: log entry 75. -/
def execScrubPassComplete (t : Tick) (corrected uncorrectable remapped : Nat) (s : State) :
    Host.Outcome State Fault Refusal :=
  let s := s.arrive t
  .next (match s.repair.passes.find? (·.state == 1) with
    | none => s
    | some p =>
      let p := { p with state := 2, corrected := corrected, uncorrectable := uncorrectable, remapped := remapped }
      let others := s.repair.passes.filter (·.id != p.id)
      let ended := others.filter (·.state ≥ 2) ++ [p]
      { s with repair := { s.repair with passes := scrubNext (ended ++ others.filter (·.state < 2)) } })

/-- Bytes of a scrub target (Table 12.3), none for one that the table does not list. DEDUCED: log entry 75. -/
def scrubSize (s : State) (target : Nat) : Option Nat :=
  if target = 0 then some (Config.dramBytes - s.repair.retiredBytes)
  else if target = 1 then some (128 * 2 ^ 20)
  else if target = 2 then some 33030144
  else if target / 256 = 1 ∧ target % 256 ≤ 0x47 then some 0x50000
  else if target / 256 = 2 ∧ target % 256 ≤ 7 then some (4 * 2 ^ 20)
  else none

/-- The range lies within its target and starts and ends on its units (R476). DEDUCED: log entry 75. -/
def scrubOk (s : State) (target start count : Nat) : Bool :=
  let unit := if target = 0 then 64 else 8
  match scrubSize s target with
  | none => false
  | some n => start % unit == 0 && count % unit == 0 && count ≥ unit && start + count ≤ n

/-- SCRUB_START. DEDUCED: log entry 75. -/
def execScrubStart (t : Tick) (q : Rq) (target start count : Nat) (s : State) : Host.Outcome State Fault Refusal :=
  let s := s.arrive t
  let fm : Form :=
    { code := 0x0901, device := true, body := 24, badField := !scrubOk s target start count
      roles := fun r => isOwner r || isBoard r }
  .next (answer fm q (fun _ s =>
    if (s.repair.passes.filter (·.state < 2)).length ≥ 8 then (msNoResource, [], s)
    else
      let id := s.repair.nextPass
      let p : Pass := { id := id, target := target, start := start, count := count }
      (msOk, le 4 id, { s with repair := { s.repair with
        nextPass := (id + 1) % 2 ^ 32, passes := scrubNext (s.repair.passes ++ [p]) } })) s)

/-- SCRUB_RESULT. DEDUCED: log entry 75. -/
def execScrubResult (t : Tick) (q : Rq) (id : Nat) (s : State) : Host.Outcome State Fault Refusal :=
  let s := s.arrive t
  let held := s.repair.passes.find? (·.id == id)
  let fm : Form :=
    { code := 0x0902, device := true, body := 4, badField := held.isNone, roles := fun r => isOwner r || isBoard r }
  .next (answer fm q (fun _ s => match held with
    | none => (msReserved, [], s)
    | some p => (msOk, le 1 p.state ++ le 3 0 ++ le 4 (sat 4 p.corrected) ++ le 4 (sat 4 p.uncorrectable) ++ le 4 (sat 4 p.remapped), s)) s)

/-! ### Repair requests of this chapter (R491) -/

/-- CALVE: an engine fault (R481). DEDUCED: log entry 71. -/
def execCalve (t : Tick) (q : Rq) (unit : Nat) (s : State) : Host.Outcome State Fault Refusal :=
  .next (repairRequest 0x01 unit (unit < 72) q (fun s => match s.engine? unit with
    | none => (none, s)
    | some e =>
      if e.status = 2 then (none, s)
      else
        let s := settle (engineFault unit 4 s)
        (none, if s.repair.calving.any (·.1 == unit) then workAdd 0x01 unit s else s)) (s.arrive t))

/-- ENGINE_TEST: an engine that has failed is tested no more. DEDUCED: log entry 71. -/
def execEngineTest (t : Tick) (q : Rq) (unit : Nat) (s : State) : Host.Outcome State Fault Refusal :=
  .next (repairRequest 0x02 unit (unit < 72) q (fun s => match s.engine? unit with
    | none => (none, s)
    | some e =>
      if e.status = 2 then (none, s)
      else (none, workAdd 0x02 unit (s.setEngine unit fun e => { e with testDue := true }))) (s.arrive t))

/-- DRAM_RETRAIN. DEDUCED: log entry 71. -/
def execDramRetrain (t : Tick) (q : Rq) (unit : Nat) (s : State) : Host.Outcome State Fault Refusal :=
  .next (repairRequest 0x03 unit (unit < 4) q (fun s =>
    if ((chan? s unit).map (·.inService)).getD false then (none, workAdd 0x03 unit (retrainDue unit 3 s)) else (none, s))
    (s.arrive t))

/-- HPPR: every soft repair of the channel becomes a hard one (R468). DESIGN CHOICE: log entry 74. -/
def execHppr (t : Tick) (q : Rq) (unit : Nat) (s : State) : Host.Outcome State Fault Refusal :=
  .next (repairRequest 0x04 unit (unit < 4) q (fun s =>
    if !s.tenants.all stoppedNow then (some msNotStopped, s)
    else match chan? s unit with
      | none => (none, s)
      | some c =>
        if c.soft.isEmpty then (none, s)
        else (none, workAdd 0x04 unit (updChan unit (fun c => { c with hardQueue := c.soft }) s))) (s.arrive t))

/-- PAGE_IDLE: in force at the first beat boundary after the request (R460). -/
def execPageIdle (t : Tick) (q : Rq) (unit : Nat) (s : State) : Host.Outcome State Fault Refusal :=
  .next (repairRequest 0x05 unit (unit < 256) q (fun s =>
    (none, workAdd 0x05 unit { s with repair := { s.repair with pageIdleNext := some unit } })) (s.arrive t))

/-- NRR_LOG2 (R460). -/
def execNrrLog2 (t : Tick) (q : Rq) (unit : Nat) (s : State) : Host.Outcome State Fault Refusal :=
  .next (repairRequest 0x06 unit (8 ≤ unit && unit ≤ 16) q (fun s =>
    (none, workAdd 0x06 unit { s with repair := { s.repair with nrrLog2Next := some unit } })) (s.arrive t))

/-- PAGE_IDLE and NRR_LOG2 take effect at a beat boundary (R460). -/
def pagePolicyTake (s : State) : State :=
  { s with repair := { s.repair with
    pageIdle := s.repair.pageIdleNext.getD s.repair.pageIdle
    nrrLog2 := s.repair.nrrLog2Next.getD s.repair.nrrLog2
    pageIdleNext := none, nrrLog2Next := none
    work := s.repair.work.filter fun w => w.1 != 5 && w.1 != 6 } }

/-! ### Reclaim (R486 to R490) -/

/-- Runs whose replica the unit is serving. -/
def runsOn (s : State) (is : GRun → Replica → Bool) : List (Nat × Nat) :=
  s.compute.runs.filterMap fun r => (r.replicas.find? fun x => x.state == .running && is r x).map fun x => (r.asn, x.node)

/-- A run ends with Internal Error, its report naming the node (R490). -/
def endRunOf (x : Nat × Nat) (s : State) : State := completeRun x.1 stInternal (some (x.2, 8, 0)) true s

/-- A lane or digest engine leaves service: the run it serves ends, the jobs of its store end with CONTEXT_LOST, and
its store is zeroed (R386, R490). -/
def unitLeaves (u : Nat) (s : State) : State :=
  match unit? s u with
  | none => s
  | some x =>
    let s := updUnit u (fun x => { x with inService := false, job := none, store := [] }) s
    let s := match x.job with
      | none => s
      | some j => endRunOf (j.asn, j.node) s
    let s := x.store.foldl (fun s j =>
      failJob j.asn j.node j.replica 0x34 (rimeTen 0x0404 sevWarning j.tenant (le 1 u ++ le 1 1) s)) s
    classEmptied (if u < 4 then 0x14 else 0x15) s

/-- The party is out of service: what it served ends, and nothing of it is served again (R488, R490).
DEDUCED: log entry 72. -/
def partyLeaves (p : Party) (s : State) : State :=
  match p with
  | .engine i => engineFault i 0 s
  | .lane i => unitLeaves i s
  | .digest i => unitLeaves (i + 4) s
  | .felt i =>
    match s.units.felts.find? (·.ix == i) with
    | none => s
    | some f =>
      let s := f.contexts.foldl (fun s c => endRunOf (c.1, c.2.1) s) s
      let out (g : Felt) : Felt := if g.ix = i then { g with inService := false, contexts := [] } else g
      let s := { s with units := { s.units with felts := s.units.felts.map out } }
      if i < 4 then classEmptied 0x11 s else classEmptied 0x03 (classEmptied 0x12 s)
  | .sieve i =>
    let s := (runsOn s fun r x => (gNode r.image x.node).typ == ntSieve && x.unit == some i).foldl (fun s x => endRunOf x s) s
    classEmptied 0x10 { s with units := { s.units with sievesOut := (s.units.sievesOut ++ [i]).dedup } }
  | .twill =>
    let s := (runsOn s fun r x => (gNode r.image x.node).typ == ntTwill).foldl (fun s x => endRunOf x s) s
    classEmptied 0x13 { s with units := { s.units with twillIn := false } }
  | .function f =>
    if (s.ctrl? f).isNone then s
    else (resetController f s).setCtrl f fun c => { c with cfs := true }
  | _ => s

/-- Indexes of Table 12.4's parties. DEDUCED: log entry 72. -/
def partyExists (s : State) : Party → Bool
  | .engine p => p < 72
  | .lane i | .digest i => i < 4
  | .felt i => i < 8
  | .sieve i => i < 16
  | .twill => true
  | .function f => s.hasFn f
  | .channel c => c < 32
  | .pair i => i < 2

/-- Held by the party and not yet released: slots, ops, credits and buffers, contexts, and descriptors, locks and
pins. DEDUCED: log entry 72. -/
def holdings (s : State) (p : Party) : List Nat :=
  match p with
  | .lane i => [0, 0, 0, ((unit? s i).map fun x => x.store.length + (if x.job.isSome then 1 else 0)).getD 0, 0]
  | .digest i => [0, 0, 0, ((unit? s (i + 4)).map fun x => x.store.length + (if x.job.isSome then 1 else 0)).getD 0, 0]
  | .felt i => [0, 0, 0, ((s.units.felts.find? (·.ix == i)).map fun f => f.contexts.length).getD 0, 0]
  | .function f =>
    let rs := s.compute.runs.filter fun r => r.fn == f
    let asns := rs.map (·.asn)
    [(s.slots.filter fun sl => sl.fn == f).length, sumBy (fun r => (r.replicas.filter (·.state != .ended)).length) rs
    , sumBy (fun r => r.buffers.length) rs, 0, (s.media.pins.filter fun x => asns.contains x.1).length]
  | _ => [0, 0, 0, 0, 0]

/-- OWNERSHIP_RECLAIM: the holdings of a fenced party are reclaimed, within 100 us of its fence (R489). A unit checks
its own state, and a function is at fault by CSTS.CFS: their fence has no command of its own and is taken here.
DEDUCED: log entry 72. -/
def execOwnershipReclaim (t : Tick) (p : Party) (s : State) : Host.Outcome State Fault Refusal :=
  let s := s.arrive t
  let own := match p with
    | .lane _ | .digest _ | .felt _ | .sieve _ | .twill | .function _ => true
    | _ => false
  let due := s.repair.reclaimDue.any (·.1 == p)
  .next (if s.boot.life != .running || !partyExists s p || (!due && (!own || s.repair.fenced.contains p)) then s
    else
      let held := holdings s p
      let s := if due then s else partyLeaves p (fence p s)
      let s := { s with repair := { s.repair with
        reclaimDue := s.repair.reclaimDue.filter (·.1 != p), reclaims := s.repair.reclaims + 1 } }
      let body := le 1 (Party.codes p).1 ++ le 1 (Party.codes p).2 ++ held.flatMap fun n => le 2 (sat 2 n)
      let s := match p with
        | .function f => rimeTen 0x0402 sevNotice f.tenant body s
        | _ => rimeDev 0x0402 sevNotice false body s
      let free (s : State) : State := { s with repair := { s.repair with fenced := s.repair.fenced.filter (· != p) } }
      settle (match p with
        -- a channel sequencer starts again, a function is recovered by a controller reset, a pair reloads
        | .channel _ => kickAll (free s)
        | .function _ => free s
        | .pair i => if pairOf s i == .fenced then setPair i .reloading s else s
        | _ => s))

/-! ### Log page 0xC4 (R492) -/

/-- Remap words in all macros of a memory class. -/
def remapAll (s : State) (cls : Nat) : Nat :=
  if cls = 2 then 8 * (s.repair.stagingKib / 256) else if cls = 7 then 0 else 8 * (macrosOf cls).1

/-- Progress of a patrol that reads its memory once per 24 operating hours, in units of 0.01 %.
DEDUCED: log entry 38. -/
def patrolProgress (s : State) (since : Nat) : Nat := min 9999 ((s.rime.opTicks - since) * 10000 / (24 * ticksPerHour))

def logC4 (s : State) : List Byte :=
  let r := s.repair
  let bits (l : List Bool) : Nat := l.foldr (fun b n => 2 * n + (if b then 1 else 0)) 0
  let isolated (ch pos : Nat) : Bool := (s.die ⟨ch, pos⟩).isolated.isSome
  let cls (k : Nat) : List Byte :=
    let used := sumBy (fun x => if x.1 = k then min 8 x.2.2 else 0) r.remap
    le 4 (sat 4 ((get? k r.corrected).getD 0)) ++ le 4 (sat 4 ((get? k r.uncorrected).getD 0)) ++ le 2 used ++ le 2 (remapAll s k)
  let chan (c : DramCh) : List Byte :=
    le 2 c.soft.length ++ le 2 c.hard.length ++ le 2 (Config.repairResources c.ix - (c.soft.length + c.hard.length)) ++ le 2 0
      ++ le 4 ((s.rime.opTicks - c.trainedAt) / ticksPerHour) ++ leInt 2 (Config.dramTemp c.ix c.trainedAt) ++ le 2 0
  pad 512 (le 1 (s.engines.filter (·.status == 0)).length
    ++ le 1 (s.engines.filter fun e => e.status == 1 && passedLately s e).length
    ++ le 1 (bits ((List.range 4).map fun i => s.units.felts.any fun f => f.ix == i && f.inService))
    ++ le 1 (isolatedDies s) ++ le 2 r.rate ++ le 1 r.pageIdle ++ le 1 r.nrrLog2
    ++ le 1 (((r.chans.find? (·.retraining)).map (·.ix)).getD 0xFF) ++ le 1 (bits (r.chans.map (·.inService))) ++ le 2 0
    ++ le 4 r.stagingKib ++ le 8 r.retiredBytes ++ le 4 s.media.damaged.length ++ le 4 (sat 4 r.reclaims)
    ++ s.engines.flatMap (fun e => le 1 e.status ++ le 1 (if e.status = 0 then e.pos.getD 0xFF else 0xFF))
    ++ (List.range 32).flatMap (fun ch => le 2 (bits ((List.range 16).map (isolated ch))))
    ++ (List.range 8).flatMap cls ++ r.chans.flatMap chan
    ++ le 2 (patrolProgress s r.sramPatrol) ++ le 2 (patrolProgress s r.dramPatrol) ++ le 4 (sat 4 r.fifoPoison)
    ++ le 4 (sat 4 (sumBy (·.2) r.edgeFixed)) ++ le 4 (sat 4 r.testFails))

end Sys2Proof.Machine
end

