-- ==== Sys2Proof/Machine/Views.lean ====
section
/-! DEFINITION. What the device shows: the three views (R401), the device window (Table 11.13), the Rime log and the
Moraine dump (file 14), the log pages, and the mailbox requests that read them. -/

namespace Sys2Proof.Machine

/-- The views of R401. -/
inductive View where
  | owner
  | health
  | ten (t : Nat)
  deriving DecidableEq, Repr

/-- DEDUCED: log entry 80. -/
def viewOf : Role → View
  | .owner => .owner
  | .board => .health
  | .host f => .ten f.tenant
  | .admin t => .ten t

/-- The tenant whose counts the view is limited to. DEDUCED: log entry 80. -/
def viewTenant : View → Option Nat
  | .ten t => some t
  | _ => none

/-! ### Rime records in a view (R402, R524) -/

/-- `a` is at or after `b` in the series of sequence numbers (R521). -/
def seqGe (a b : Nat) : Bool := (a + 2 ^ 32 - b % 2 ^ 32) % 2 ^ 32 < 2 ^ 31

/-- The number of a record in a view, none when the view does not show it. -/
def viewSeq (s : State) (v : View) (r : RimeRec) : Option Nat :=
  match v with
  | .owner => some r.seq
  | .health => if r.tenant.isNone then some r.health else none
  | .ten t => match s.tenant? t with
    | none => none
    | some x => if seqGe r.seq x.creation then get? t r.views else none

/-- The records that a view shows, from the region and the ring alike, oldest first (R529). DEDUCED: log entry 80. -/
def viewRecs (s : State) (v : View) : List (Nat × RimeRec) :=
  (s.rime.region ++ s.rime.ring.map (·.1)).filterMap fun r => (viewSeq s v r).map fun q => (q, r)

/-- The next number of a view's series. -/
def viewNext (s : State) : View → Nat
  | .owner => s.rime.next
  | .health => s.rime.healthNext
  | .ten t => (get? t s.rime.tenantNext).getD 1

/-- ALERT_N falls once a reader of the owner or health view has seen the newest record that holds it, or a later one
(R525). -/
def alertSeen (v : View) (recs : List (Nat × RimeRec)) (s : State) : State :=
  match v, s.rime.alertSeq with
  | .ten _, _ => s
  | _, none => s
  | _, some a =>
    if recs.any fun x => seqGe x.2.seq a then
      { s with
        rime := { s.rime with alertSeq := none }
        pins := { s.pins with alert := s.power.regFault && s.settings.dev.telemMask.testBit 1 } }
    else s

/-- RIME_READ (R529). DEDUCED: log entry 80. -/
def execRimeRead (t : Tick) (q : Rq) (fromSeq count : Nat) (s : State) : Host.Outcome State Fault Refusal :=
  .next (answer { code := 0x0701, body := 8, badField := count > 127, roles := fun _ => true } q (fun r s =>
    let v := viewOf r
    let all := viewRecs s v
    let start := match all with
      | [] => fromSeq
      | x :: _ => if fromSeq = 0 ∨ !seqGe fromSeq x.1 then x.1 else fromSeq
    let got := (all.filter fun x => seqGe x.1 start).take count
    let first := match got with
      | [] => viewNext s v
      | x :: _ => x.1
    (msOk, le 4 first ++ le 4 got.length ++ got.flatMap recBytes, alertSeen v got s)) (s.arrive t))

/-- Log page 0xC2 (Table 14.5). -/
def logC2 (s : State) (v : View) : List Byte :=
  let all := viewRecs s v
  let mine := (viewTenant v).isSome
  let newest := (all.reverse.take 15)
  pad 512 (le 4 ((newest.head?.map (·.1)).getD 0) ++ le 4 ((all.head?.map (·.1)).getD 0) ++ le 4 all.length
    ++ le 4 (if mine then 0 else sat 4 s.rime.droppedAll) ++ le 4 (if mine then 0 else sat 4 s.rime.flushes)
    ++ le 4 s.rime.cycles ++ le 4 s.hours ++ le 2 s.seconds ++ le 2 0 ++ newest.flatMap recBytes)

/-! ### The Moraine dump (R536 to R539) -/

/-- Lengths of the sections of a dump: types 1 to 6 as the device writes them, within the limits of Table 14.8, and
the Rime tail. -/
def dumpSections (d : Dump) : List (Nat × Nat) :=
  let lim : Nat → Nat
    | 1 => 16 * 2 ^ 20
    | 2 => 12 * 2 ^ 20
    | 3 => 8 * 2 ^ 20
    | 4 => 64 * 2 ^ 10
    | 5 => 4 * 2 ^ 20
    | _ => 8 * 2 ^ 20
  ((List.range 6).map fun k => (k + 1, Config.dumpLen d.number (k + 1) % (lim (k + 1) + 1))) ++ [(7, 32 * d.tail.length)]

/-- The directory, which follows the header: type, offset and length of each section. -/
def dumpDirectory (d : Dump) : List (Nat × Nat × Nat) :=
  ((dumpSections d).foldl (fun (a : Nat × List (Nat × Nat × Nat)) x => (a.1 + x.2, a.2 ++ [(x.1, a.1, x.2)])) (0x80 + 16 * 7, [])).2

def dumpLength (d : Dump) : Nat := 0x80 + 16 * 7 + sumBy (·.2) (dumpSections d)

/-- The bytes of a section. UNVERIFIED: log entry 20. -/
def dumpSection (d : Dump) (typ len : Nat) : List Byte :=
  if typ = 7 then d.tail.flatMap fun r => recBytes (r.seq, r) else (List.range len).map fun i => Config.dumpByte (8 * d.number + typ) i

/-- The dump from offset 0x80 to its end. -/
def dumpBody (d : Dump) : List Byte :=
  (dumpDirectory d).flatMap (fun x => le 2 x.1 ++ le 2 0 ++ le 4 x.2.1 ++ le 4 x.2.2 ++ le 4 0)
    ++ (dumpSections d).flatMap fun x => dumpSection d x.1 x.2

/-- The header (Table 14.9). UNVERIFIED: log entry 20. -/
def dumpHeader (d : Dump) : List Byte :=
  le 4 0x4D524E31 ++ le 2 1 ++ le 2 (if d.partialDump then 1 else 0) ++ le 4 d.number ++ le 4 (dumpLength d) ++ le 4 d.cycles
    ++ le 4 d.hours ++ le 2 d.seconds ++ le 2 d.cause ++ le 4 d.seq ++ le 8 d.version ++ le 1 d.pair ++ le 1 7 ++ zeros 6
    ++ pad 48 (Config.sha384 (dumpBody d)) ++ zeros 32

/-- MORAINE_INFO. PRESUMED: log entry 81. -/
def execMoraineInfo (t : Tick) (q : Rq) (s : State) : Host.Outcome State Fault Refusal :=
  .next (answer { code := 0x0702, device := true, body := 0, roles := isOwner } q (fun _ s =>
    let n := s.moraine.summaries.length
    match s.moraine.dump with
    | none => (msOk, le 1 0 ++ le 1 n ++ le 2 0, s)
    | some d => (msOk, le 1 (if d.partialDump then 2 else 1) ++ le 1 n ++ le 2 0 ++ dumpHeader d ++ (dumpBody d).take (16 * 7), s))
    (s.arrive t))

/-- MORAINE_READ. -/
def execMoraineRead (t : Tick) (q : Rq) (offset count : Nat) (s : State) : Host.Outcome State Fault Refusal :=
  let bad := count > 4072 || (match s.moraine.dump with
    | none => true
    | some d => decide (offset + count > dumpLength d))
  .next (answer { code := 0x0703, device := true, body := 8, badField := bad, roles := isOwner } q (fun _ s =>
    match s.moraine.dump with
    | none => (msReserved, [], s)
    | some d => (msOk, slice (dumpHeader d ++ dumpBody d) offset count, s)) (s.arrive t))

/-- Log page 0xC3: the newest summary, in the owner view alone (R538). -/
def logC3 (s : State) (v : View) : List Byte :=
  match v, s.moraine.summaries with
  | .owner, d :: _ =>
    let tail := d.tail.drop (d.tail.length - 64)
    dumpHeader d ++ pad 384 (dumpSection d 1 (((dumpSections d).head?.map (·.2)).getD 0))
      ++ pad 2048 (tail.flatMap fun r => recBytes (r.seq, r)) ++ zeros 1536
  | _, _ => zeros 4096

/-! ### The device window (R452) -/

/-- Mailbox registers (Table 11.2). -/
def mbxWord (m : Mbx) (off : Nat) : Nat :=
  let b (x : Bool) : Nat := if x then 1 else 0
  match off with
  | 4 => b m.busy + 2 * b m.overrun + 2 ^ 16 * m.respLen
  | 8 => b m.irqEn + 2 * m.vector
  | 12 => b m.done
  | _ => 0

/-- Firn status (Tables 2.11 and 2.12) as a function shows it. -/
def firnWord (s : State) (f : Fn) (c : Ctrl) (off : Nat) : Nat :=
  let ep := epochFunction s f
  let fm := s.firn
  match off with
  | 0x00 => fm.beat.toNat % 2 ^ 32
  | 0x04 => c.beatHi.toNat
  | 0x08 => c.posL.toNat
  | 0x0C => firnPos s
  | 0x10 => if fm.started then sat 4 (fm.period / 1024) else 0
  | 0x14 => (max (-32767) (min 32767 fm.phErr) % 65536).toNat + 2 ^ 16 * fm.holdLeft
  | 0x18 => firnOvrBeat s % 2 ^ 32
  | 0x1C => firnOvrBeat s / 2 ^ 32
  | 0x20 => if ep then c.epochLo.toNat else 0
  | 0x24 => if ep then c.epochHi.toNat else 0
  | 0x28 => if ep then c.epochCount else 0
  | 0x2C => (if ep then seriesHeld s + (if ptmValid s f.port then 4 else 0) else 0) + 2 ^ 16 * sat 2 fm.rejectedWrites
  | _ => 0

/-- The key under which a view's dispatcher snapshot is kept: the tenant, or 256 for the device. -/
def snapKey (v : View) : Nat := (viewTenant v).getD 256

/-- Dispatcher block of a view (Table 6.11), as the last snapshot left it. -/
def dspWord (s : State) (v : View) (off : Nat) : Nat :=
  let ws := (get? (snapKey v) s.compute.snapshot).getD []
  if off < 0x1C then ws.getD (off / 4) 0
  else if 0x100 ≤ off then ws.getD (7 + (off - 0x100) / 4) 0 else 0

/-- Digest registers (Table 9.12) of a tenant. -/
def digestBytes (s : State) (tenant n : Nat) : List Byte :=
  match s.units.digestRegs.find? fun g => g.tenant == tenant && g.ix == n with
  | none => zeros 0x50
  | some g =>
    le 1 g.alg ++ le 1 g.value.length ++ le 2 1 ++ le 4 (g.asn % 2 ^ 32) ++ le 2 (g.asn / 2 ^ 32) ++ zeros 6 ++ pad 64 g.value

/-- The Rime snapshot of tenant 0's view (Table 14.4). DEDUCED: log entry 80. -/
def snapRec (s : State) (slot : Nat) : List Byte :=
  let all := viewRecs s (.ten 0)
  let newest := all.drop (all.length - 1920)
  match newest.find? fun x => x.1 % 1920 == slot with
  | none => zeros 32
  | some x => recBytes x

/-- The 32-bit word of the device window at an offset, in a view. The message buffers are shown in the view of their own
tenant alone. -/
def devWord (s : State) (v : View) (f : Fn) (off : Nat) : Nat :=
  let c := (s.ctrl? f).getD { fn := f }
  let own := v == .ten f.tenant
  if off < 0x10 then mbxWord c.mbx off
  else if 0x1000 ≤ off ∧ off < 0x2000 then if own then unle (Memory.readN c.mbx.reqBuf (off - 0x1000) 4) else 0
  else if 0x2000 ≤ off ∧ off < 0x3000 then if own then field c.mbx.respBuf (off - 0x2000) 4 else 0
  else if 0x3000 ≤ off ∧ off < 0x3030 then firnWord s f c (off - 0x3000)
  else if 0x4800 ≤ off ∧ off < 0x4A00 then dspWord s v (off - 0x4800)
  else if off = 0x4A00 then pwrStat s
  else if 0x6000 ≤ off ∧ off < 0x6500 then
    if v = .health then 0 else field (digestBytes s f.tenant ((off - 0x6000) / 0x50)) ((off - 0x6000) % 0x50) 4
  else if off = 0x8000 then
    (if c.devErr.regErr then 1 else 0) + (if c.devErr.multi then 2 else 0) + 2 ^ 12 * c.devErr.offset
  else if f.tenant ≠ 0 ∨ off < 0x10000 ∨ 0x20000 ≤ off then 0
  else if off = 0x10000 then (((viewRecs s (.ten 0)).getLast?).map (·.1)).getD 0
  else if off = 0x10004 then s.rime.writes
  else if off = 0x10008 then 1920
  else if 0x11000 ≤ off then field (snapRec s ((off - 0x11000) / 32)) ((off - 0x11000) % 32) 4
  else 0

/-- Bytes of a function's BAR2 (Table 3.2). -/
def windowBytes (f : Fn) : Nat := if f.tenant = 0 then 0x100000 else 0x10000

/-! ### BAR0 and BAR4 as they read (R70, R75) -/

/-- CAP (Table 3.3): MQES, CQR, AMS, TO, DSTRD 0, CSS, MPSMIN and MPSMAX at their places in NVMe Base 2.1.
PRESUMED: log entry 48. -/
def capValue : Nat :=
  4095 + 1 * 2 ^ 16 + 1 * 2 ^ 17 + 2 * 2 ^ 24 + 0 * 2 ^ 32 + (1 + 2 ^ 6) * 2 ^ 37 + 0 * 2 ^ 48 + 4 * 2 ^ 52

/-- VS (Table 3.3). -/
def vsValue : Nat := 0x00020100

/-- CC as host software has written it, and CSTS. PRESUMED: log entry 48. -/
def ccValue (c : Ctrl) : Nat :=
  (if c.en then 1 else 0) + c.css * 2 ^ 4 + c.ccBits + (if c.shst = 0 then 0 else 2 ^ 14)

def cstsValue (c : Ctrl) : Nat := (if c.rdy then 1 else 0) + (if c.cfs then 2 else 0) + 4 * c.shst

/-- The 32-bit word of BAR0 at an offset. PRESUMED: log entry 48. -/
def bar0Word (c : Ctrl) (off : Nat) : Nat :=
  match off with
  | 0x00 => capValue % 2 ^ 32
  | 0x04 => capValue / 2 ^ 32
  | 0x08 => vsValue
  | 0x0C | 0x10 => c.intMask
  | 0x14 => ccValue c
  | 0x1C => cstsValue c
  | 0x24 => c.asq.size - 1 + (c.acq.size - 1) * 2 ^ 16
  | 0x28 => c.asqBase % 2 ^ 32
  | 0x2C => c.asqBase / 2 ^ 32
  | 0x30 => c.acqBase % 2 ^ 32
  | 0x34 => c.acqBase / 2 ^ 32
  | _ => 0

/-- The 32-bit word of BAR4 at an offset: the MSI-X table, and the pending bit array at 0x8800 (Table 3.2). -/
def bar4Word (c : Ctrl) (off : Nat) : Nat :=
  if off < 2049 * 16 then unle (Memory.readN c.msixTable off 4)
  else if 0x8800 ≤ off ∧ off < 0x8800 + 260 then
    sumBy (fun i => if c.msixPending.contains ((off - 0x8800) * 8 + i) then 2 ^ i else 0) (List.range 32)
  else 0

/-- `n` bytes of the device window. -/
def devBytes (s : State) (v : View) (f : Fn) (off n : Nat) : List Byte :=
  (List.range n).map fun i =>
    let a := off + i
    BitVec.ofNat 8 (devWord s v f (a / 4 * 4) / 256 ^ (a % 4))

/-! ### Log pages -/

/-- The ANA group of the tenant, as NVMe Base 2.1 lays the page out: Optimized or Inaccessible. -/
def anaState (s : State) (t : Nat) : Nat :=
  match s.tenant? t with
  | none => 0x03
  | some x => if x.state = .destroying then 0x03 else 0x01

/-- SMART / Health Information: the values of Table 4.10, and the rest as NVMe Base 2.1 gives it.
PRESUMED: log entry 81. -/
def logSmart (s : State) : List Byte :=
  let base (i n : Nat) : List Byte := (List.range n).map fun k => Config.logByte 2 (i + k)
  le 1 (criticalWarning s) ++ base 1 2 ++ le 1 (availableSpare s) ++ le 1 10 ++ le 1 (percentUsed s) ++ base 6 106
    ++ le 16 s.rime.cycles ++ le 16 s.hours ++ le 16 s.boot.unsafeShutdowns ++ le 16 s.media.unrecovered ++ base 176 336

/-- Pages that NVMe Base 2.1 lays out, of one controller; bytes that it does not fix by this device's state are its own.
PRESUMED: log entry 81. -/
def logNvme (s : State) (c : Ctrl) (lid : Nat) : Option (List Byte) :=
  let base (i n : Nat) : List Byte := (List.range n).map fun k => Config.logByte lid (i + k)
  match lid with
  | 0x00 => some (base 0 1024)
  | 0x01 => some (match c.errorLog with
    | none => zeros 64
    | some (sq, cid, lba, nsid) => base 0 8 ++ le 2 sq ++ le 2 cid ++ base 12 4 ++ le 8 lba ++ le 4 nsid ++ base 28 36)
  | 0x02 => some (logSmart s)
  | 0x03 => some (le 1 (s.fw.active + 1 + 16 * ((s.fw.nextActive.map (· + 1)).getD 0)) ++ zeros 7 ++ base 8 16 ++ zeros 488)
  | 0x05 => some (base 0 4096)
  | 0x06 => some (pad 564 (zeros 4 ++ s.boot.selfTests.flatMap fun x =>
      le 1 (16 * x.1 + x.2.2) ++ zeros 3 ++ le 8 x.2.1 ++ zeros 16))
  | 0x0C => some (
    let ns := tenantNs s c.fn.tenant
    base 0 8 ++ le 2 1 ++ zeros 6 ++ le 4 (c.fn.tenant + 1) ++ le 4 ns.length ++ base 24 8 ++ le 1 (anaState s c.fn.tenant)
      ++ zeros 15 ++ ns.flatMap (le 4))
  | 0x81 => some (match s.tenant? c.fn.tenant with
    | none => zeros 512
    | some x => if x.sanitize.isSome then base 0 2 ++ le 2 2 ++ base 4 508
      else le 2 0xFFFF ++ le 2 (if x.sanitized then 1 else 0) ++ base 4 508)
  | _ => none

/-- Vendor log pages in a view (R67, R173, R262, R492, R517, R531, R538, R559). -/
def logVendor (s : State) (v : View) (lid : Nat) : Option (List Byte) :=
  let t := viewTenant v
  match lid with
  | 0xC0 => some (logC0 s t)
  | 0xC1 => some (logC1 s t)
  | 0xC2 => some (logC2 s v)
  | 0xC3 => some (logC3 s v)
  | 0xC4 => some (logC4 s)
  | 0xC5 => some (logC5 s t)
  | 0xC6 => some (logC6 s t)
  | 0xC7 => some (logC7 s)
  | _ => none

/-- Records that a read of a range of log page 0xC2 returns whole. -/
def logRecs (s : State) (v : View) (lid off n : Nat) : List (Nat × RimeRec) :=
  if lid = 0xC2 then
    (((viewRecs s v).reverse.take 15).zipIdx.filter fun x => off ≤ 0x20 + 32 * x.2 && 0x40 + 32 * x.2 ≤ off + n).map (·.1)
  else []

/-- VIEW_READ (R401, R452). KIND 0 shows the window of the function of TENANT on the caller's port, or on port A, and latches
nothing. DEDUCED: log entry 80, DESIGN CHOICE: log entry 101. -/
def execViewRead (t : Tick) (q : Rq) (kind lid offset count : Nat) (s : State) : Host.Outcome State Fault Refusal :=
  let s := s.arrive t
  let port : Port := match q.ep with
    | .fn f => f.port
    | _ => .a
  let f : Fn := ⟨q.tenant, port⟩
  let size : Nat := match kind with
    | 0 => windowBytes f
    | _ => ((logVendor s .owner lid).map List.length).getD 0
  let bad := kind > 1 || (kind = 0 && lid ≠ 0) || count > 4072 || offset + count > size
  .next (answer { code := 0x0106, body := 12, badField := bad, roles := fun _ => true } q (fun r s =>
    let v := viewOf r
    if kind = 0 then (msOk, devBytes s v f offset count, s)
    else match logVendor s v lid with
      | none => (msReserved, [], s)
      | some bs => (msOk, slice bs offset count, alertSeen v (logRecs s v lid offset count) s)) s)

/-! ### Telemetry snapshots (R54, R261) -/

/-- The registers of every view are taken; the engine entries only while TELEM_MASK bit 0 is set.
DEDUCED: log entry 80. -/
def takeSnapshot (s : State) : State :=
  let old (k : Nat) : List Nat := (get? k s.compute.snapshot).getD []
  let one (k : Nat) (view : Option Nat) : Nat × List Nat :=
    let ws := dspWords s view
    (k, if s.settings.dev.telemMask.testBit 0 then ws else ws.take 7 ++ (old k).drop 7)
  let snaps := one 256 none :: s.tenants.map fun x => one x.num (some x.num)
  { s with compute := { s.compute with
      snapshot := snaps
      beatAt := s.now
      engUse := s.compute.engUse.map fun u => { u with beat := 0 }
      counts := s.compute.counts.map fun c => { c with waitMax := 0 } } }

end Sys2Proof.Machine
end

