-- ==== Sys2Proof/Machine/Admin.lean ====
section
/-! DEFINITION. NVMe admin commands that identify the device, read its log pages and manage namespaces (file 03, R75 to
R79; file 10, R400, R413, R414). -/

namespace Sys2Proof.Machine

/-! ### Identify (R74 to R77, R139, R257, R504) -/

/-- Power state descriptors (Tables 13.1 and 13.3): MP in 0.01 W, NOPS, ENLAT and EXLAT in us. -/
def psDescriptors : List Byte :=
  let one (mp : Nat) (nops : Bool) (en ex : Nat) : List Byte :=
    pad 32 (le 2 mp ++ le 1 0 ++ le 1 (if nops then 2 else 0) ++ le 4 en ++ le 4 ex)
  one 8600 false 0 0 ++ one 6000 false 100 100 ++ one 3500 false 150 150 ++ one 600 true 2000 3000 ++ one 120 true 12000 8000

/-- Identify Controller: Table 3.3 at the offsets of NVMe Base 2.1; fields that the table does not list read as zero.
PRESUMED: log entry 81. -/
def identifyController (s : State) (f : Fn) : List Byte :=
  pad 64 (le 2 Config.vendorId ++ le 2 Config.vendorId ++ pad 20 Config.serialNumber ++ pad 40 orderingCode)
    ++ pad 8 Config.firmwareRevision ++ le 1 3 ++ le 3 Config.oui ++ le 1 (if s.boot.portcfg = 0 then 0x0F else 0x0E) ++ le 1 9
    ++ le 2 (cntlid f) ++ le 4 0x00020100 ++ zeros (256 - 84)
    ++ le 2 0x00DE ++ le 1 7 ++ le 1 7 ++ le 1 0x14 ++ zeros 2 ++ le 1 4 ++ zeros 1 ++ le 1 1 ++ zeros (328 - 266)
    ++ le 4 3 ++ zeros (343 - 332) ++ le 1 0xD5 ++ le 4 256 ++ le 4 256 ++ zeros (512 - 352)
    ++ le 1 0x66 ++ le 1 0x44 ++ zeros 2 ++ le 4 1024 ++ le 2 0x00BD ++ le 2 0 ++ zeros 1 ++ le 1 7 ++ le 2 63 ++ le 2 63
    ++ zeros 6 ++ le 4 1 ++ zeros (768 - 540) ++ pad 256 Config.subsystemNqn ++ zeros 1024 ++ psDescriptors
    ++ zeros (3072 - 2208) ++ le 4 0x6440000B ++ le 1 0x42 ++ zeros 1019

/-- NUSE: LBAs whose grain is not deallocated (Table 4.3). -/
def nuse (n : Ns) : Nat := min (nsze n) ((n.map.filter fun e => !e.2.dealloc).length * lbasPerGrain n)

/-- Frames that writes to a namespace may still take: its reservation and its lean limit, less its use. -/
def roomFrames (n : Ns) : Nat :=
  let dom (d lim : Nat) : Nat := resvFrames n + lim - usedFrames n d
  dom 0 n.leanLimit.1 + dom 1 n.leanLimit.2

/-- NCAP (Table 4.3). -/
def ncap (s : State) (n : Ns) : Nat :=
  if s.media.dev == .normal then nsze n else min (nsze n) (nuse n + roomFrames n * 64 / lbaBytes n)

/-- Identify Namespace: Tables 3.4, 3.5 and 4.3 at the offsets of NVMe Base 2.1. PRESUMED: log entry 81. -/
def identifyNs (s : State) (n : Ns) : List Byte :=
  let lb := lbaBytes n
  pad 4096 (le 8 (nsze n) ++ le 8 (ncap s n) ++ le 8 (nuse n) ++ le 1 ((if n.stretch > 0 then 1 else 0) + 0x12) ++ le 1 1
    ++ le 1 n.lbaf ++ zeros 3 ++ le 1 1 ++ le 1 0x7F ++ le 1 0 ++ le 1 9 ++ le 2 (if n.lbaf = 0 then 63 else 511)
    ++ le 2 (if n.lbaf = 0 then 63 else 511) ++ zeros (64 - 38) ++ le 2 (grainBytes n / lb - 1) ++ zeros 6
    ++ le 2 (262144 / lb - 1) ++ zeros (92 - 74) ++ le 4 (n.tenant + 1) ++ zeros (128 - 96) ++ le 4 (12 * 2 ^ 16) ++ le 4 (9 * 2 ^ 16 + 2 ^ 24))

/-- A controller sees a namespace: it is attached, and its function works for its tenant (R405). -/
def nsActive (s : State) (f : Fn) (n : Ns) : Bool := n.attached.contains f && exposed s f

/-- Compute and memory namespaces of a controller whose CC.CSS enables all command sets (R257). -/
def computeNss (s : State) (c : Ctrl) : List Nat :=
  let t := c.fn.tenant
  if c.css = 6 ∧ exposed s c.fn then
    computeNsid t :: (if (tenantCfg s t).slmSize = 0 then [] else [memoryNsid t])
  else []

/-- A list of identifiers in ascending order, as NVMe lays it out: 1,024 entries of four bytes. -/
def nsidList (above : Nat) (ns : List Nat) : List Byte :=
  pad 4096 (((ns.mergeSort (· ≤ ·)).filter (· > above)).flatMap (le 4))

/-- A controller list: a count and the identifiers. -/
def cntlidList (from_ : Nat) (fs : List Fn) : List Byte :=
  let ids := (((fs.map cntlid).mergeSort (· ≤ ·)).filter (· ≥ from_))
  pad 4096 (le 2 ids.length ++ ids.flatMap (le 2))

/-- Data of Identify by CNS, or the status that refuses it. PRESUMED: log entry 12, PRESUMED: log entry 81. -/
def identifyData (s : State) (c : Ctrl) (nsid cns csi : Nat) : Except Status (List Byte) :=
  let f := c.fn
  let base : List Byte := (List.range 4096).map (Config.identifyByte cns)
  let mine := s.nss.filter fun n => n.tenant == f.tenant
  let active := (s.nss.filter (nsActive s f)).map (·.nsid)
  match cns with
  | 0x00 =>
    if (computeNss s c).contains nsid then .ok (zeros 4096)
    else if nsid = 0 ∨ nsid > 1024 then .error stNamespace
    else match s.ns? nsid with
      | none => .ok (zeros 4096)
      | some n => .ok (if nsActive s f n then identifyNs s n else zeros 4096)
  | 0x01 => .ok (identifyController s f)
  | 0x02 => .ok (nsidList nsid (active ++ computeNss s c))
  | 0x07 =>
    let t := f.tenant
    .ok (nsidList nsid (match csi with
      | 0 => active
      | 3 => (computeNss s c).filter (· == memoryNsid t)
      | 4 => (computeNss s c).filter (· == computeNsid t)
      | _ => []))
  | 0x10 => .ok (nsidList nsid (mine.map (·.nsid)))
  | 0x11 => match s.ns? nsid with
    | none => .ok (zeros 4096)
    | some n => .ok (if n.tenant = f.tenant then identifyNs s n else zeros 4096)
  | 0x12 => match s.ns? nsid with
    | none => .error stNamespace
    | some n => if n.tenant = f.tenant then .ok (cntlidList 0 n.attached) else .error stNamespace
  | 0x13 => .ok (cntlidList 0 ([⟨f.tenant, .a⟩, ⟨f.tenant, .b⟩].filter (exposed s)))
  -- R80: one combination, of the NVM, Subsystem Local Memory and Computational Programs command sets
  | 0x1C => .ok (pad 4096 (le 8 (2 ^ 0 + 2 ^ 3 + 2 ^ 4)))
  | 0x03 | 0x05 | 0x06 | 0x08 | 0x14 | 0x15 => .ok base
  | _ => .error stField

/-- IDENTIFY. -/
def execIdentify (t : Tick) (ix : Nat) (s : State) : Host.Outcome State Fault Refusal :=
  let s := s.arrive t
  .next (adminRun ix (fun b => match b with
      | .identify .. => true
      | _ => false) (fun sl s => match sl.sqe.body, s.ctrl? sl.fn with
    | .identify cns csi, some c => match identifyData s c sl.sqe.nsid cns csi with
      | .error st => complete ix st 0 s
      | .ok bs => match checkData sl.sqe 4096 with
        | some st => complete ix st 0 s
        | none => complete ix stOk 0 (s.emit (.identify sl.fn bs))
    | _, _ => s) s)

/-! ### Log pages -/

/-- NVMe's Invalid Log Page. -/
def stLogPage : Status := ⟨1, 0x09, true⟩

/-- GET_LOG_PAGE: vendor pages in the tenant's view, and the pages of NVMe Base 2.1 (R67, R172, R401). -/
def execGetLogPage (t : Tick) (ix : Nat) (s : State) : Host.Outcome State Fault Refusal :=
  let s := s.arrive t
  .next (adminRun ix (fun b => match b with
      | .getLog .. => true
      | _ => false) (fun sl s => match sl.sqe.body, s.ctrl? sl.fn with
    | .getLog lid off len, some c =>
      let page := match logVendor s (.ten sl.fn.tenant) lid with
        | some bs => some bs
        | none => logNvme s c lid
      match page with
      | none => complete ix stLogPage 0 s
      | some bs =>
        if off > bs.length || off % 4 ≠ 0 then complete ix stField 0 s
        else match checkData sl.sqe len with
          | some st => complete ix st 0 s
          | none => complete ix stOk 0 (s.emit (.identify sl.fn (slice bs off len)))
    | _, _ => s) s)

/-! ### Namespaces (R78, R138 to R141) -/

def stNsCapacity : Status := ⟨1, 0x15, false⟩
def stNsUnavailable : Status := ⟨1, 0x16, true⟩
def stNsAttached : Status := ⟨1, 0x18, true⟩
def stNsNotAttached : Status := ⟨1, 0x1A, true⟩
def stCtrlList : Status := ⟨1, 0x1C, true⟩

/-- A namespace and its data go; commands that still name it end with Invalid Namespace or Format.
DEDUCED: log entry 53. -/
def deleteNs (nsid : Nat) (s : State) : State :=
  let s := cryptoErase nsid s
  let mine (sl : Slot) : Bool := sl.sqid != 0 && sl.sqe.nsid == nsid && sl.phase != .posted && sl.phase != .dma
  let s := (s.slots.filter mine).foldl (fun s sl => complete sl.ix stNamespace 0 s) s
  mapMode { s with nss := s.nss.filter (·.nsid != nsid) }

/-- NAMESPACE_MANAGEMENT: a namespace made here has a 4 KiB grain, no still class and a device-held key (R124, R138). A
creation of no capacity at all fails too. DEDUCED: log entry 53, DESIGN CHOICE: log entry 102. -/
def execNamespaceManagement (t : Tick) (ix : Nat) (s : State) : Host.Outcome State Fault Refusal :=
  let s := s.arrive t
  .next (adminRun ix (fun b => match b with
      | .nsCreate .. | .nsDelete => true
      | _ => false) (fun sl s =>
    let tn := sl.fn.tenant
    if !adminMay s sl.fn 0 then complete ix stLockdown 0 s
    else match sl.sqe.body with
    | .nsCreate nsze ncap lbaf =>
      let lb := if lbaf = 0 then 4096 else 512
      let unit := 32 * 2 ^ 20
      let (total, assured) := (nsze * lb, ncap * lb)
      match checkData sl.sqe 4096 with
      | some st => complete ix st 0 s
      | none =>
        if lbaf > 1 then complete ix stInvalidFormat 0 s
        else if total % unit ≠ 0 || assured % unit ≠ 0 || ncap > nsze || total = 0 then complete ix stField 0 s
        else if !capacityFits s false assured (total - assured) (0, 0) then complete ix stNsCapacity 0 s
        else match pick (freeNsids s) s with
          | (none, s) => complete ix stNsUnavailable 0 s
          | (some n, s) =>
            let ns : Ns := { nsid := n, tenant := tn, lbaf := lbaf, assured := assured, stretch := total - assured }
            complete ix stOk n (addNs ns s)
    | .nsDelete =>
      let all := sl.sqe.nsid = 0xFFFFFFFF
      let ns := (s.nss.filter fun n => n.tenant == tn && (all || n.nsid == sl.sqe.nsid)).map (·.nsid)
      if ns.isEmpty && !all then complete ix stNamespace 0 s
      else complete ix stOk 0 (nsChanged tn (ns.foldl (fun s n => deleteNs n s) s))
    | _ => s) s)

/-- NAMESPACE_ATTACHMENT (R78). -/
def execNamespaceAttachment (t : Tick) (ix : Nat) (s : State) : Host.Outcome State Fault Refusal :=
  let s := s.arrive t
  .next (adminRun ix (fun b => match b with
      | .nsAttach .. => true
      | _ => false) (fun sl s => match sl.sqe.body, s.ns? sl.sqe.nsid with
    | .nsAttach attach ids, some n =>
      let tn := sl.fn.tenant
      let fs := ([⟨tn, .a⟩, ⟨tn, .b⟩] : List Fn).filter fun f => ids.contains (cntlid f) && s.hasFn f
      if !adminMay s sl.fn 0 then complete ix stLockdown 0 s
      else if n.tenant ≠ tn then complete ix stNamespace 0 s
      else match checkData sl.sqe 4096 with
        | some st => complete ix st 0 s
        | none =>
          if ids.isEmpty || fs.length ≠ ids.dedup.length then complete ix stCtrlList 0 s
          else if attach && fs.any (n.attached.contains ·) then complete ix stNsAttached 0 s
          else if !attach && !fs.all (n.attached.contains ·) then complete ix stNsNotAttached 0 s
          else
            let s := s.setNs n.nsid fun n => { n with
              attached := if attach then n.attached ++ fs else n.attached.filter (!fs.contains ·) }
            complete ix stOk 0 (nsChanged tn s)
    | .nsAttach .., none => complete ix (if adminMay s sl.fn 0 then stNamespace else stLockdown) 0 s
    | _, _ => s) s)

/-! ### Format NVM and Sanitize (R97, R146, R413, R414) -/

/-- The operation takes its place in ASN order: it starts once lower-ASN I/O of the namespaces has completed (R97). -/
def waitForIo (ix asn : Nat) (san : Bool) (ns : List Nat) (s : State) : State :=
  let s := ns.foldl (fun s n => s.setNs n fun x => { x with busyOp := some (asn, san) }) s
  s.setSlot ix fun sl => { sl with phase := .waitEarlier }

/-- FORMAT_NVM. -/
def execFormatNvm (t : Tick) (ix : Nat) (s : State) : Host.Outcome State Fault Refusal :=
  let s := s.arrive t
  .next (adminRun ix (fun b => match b with
      | .format .. => true
      | _ => false) (fun sl s => match eraseCheck s sl with
    | some st => complete ix st 0 s
    | none => waitForIo ix sl.asn false (erasedNs s sl) s) s)

/-- SANITIZE: Block Erase (2) and Crypto Erase (4); Overwrite is not supported (R413, R414). -/
def execSanitize (t : Tick) (ix : Nat) (s : State) : Host.Outcome State Fault Refusal :=
  let s := s.arrive t
  .next (adminRun ix (fun b => match b with
      | .sanitize .. => true
      | _ => false) (fun sl s => match eraseCheck s sl with
    | some st => complete ix st 0 s
    | none => waitForIo ix sl.asn true (erasedNs s sl) s) s)

/-! ### Commands that R75 names and whose course NVMe Base 2.1 gives -/

/-- DEVICE_SELF_TEST: a test ends at once with a result that the spec does not give; an abort (15) finds none running.
DESIGN CHOICE: log entry 87. -/
def execDeviceSelfTest (t : Tick) (ix : Nat) (s : State) : Host.Outcome State Fault Refusal :=
  let s := s.arrive t
  .next (adminRun ix (fun b => match b with
      | .selfTest .. => true
      | _ => false) (fun sl s => match sl.sqe.body with
    | .selfTest code =>
      if code = 15 then complete ix stOk 0 s
      else if code ≠ 1 ∧ code ≠ 2 ∧ code ≠ 14 then complete ix stField 0 s
      else
        let (r, s) := freeNat s
        let s := { s with boot := { s.boot with selfTests := ((code, s.hours, r % 15) :: s.boot.selfTests).take 20 } }
        complete ix stOk 0 s
    | _ => s) s)

/-- A command ends with a Dword 0 that the spec does not give. DESIGN CHOICE: log entry 87. -/
def completeFree (ix : Nat) (s : State) : State :=
  let (d, s) := freeNat s
  complete ix stOk (d % 2 ^ 32) s

/-- NVME_MI_SEND: the request's course is NVMe-MI's, and its response status stands in Dword 0.
PRESUMED: log entry 31. -/
def execNvmeMiSend (t : Tick) (ix : Nat) (s : State) : Host.Outcome State Fault Refusal :=
  let s := s.arrive t
  .next (adminRun ix (fun b => match b with
      | .miSend => true
      | _ => false) (fun _ s => completeFree ix s) s)

/-- NVME_MI_RECEIVE. PRESUMED: log entry 31. -/
def execNvmeMiReceive (t : Tick) (ix : Nat) (s : State) : Host.Outcome State Fault Refusal :=
  let s := s.arrive t
  .next (adminRun ix (fun b => match b with
      | .miReceive => true
      | _ => false) (fun sl s =>
    completeFree ix (s.emit (.identify sl.fn ((List.range 4096).map (Config.miByte 0))))) s)

/-- VIRTUALIZATION_MANAGEMENT: the device has no flexible resources, so that no action changes one.
PRESUMED: log entry 31. -/
def execVirtualizationManagement (t : Tick) (ix : Nat) (s : State) : Host.Outcome State Fault Refusal :=
  let s := s.arrive t
  .next (adminRun ix (fun b => match b with
      | .virtMgmt .. => true
      | _ => false) (fun sl s => match sl.sqe.body with
    | .virtMgmt action _ => if [1, 7, 8, 9].contains action then completeFree ix s else complete ix stField 0 s
    | _ => s) s)

end Sys2Proof.Machine
end

