-- ==== Sys2Proof/Machine/Start.lean ====
section
/-! DEFINITION. Reset and start (files 05 and 16): what a loss of power leaves, the stages of Table 5.7, readiness, the
device shutdown, the restarts of R415 and R533, and the writes of the xSPI NOR. -/

namespace Sys2Proof.Machine

/-! ### What a loss of power leaves (R154, R186, R187, R201, R203, R565) -/

/-- The clean record stands, and nothing that only a dirty start restores has been added since (R199).
DEDUCED: log entry 42. -/
def cleanNow (s : State) : Bool :=
  s.boot.cleanRecord && s.media.delta == 0 && s.staged.all fun p => p.tomb || !p.committed

/-- PFAIL_N has given its warning to a start (R188). -/
def startWarned (s : State) : Bool := s.pins.pfail || s.boot.endedByPfail || s.boot.heldByPfail

/-- The START kind that a loss of service leaves for the next start: an event that is treated as an unannounced loss
(`forced`), or a fall of PWRGD, with or without warning (R186, R187, R199). DEDUCED: log entry 42. -/
def lossKind (forced : Bool) (s : State) : Nat :=
  match s.boot.life with
  | .running | .parked =>
    if forced || !s.pfail.stopped then 3
    else if !s.pfail.completed then 2
    else if cleanNow s then 0 else 1
  | .starting => if forced || !startWarned s then 3 else s.boot.startKind
  | _ => s.boot.startKind

/-- The loss is counted, once (R186, R187, R195). -/
def countLoss (forced : Bool) (kind : Nat) (s : State) : State :=
  let h := s.holdup
  if (s.boot.life != .running && s.boot.life != .parked) && (s.boot.life != .starting || (!forced && startWarned s)) then s
  else match kind with
  | 2 => { s with holdup := { h with cuts := h.cuts + 1, cutSince := true } }
  | 3 => { s with holdup := { h with losses := h.losses + 1, lossSince := true } }
  | _ => s

/-- A piece stands at its place in ascending ASN order. DEDUCED: log entry 42. -/
def insertPiece (p : Staged) : List Staged → List Staged
  | [] => [p]
  | q :: qs => if asnLt p.asn q.asn then p :: q :: qs else q :: insertPiece p qs

/-- The pieces that the flush image gives back: those flushed whose drain record the journal on media does not hold, in
ASN order, below every ASN given after the start (R186, R201). DEDUCED: log entry 42. -/
def restoredPieces (s : State) : List Staged :=
  let ps := s.media.undoPieces ++ s.staged.filter fun p => p.committed && !p.tomb && p.image.isSome
  let ps := (ps.foldl (fun l p => insertPiece p l) []).filter fun p => (s.ns? p.nsid).isSome
  ps.zipIdx.map fun x => { x.1 with asn := 2 ^ 48 - ps.length + x.2, ready := [], committed := true }

/-- Charges that the restored pieces hold in the domains of a namespace (R142). -/
def heldCharge (ps : List Staged) (nsid : Nat) : Nat × Nat :=
  let cs := (ps.filter (·.nsid == nsid)).flatMap (·.charge)
  (sumBy (·.2) (cs.filter fun c => domainOf c.1 = 0), sumBy (·.2) (cs.filter fun c => domainOf c.1 = 1))

/-- Map entries whose journal record was lost stand as they were (R187, R189). DEDUCED: log entry 42. -/
def undoMap (s : State) : State :=
  let s := s.media.undo.foldl (fun s u => s.setNs u.1 fun n => { n with map := put u.2.1 u.2.2 n.map }) s
  { s with media := { s.media with undo := [], undoPieces := [], delta := 0 } }

/-- The blocks whose erase was asked for and has not ended (R203). -/
def openErases (s : State) : List (DieId × Nat) :=
  let ops := (s.media.dies.flatMap fun x => (x.op.toList ++ x.held.toList).map fun o => (x.id, o)) ++ s.media.waiting
  ops.filterMap fun o => match o.2 with
    | .erase k => some (o.1, k)
    | _ => none

/-- A band after a loss of power: programs under way are not verified, and the parity of rows whose parity page was not
programmed is lost (R117, R184). DEDUCED: log entry 42. -/
def Band.kept (b : Band) : Band :=
  let pc := parityChannel b.serial
  { b with
    parity := b.parity.filter fun x => b.passed.contains (x.1, pc)
    parityIssued := b.parityIssued.filter fun r => b.passed.contains (r, pc) }

/-- What the media and its tables keep. DEDUCED: log entry 42. -/
def loseMedia (s : State) : State :=
  let ps := restoredPieces s
  let s := (openErases s).foldl (fun s x => setBlock x.1 x.2 (fun b => { b with erasePending := true }) s) (undoMap s)
  let idle (x : Die) : Die := { x with
    op := none, pollAt := none, suspendAsked := none, held := none, wasSuspended := false, late := false, resetting := false
    turn := (0, 0) }
  let older (r : Run) : Run := { r with asns := r.asns.map fun _ => 0 }
  let kept (n : Ns) : Ns := { n with
    resident := [], loading := [], charged := heldCharge ps n.nsid, key := none
    busyOp := if ((s.tenant? n.tenant).map (·.sanitize.isSome)).getD false then n.busyOp else none }
  { s with
    staged := ps
    nss := s.nss.map kept
    media := { s.media with
      dies := s.media.dies.map idle, runs := s.media.runs.map older, waiting := [], pins := []
      fetches := [], rebuilding := [], placed := [], unplaced := [], bands := s.media.bands.map Band.kept
      shelf := {}, refreshByCount := 0, refreshBySample := 0, rebuilds := 0, mapLoads := 0, lateSuspends := 0
      quantaReleased := false } }

/-- A tenant that an unwritten intent was about to destroy keeps its state (R407). DEDUCED: log entry 44. -/
def undestroy (s : State) : State :=
  let ds := (s.owner.erasures.filter (·.step < 4)).flatMap (·.destroys)
  ds.foldl (fun s d => s.setTenant d.1 fun x =>
    { x with state := if d.2.getD 4 0 = 1 then .running else .stopped }) s

/-- A commit whose COMMIT word was programmed stands, without an answer (R205, R206). DEDUCED: log entry 43. -/
def commitStands (s : State) : State :=
  match s.settings.commit with
  | some (5, b, .create _ r cred) => newView r.tenant { s with
      tenants := s.tenants ++ [bornTenant s (SetBody.ten b r.tenant) cred] }
  | some (5, _, .cred _ tn prog cred) =>
    s.setTenant tn fun x => if prog then { x with progCred := cred } else { x with cred := cred }
  | some (5, _, .live) => { s with settings := { s.settings with bankedAt := some s.rime.opTicks } }
  | _ => s

/-- What tenants, settings and ownership keep. -/
def loseTenants (s : State) : State :=
  let s := commitStands (undestroy s)
  let halted (x : Tenant) : Tenant := { x with draining := false, graceAt := none, stopRq := none }
  { s with
    tenants := s.tenants.map halted
    eps := []
    owner := { s.owner with erasures := [], debugNonce := none, unlocked := false }
    settings := { s.settings with
      staged := none, commit := none, commitQueue := [], live := [], journalled := s.media.liveRecs } }

/-- A key store slot after power-off: only a persistent key comes back (R360). DEDUCED: log entry 56. -/
def KeySlot.kept (x : KeySlot) : KeySlot :=
  if x.valid && x.persist then { x with claimed := none } else { slot := x.slot, gen := x.gen }

/-- What the units and engines keep. -/
def loseUnits (s : State) : State :=
  let lane (u : Unit8) : Unit8 := { ix := u.ix, withdrawn := u.withdrawn }
  let felt (f : Felt) : Felt := { ix := f.ix, failures := f.failures }
  let part (p : TwPart) : TwPart := { tenant := p.tenant, lost := p.lost }
  let eng (e : Engine) : Engine :=
    { ix := e.ix, status := e.status, pos := e.pos, cluster := e.ix / 9, passedAt := e.passedAt, bankErrors := e.bankErrors
      calved := e.calved, fenced := e.status == 2 || s.repair.calving.any (·.1 == e.ix) }
  { s with
    compute := {}
    engines := s.engines.map eng
    twill := { parts := s.twill.parts.map part, scannedAt := s.now }
    units := { s.units with
      lanes := s.units.lanes.map lane, digests := s.units.digests.map lane, waiting := [], wrapped := [], lost := [], wraps := 0
      felts := s.units.felts.map felt, sievesOut := [], twillIn := true, keys := s.units.keys.map KeySlot.kept
      digestRegs := [] } }

/-- What the memories keep of their repairs. -/
def loseRepair (s : State) : State :=
  let chan (c : DramCh) : DramCh := { c with
    inService := false, due := none, retraining := false, repairing := none, hardQueue := [], retry := none }
  let r := s.repair
  { s with repair :=
    { chans := r.chans.map chan, pageIdle := r.pageIdle, nrrLog2 := r.nrrLog2, retiredBytes := r.retiredBytes
      pageIdleNext := r.pageIdleNext, nrrLog2Next := r.nrrLog2Next
      remap := r.remap, stagingKib := r.stagingKib, sramPatrol := r.sramPatrol, dramPatrol := r.dramPatrol
      testFails := r.testFails, calving := r.calving } }

/-- What Rime keeps: the ring is lost, and after a loss that may have taken records with it every series leaves a gap
(R520, R528, R581). DEDUCED: log entry 79. -/
def loseRime (kind : Nat) (s : State) : State :=
  let r := s.rime
  let gap (n : Nat) : Nat := if n + 4096 < 2 ^ 32 then n + 4096 else n + 4097 - 2 ^ 32
  let lossy := kind = 2 || kind = 3
  let tens := s.tenants.map fun x => (x.num, gap ((get? x.num r.flushedNext.2.2).getD 1))
  { s with rime := { r with
    next := if lossy then gap r.flushedNext.1 else r.next
    healthNext := if lossy then gap r.flushedNext.2.1 else r.healthNext
    tenantNext := if lossy then tens else r.tenantNext
    ring := [], flushing := none, dropped := 0, droppedAll := 0, flushes := 0, flushedAt := s.now
    opTicks := r.opSaved, alertSeq := none, writes := 0, wroteAt := none } }

/-- A controller after power-off: what Save and Select kept, and its error log. -/
def Ctrl.kept (c : Ctrl) : Ctrl :=
  { fn := c.fn, arb := c.arbSaved.getD {}, arbSaved := c.arbSaved, errorLog := c.errorLog }

/-- A copy of the board descriptor whose NOR write is under way does not verify (R178). DESIGN CHOICE: log entry 89. -/
def loseNor (s : State) : State :=
  match s.boot.nor with
  | .desc _ _ k :: _ => { s with holdup := { s.holdup with copies := s.holdup.copies.set k none } }
  | _ => s

/-- Everything volatile is lost, and the next start is of a kind; it is dirty without a valid clean record (R199, R200).
DEDUCED: log entry 42. -/
def losePower (kind : Nat) (s : State) : State :=
  let dirty := !cleanNow s
  let s := loseRime kind (loseRepair (loseUnits (loseTenants (loseMedia (loseNor s)))))
  { s with
    boot := { s.boot with
      startKind := kind, dirty := dirty, stage := 0, shutdownRq := none, nor := [], records := [] }
    pfail := { s.pfail with stopped := false, step := 0, completed := false, deassertedAt := none }
    holdup := { s.holdup with due := false, testStep := 0, testVoid := false, testOk := false }
    firn := { plan := s.firn.plan }
    ctrls := s.ctrls.map Ctrl.kept
    slots := [], stillLog := [], asn := 1, rrAdmin := (0, 0), rrUrgent := (0, 0), rrTenant := (0, 0), rrTurn := [], rrSq := []
    power := { regFaults := s.power.regFaults, thermals := s.power.thermals, psSince := s.now }
    fw := { s.fw with handover := none, pauseSince := none, staging := none, microcode := [], download := []
                      stagedState := if s.fw.stagedState = 1 then 0 else s.fw.stagedState } }

/-! ### Reset (R565, R566, R571, R579) -/

/-- The device enters reset: every output is high-impedance, at the level of its pull. DEDUCED: log entry 42. -/
def enterReset (forced : Bool) (life : Life) (s : State) : State :=
  let s := losePower (lossKind forced s) (countLoss forced (lossKind forced s) s)
  let p := s.pins
  { s with
    pins := { pwrgd := p.pwrgd, pfail := p.pfail, holdupOk := p.holdupOk }
    boot := { s.boot with life := life, heldByPfail := false, endedByPfail := false, startEnded := false }
    holdup := { s.holdup with okSince := none, okStable := false, proven := false, changedAt := none }
    moraine := { s.moraine with fatal := none }
    linkA := {}
    linkB := {} }

/-- PWRGD_FALL: all work stops in the tick of the landing (R565). -/
def execPwrgdFall (t : Tick) (s : State) : Host.Outcome State Fault Refusal :=
  let s := s.arrive t
  .next (if !s.pins.pwrgd then s
    else
      let s := if s.boot.life == .latched then { s with boot := { s.boot with life := .reset } } else enterReset false .reset s
      { s with pins := { s.pins with pwrgd := false } })

/-- SYSCLK_FAULT (R571). DEDUCED: log entry 42. -/
def execSysclkFault (t : Tick) (s : State) : Host.Outcome State Fault Refusal :=
  let s := s.arrive t
  .next (if !s.pins.pwrgd || s.boot.life == .latched then s else enterReset true .latched s)

/-- EXTEST: the boundary register takes the balls, and with PWRGD high the device enters reset (R579).
DEDUCED: log entry 42. -/
def execExtest (t : Tick) (s : State) : Host.Outcome State Fault Refusal :=
  let s := s.arrive t
  .next (
    let s := { s with tap := .boundary }
    if !s.pins.pwrgd || s.boot.life == .latched then s else enterReset true .latched s)

/-- Links train once the device lets them and their PERST is deasserted. -/
def trainLinks (s : State) : State :=
  let go (p : Port) (l : Link) : Link := { l with training := !l.perst && linksFree s && portUsed s p }
  { s with linkA := go .a s.linkA, linkB := go .b s.linkB }

/-- The boot ROM begins: with BOOTSEL 0b01 it reads no slot and holds (Table 16.4). DEDUCED: log entry 46. -/
def bootBegin (s : State) : State :=
  trainLinks { s with boot := { s.boot with
    life := if s.boot.bootsel = 1 then .bootHold else .starting, stage := 0, landedAt := s.now, records := [] } }

/-- A slot that was to become active does so, in trial (R544). DEDUCED: log entry 43. -/
def takeNextActive (s : State) : State :=
  match s.fw.nextActive with
  | none => s
  | some i => { s with fw := { s.fw with
      active := i, nextActive := none, trial := some s.rime.opTicks, stagedState := 0 } }

/-- PWRGD_RISE: the straps are sampled, and the boot ROM starts the device (R188, R568, R569).
DESIGN CHOICE: log entry 93. -/
def execPwrgdRise (t : Tick) (bootsel portcfg : Nat) (s : State) : Host.Outcome State Fault Refusal :=
  let s := s.arrive t
  .next (if s.pins.pwrgd then s
    else
      let s := takeNextActive { s with
        pins := { s.pins with pwrgd := true }
        boot := { s.boot with
          bootsel := bootsel, portcfg := portcfg, landedAt := s.now, stage := 0, life := .strapHold
          heldByPfail := s.pins.pfail, endedByPfail := false, startEnded := false }
        holdup := { s.holdup with okSince := if s.pins.holdupOk then some s.now else none, okStable := false }
        rime := { s.rime with cycles := s.rime.cycles + 1, opTicks := s.rime.opSaved, flushedAt := s.now }
        fw := { s.fw with pair0 := .serving, pair1 := .standby }
        power := { s.power with psSince := s.now } }
      if bootsel > 1 || portcfg > 1 then s else bootBegin s)

/-- OUTPUT_FIRST_DRIVE: 0.1 ms or 0.5 ms after PWRGD landed, outputs are first driven (R567, R569, R573).
DEDUCED: log entry 46, DESIGN CHOICE: log entry 90. -/
def execOutputFirstDrive (t : Tick) (late : Bool) (s : State) : Host.Outcome State Fault Refusal :=
  let s := s.arrive t
  let live := s.pins.pwrgd && s.boot.life != .latched
  .next (
    if late then
      (if live && s.pins.drivenEarly && s.expired (s.boot.landedAt + ticksPerMs / 2)
      then { s with pins := { s.pins with drivenLate := true } } else s)
    else if live && !s.pins.drivenEarly && s.expired (s.boot.landedAt + ticksPerMs / 10) then
      let held := s.boot.life == .strapHold || s.boot.life == .bootHold
      let s := { s with pins := { s.pins with drivenEarly := true, fault := s.pins.fault || held } }
      let s := s.setLink .a fun l => { l with clkreq := true }
      if portUsed s .b then s.setLink .b fun l => { l with clkreq := true } else s
    else s)

/-! ### The stages of a start (Table 5.7) -/

/-- The boot ROM holds: both ports in reset, FAULT_N low (R422, R455). DEDUCED: log entry 43. -/
def bootHolds (s : State) : State :=
  { s with
    pins := { s.pins with fault := true }
    boot := { s.boot with life := .bootHold }
    linkA := { s.linkA with up := false, training := false }
    linkB := { s.linkB with up := false, training := false } }

/-- A record of the start, which stands behind START. DEDUCED: log entry 43. -/
def startRecord (code sev : Nat) (param : List Byte) (s : State) : State :=
  { s with boot := { s.boot with records := s.boot.records ++ [(code, sev, param)] } }

/-- The next stage begins. DEDUCED: log entry 43. -/
def stageDone (s : State) : State := { s with boot := { s.boot with stage := s.boot.stage + 1 } }

/-- Stage 1: the ROM has checked the firmware slots (R422). DEDUCED: log entry 43. -/
def romVerified (active other : Bool) (reason : Nat) (s : State) : State :=
  let a := s.fw.active
  if active && (fwSlot s a).isSome then stageDone s
  else if other && (fwSlot s (1 - a)).isSome then
    let s := { s with fw := { s.fw with active := 1 - a, trial := none } }
    stageDone (startRecord 0x0803 sevError (le 1 (1 - a) ++ le 1 reason) s)
  else bootHolds s

/-- The settings set of a start, with its source: a bank, the reserve-band copy, or none (R204, R207).
DEDUCED: log entry 43. -/
def chooseSet (s : State) : Option Bank × Nat :=
  let nor : Option (Bank × Nat) := match s.settings.bankA.filter bankValid, s.settings.bankB.filter bankValid with
    | some a, some b => if a.gen < b.gen then some (b, 1) else some (a, 0)
    | some a, none => some (a, 0)
    | none, some b => some (b, 1)
    | none, none => none
  match nor, s.settings.copy.filter bankValid with
  | none, none => (none, 3)
  | none, some c => (some c, 2)
  | some x, some c => if x.1.gen < c.gen then (some c, 2) else (some x.1, x.2)
  | some x, none => (some x.1, x.2)

/-- The bank that a copy is written to: bank A when no bank is valid, else the older one (R207).
DEDUCED: log entry 43. -/
def repairBank (s : State) : Nat :=
  match s.settings.bankA.filter bankValid, s.settings.bankB.filter bankValid with
  | some a, some b => if a.gen < b.gen then 0 else 1
  | some _, none => 1
  | _, _ => 0

/-- A blank device after a factory restore (R24, R415). DEDUCED: log entry 44. -/
def restoreBlank (s : State) : State :=
  let (salt, s) := draw 32 s
  { s with
    boot := { s.boot with restore := false }
    nss := [{ nsBlank Config.assuredCapacity with salt := salt }]
    settings := { s.settings with gen := 0, dev := DevRec.blank, bankedAt := none }
    media := { s.media with runs := [], damaged := [] }
    tenants := s.tenants.map fun x => { x with state := .running, cfg := TenRec.blank 0 } }

/-- The board descriptor in use: the first NOR copy whose digest verifies (R178). -/
def chosenDesc (s : State) : Option BoardDesc :=
  s.holdup.copies.findSome? fun c => match c with
    | some (d, h) => if Config.sha384 (descBytes d) == h then some d else none
    | none => none

/-- Stage 2: the generation is chosen, and the values that the journal holds stand over it (R204, R207, R208).
DEDUCED: log entry 43. -/
def settingsChosen (s : State) : State :=
  let s := if s.boot.restore then restoreBlank s else s
  let (b, src) := chooseSet s
  let s := if src = 2 then
      let s := setBank (repairBank s) b s
      { s with holdup := { s.holdup with bankWrites := s.holdup.bankWrites + 1 } }
    else s
  let body : SetBody := s.settings.journalled.foldl (fun b l => liveInto l.2 b) ((b.map (·.body)).getD {})
  stageDone { s with
    settings := { s.settings with gen := (b.map (·.gen)).getD 0, dev := body.dev }
    tenants := s.tenants.map fun x => { x with cfg := SetBody.ten body x.num }
    firn := { s.firn with plan := body.dev.plan }
    boot := { s.boot with settingsSource := src }
    holdup := { s.holdup with desc := chosenDesc s } }

/-- Stage 3: the DRAM devices are identified and trained; NAND channels and dies are initialised, with every WP_N low
(R455, R461, R567). DEDUCED: log entry 43. -/
def dramTrained (known : Bool) (trained : List Bool) (s : State) : State :=
  if !known then bootHolds s
  else
    let ok (c : DramCh) : Bool := trained.getD c.ix false
    let up (c : DramCh) : DramCh := { c with inService := ok c, trainedAt := s.rime.opTicks }
    let out := (s.repair.chans.filter fun c => !ok c).map (·.ix)
    let s := { s with
      repair := { s.repair with chans := s.repair.chans.map up, rate := 6400 }
      pins := { s.pins with dramResetReleased := true, parked := false, wpHigh := [] } }
    stageDone (out.foldl (fun s ch => startRecord 0x0601 sevCritical (le 1 ch) s) s)

/-- Tenants that hold a key or a salt placed while debug was unlocked (R427). -/
def markedTenants (s : State) : List Nat :=
  (((s.units.keys.filter fun k => k.valid && k.marked).map (·.owner)) ++ (s.nss.filter (·.marked)).map (·.tenant)).dedup

/-- Stage 4: erasures that the loss of power interrupted are completed before any key is present; then the key store and
the media keys that the device holds come back, under a new context key and a new shelf key (R134, R372, R384, R407, R412, R427). -/
def keysBack (s : State) : State :=
  let (ds, es) := s.owner.intent.getD ([], [])
  let s := ((ds ++ es ++ markedTenants s).dedup).foldl (fun s tn => eraseTenant tn s) s
  let s := (draw 32 s).2
  let (shelfKey, s) := draw 32 s
  let live (n : Ns) : Bool := ((s.tenant? n.tenant).map (·.state != .destroying)).getD false
  let key (n : Ns) : Ns := if n.keysrc = 0 && live n then { n with key := some (nsDeviceKey s n) } else { n with key := none }
  stageDone { s with nss := s.nss.map key, owner := { s.owner with intent := s.owner.intent.map fun i => (i.1, []) }
                     media := { s.media with shelf := { s.media.shelf with key := shelfKey } } }

/-- Stage 6, after a dirty start only: open bands are closed at their last complete row, and the read count of every block
in use is restored, with 10 % of its threshold added (R154, R159, R184). -/
def journalBack (s : State) : State :=
  let used := s.media.bands.flatMap fun b => b.blocks.map fun x => ((⟨x.1, x.2.1⟩ : DieId), x.2.2)
  let listed := (s.media.blocks.filter (!·.retired)).map fun b => (b.die, b.num)
  let back (s : State) (x : DieId × Nat) : State :=
    setBlock x.1 x.2 (fun b => { b with reads := min 16777215 (b.saved + threshold s x.1 x.2 / 10) }) s
  let s := (used ++ listed.filter (!used.contains ·)).foldl back s
  let shut (b : Band) : Band := { b with closed := true }
  stageDone { s with media := { s.media with bands := s.media.bands.map shut } }

/-- Nothing of R188 holds the start back: a start that PFAIL_N ends goes on until its next verified media write has parked
the media. -/
def startFree (s : State) : Bool := !s.boot.heldByPfail && !s.boot.startEnded

/-- START_STAGE_COMPLETE: a stage ends, when its turn has come. DESIGN CHOICE: log entry 94. -/
def execStartStageComplete (t : Tick) (stage : StartStage) (s : State) : Host.Outcome State Fault Refusal :=
  let s := s.arrive t
  .next (if s.boot.life != .starting then s
    else match stage, s.boot.stage with
    | .romVerify active other reason, 0 => romVerified active other reason s
    | .settingsRead, 1 => if startFree s then settingsChosen s else s
    | .dramTrain known trained, 2 => if startFree s then dramTrained known trained s else s
    | .keysRestored, 3 => if startFree s then keysBack s else s
    | .directoryRead, 4 => if startFree s then stageDone s else s
    | .journalReplayed, 5 => if s.boot.dirty && startFree s then journalBack s else s
    | _, _ => s)

/-! ### Ready (R200, R199, R202, R33) -/

/-- Records of the start, in ascending CODE. DEDUCED: log entry 43. -/
def startRecords (s : State) : State :=
  let ks := [0x0601, 0x0801, 0x0803]
  let rs := ks.flatMap fun k => s.boot.records.filter (·.1 == k)
  let s := rs.foldl (fun s r => rimeDev r.1 r.2.1 true r.2.2 s) s
  { s with boot := { s.boot with records := [] } }

/-- The START record. PRESUMED: log entry 40. -/
def startNote (s : State) : State :=
  let k := s.boot.startKind
  let sev := if k = 2 || k = 3 then sevError else if k = 5 then sevWarning else sevNotice
  rimeDev 0x0201 sev true (le 1 k ++ le 1 s.boot.settingsSource ++ le 2 (sat 2 ((s.now - s.boot.landedAt) / ticksPerMs))
    ++ le 8 s.settings.gen) s

/-- Map pages of still-class namespaces are asked for ahead of others (R61, R202). -/
def askStillPages (s : State) : State :=
  { s with nss := s.nss.map fun n => if n.still && n.key.isSome then { n with loading := n.written } else n }

/-- A destruction that power loss interrupted ends (R407). DEDUCED: log entry 44. -/
def endDestroyed (s : State) : State :=
  let ds := (s.owner.intent.map (·.1)).getD []
  ds.foldl (fun s tn => destroyEnd (tn, []) s) { s with owner := { s.owner with intent := none } }

/-- The device becomes ready. DEDUCED: log entry 43. -/
def becomeReady (s : State) : State :=
  let k := s.boot.startKind
  let s := { s with
    boot := { s.boot with
      life := .running, cleanRecord := false, unsafeShutdowns := s.boot.unsafeShutdowns + (if s.boot.dirty then 1 else 0) }
    pins := { s.pins with ready := true, fault := false }
    moraine := { s.moraine with fatal := none }
    fw := { s.fw with heartbeatAt := s.now + ticksPerMs }
    ctrls := s.ctrls.map fun c => if c.en then { c with rdy := true } else c }
  -- R581: START is the first record after a gap; otherwise the records of one tick rise in CODE (R521)
  let s := if k = 2 || k = 3 then firnStart (startNote s) else startNote (firnStart s)
  let s := reproof s
  let s := if s.holdup.proven then s
    else raiseSmart (rimeDev 0x0204 sevWarning true (le 1 1 ++ le 1 (proofReason s)) s)
  let s := endDestroyed (startRecords s)
  let fresh := (s.holdup.passedAt.map fun p => decide (s.rime.opTicks - p < 24 * ticksPerHour)).getD false
  let s := if fresh then s else holdupDue s
  touchIdle (askStillPages (mapMode s))

/-- DEVICE_READY: the last stage has ended (R200). A clean start ends with the directory. A start that PFAIL_N ends gets no
further than the write that invalidates the clean record (R188, R199). -/
def execDeviceReady (t : Tick) (s : State) : Host.Outcome State Fault Refusal :=
  let s := s.arrive t
  .next (if s.boot.life == .starting && startFree s && s.boot.stage = (if s.boot.dirty then 6 else 5) then
      (if s.boot.endedByPfail then endStart { s with boot := { s.boot with cleanRecord := false } } else becomeReady s)
    else s)

/-! ### The restarts without a rise of PWRGD (R199, R415, R533, R534, R549) -/

/-- Both links go down, and the device starts again from the check of the firmware. -/
def restart (kind : Nat) (s : State) : State :=
  let down (l : Link) : Link := { perst := l.perst, clkreq := l.clkreq }
  let pairs := s.repair.fenced.filter fun p => match p with
    | .pair _ => true
    | _ => false
  let s := losePower kind s
  bootBegin { s with
    pins := { s.pins with
      ready := false, parked := true, wpHigh := [], alert := false, led1Until := none
      dramResetReleased := false }
    repair := { s.repair with fenced := pairs }
    linkA := down s.linkA
    linkB := down s.linkB }

/-- Step 4 of Table 14.7: the restart after a fatal error. Under a trial it starts the other slot; with no pair in
lockstep, pair 0 serves. DEDUCED: log entry 45. -/
def fatalRestart (cause : Nat) (s : State) : State :=
  let old := s.fw.active
  let s := if cause = 2 then { s with fw := { s.fw with pair0 := .serving } } else s
  if s.fw.trial.isSome then
    let v := fwVersion s old
    let s := restart 5 { s with fw := { s.fw with active := 1 - old, trial := none } }
    startRecord 0x0801 sevNotice (le 1 old ++ le 1 1 ++ le 2 0 ++ le 8 v) s
  else restart 5 s

/-- The summary of the dump is written: the device restarts, or holds after the third fatal error within 24 operating
hours (R533, R534). DEDUCED: log entry 45. -/
def fatalEnd (cause : Nat) (s : State) : State :=
  let s := writeDump cause false s
  let recent := s.moraine.fatals.filter fun x => s.rime.opTicks - x < 24 * ticksPerHour
  if recent.length ≥ 3 then bootHolds (restart 1 s) else fatalRestart cause s

/-! ### The xSPI NOR (R178, R205, R445) -/

/-- The write at the head of the queue has ended. DEDUCED: log entry 89. -/
def norDone (j : NorJob) (s : State) : State :=
  match j with
  | .bank => commitStep s
  | .fw q recovery offset total data =>
    let s := stageWritten q recovery offset total data s
    -- R422: after a recovery image the ROM restarts; a hold under R534 lasts until the next power-on
    if recovery && s.boot.life == .bootHold && s.moraine.fatal.isNone && offset + data.length = total
        && s.fw.stagedState = 2
    then bootBegin { s with pins := { s.pins with fault := s.boot.bootsel == 1 } } else s
  | .desc q d k =>
    let s := { s with holdup := { s.holdup with copies := s.holdup.copies.set k (some (d, Config.sha384 (descBytes d))) } }
    if k = 0 then s
    else
    let s := { s with holdup := { s.holdup with desc := some d } }
    respond q 0x0A03 msOk [] (reproof (holdupDue s))

/-- NOR_WRITE_COMPLETE: an erase or a program of the NOR ends. DEDUCED: log entry 89. -/
def execNorWriteComplete (t : Tick) (s : State) : Host.Outcome State Fault Refusal :=
  let s := s.arrive t
  .next (if !s.pins.pwrgd then s
    else match s.boot.life, s.moraine.fatal with
    | .running, some c => if s.pfail.step = 9 then fatalEnd c s else s
    | .running, none | .bootHold, _ =>
      if s.pfail.stopped then s
      else match s.boot.nor with
      | [] => s
      | j :: rest => norDone j { s with boot := { s.boot with nor := rest } }
    | _, _ => s)

/-! ### Shutdown (R198, R199) -/

/-- Flush the ring to its end. DEDUCED: log entry 79. -/
def rimeFlushAll : Nat → State → State
  | 0, s => s
  | n + 1, s => if s.rime.ring.isEmpty then s else rimeFlushAll n (rimeWritten (rimeFlushStart s))

/-- A device shutdown is asked for: by the board controller or the owner, by every enabled controller, or for a factory
restore. DEDUCED: log entry 86. -/
def shutdownAsked (s : State) : Bool :=
  let en := s.ctrls.filter (·.en)
  s.boot.shutdownRq.isSome || s.boot.restore || (!s.boot.cleanRecord && !en.isEmpty && en.all (·.shst == 2))

/-- DEVICE_SHUTDOWN: the steps of R198 in order. DEDUCED: log entry 86. -/
def execDeviceShutdown (t : Tick) (s : State) : Host.Outcome State Fault Refusal :=
  let s := s.arrive t
  .next (if !s.serving || s.fw.pauseSince.isSome || !shutdownAsked s then s
    else
      let cause := if s.boot.shutdownRq.isSome then 1 else 0
      let s := journalFlush (settleWrites (drainAll s))
      let s := { s with media := { s.media with blocks := s.media.blocks.map fun b => { b with saved := b.reads } } }
      let (ms, s) := freeNat s
      let s := rimeDev 0x0206 sevInfo true (le 1 cause ++ zeros 1 ++ le 2 (ms % 101)) (shelfStop 0 s)
      let s := rimeFlushAll 4 s
      let rq := s.boot.shutdownRq
      let s := settle { s with boot := { s.boot with cleanRecord := true, shutdownRq := none } }
      let s := match rq with
        | some q => respond q 0x0A02 msOk [] s
        | none => s
      if s.boot.restore then restart 0 s else s)

/-- LIVE_SETTINGS_BANK_WRITE: live-safe values go to a bank at most once per operating hour (R208).
DEDUCED: log entry 51. -/
def execLiveSettingsBankWrite (t : Tick) (s : State) : Host.Outcome State Fault Refusal :=
  let s := s.arrive t
  let hour := (s.settings.bankedAt.map fun b => decide (ticksPerHour ≤ s.rime.opTicks - b)).getD true
  .next (if s.serving && hour && !s.settings.journalled.isEmpty && s.settings.commit.isNone then commitAsk .live s else s)

end Sys2Proof.Machine
end

