-- ==== Sys2Proof/Machine/Beat.lean ====
section
/-! DEFINITION. The beat and its windows (file 02): the boundary and what takes effect at it, window starts and the work
of Table 2.7, suspension of the still die group, the still tail, and MAINT overrides. -/

namespace Sys2Proof.Machine

/-! ### The still die group (R52, R53, R63) -/

/-- Suspend the programs and erases in progress on the still die group; each at most once, and none on a die without
suspend support (R52). DESIGN CHOICE: log entry 25. -/
def suspendStill (s : State) : State :=
  let ask (x : Die) : Die :=
    if inStillGroup s x.id && (x.op.map DieOp.isProgram).getD false && x.suspendAsked.isNone && !x.wasSuspended
      && Config.suspendSupport x.id.ch x.id.pos && !x.noSuspend
    then { x with suspendAsked := some s.now } else x
  { s with
    firn := { s.firn with suspended := true }
    media := { s.media with dies := s.media.dies.map ask } }

/-- The suspend point of a STILL window has passed, and its START is still to come. DESIGN CHOICE: log entry 25. -/
def stillAhead (s : State) (phase : Nat) : Bool :=
  s.firn.plan.windows.any fun w => w.type == .still && phaseDistance phase w.start != 0
    && phaseDistance phase w.start ≤ firnGuard s

/-- Programs and erases may go on, outside a STILL window, once its tail is over (R51, R63). -/
def resumeStill (phase : Nat) (s : State) : State :=
  if firnPlanned s == some .still || s.firn.tailUntil.isSome || stillAhead s phase then s
  else kickAll { s with firn := { s.firn with suspended := false } }

/-- The phase stands between the suspend point of a window and its START (R51). -/
def atSuspendPoint (s : State) (w : Window) : Bool :=
  let d := phaseDistance (firnPhase s) w.start
  w.type == .still && 0 < d && d ≤ firnGuard s

/-- STILL_SUSPEND_POINT of window `i` (R51). DESIGN CHOICE: log entry 22. -/
def execStillSuspendPoint (t : Tick) (i : Nat) (s : State) : Host.Outcome State Fault Refusal :=
  let s := s.arrive t
  .next (match s.firn.plan.windows[i]? with
    | none => s
    | some w => if s.firn.started && atSuspendPoint s w then suspendStill s else s)

/-- tSUSPEND_max in ticks. DEDUCED: log entry 27. -/
def suspendLimit : Nat := Config.tSuspendMaxNs / 2

/-- DIE_SUSPENDED: the operation is held; a report after tSUSPEND_max is recorded, and after three within 24 operating
hours the die counts as one without suspend support (R52, R165). -/
def execDieSuspended (t : Tick) (d : DieId) (s : State) : Host.Outcome State Fault Refusal :=
  let s := s.arrive t
  let x := s.die d
  .next (match x.suspendAsked, x.op with
    | some a, some o =>
      let late := x.late || s.now > a + suspendLimit
      let reports := x.lateReports.filter fun h => s.rime.opTicks - h < 24 * ticksPerHour
      let reports := if late then reports ++ [s.rime.opTicks] else reports
      let s := s.setDie d fun x => { x with
        op := none, held := some o, pollAt := none, suspendAsked := none, wasSuspended := true, late := false
        lateReports := reports, noSuspend := x.noSuspend || reports.length ≥ 3 }
      let s := if late then
          rimeDev 0x0304 sevWarning false (le 1 d.ch ++ le 1 d.pos ++ zeros 2 ++ le 4 (sat 4 (2 * (s.now - a))))
            { s with media := { s.media with lateSuspends := s.media.lateSuspends + 1 } }
        else s
      dieKick d s
    | _, _ => s)

/-- A report of suspension, or the end of the operation, among the waiting commands. DEDUCED: log entry 27. -/
def suspendEvent (d : DieId) : Instr → Option Tick
  | .dieSuspended t x => if x = d then some t else none
  | .programComplete t x _ => if x = d then some t else none
  | .eraseComplete t x _ => if x = d then some t else none
  | _ => none

/-- SUSPEND_TIMEOUT: tSUSPEND_max passes without a report; the report will be late (R165). -/
def execSuspendTimeout (t : Tick) (d : DieId) (s : State) : Host.Outcome State Fault Refusal :=
  let s := s.arrive t
  .next (match (s.die d).suspendAsked with
    | none => s
    | some a =>
      let lim := a + suspendLimit
      if !s.expired lim || s.awaited (suspendEvent d) lim then s
      else s.setDie d fun x => { x with late := true })

/-- Still-class reads in slots whose doorbell landed from `a` on and before `b` (R63).
DESIGN CHOICE: log entry 25, DESIGN CHOICE: log entry 28. -/
def stillReadsOf (s : State) (a b : Tick) : List Slot :=
  s.slots.filter fun sl => a ≤ sl.bell.tick && sl.bell.tick < b && sl.phase != .posted
    && (match sl.sqe.body with
      | .read .. => ((s.ns? sl.sqe.nsid).map (·.still)).getD false
      | _ => false)

/-- An entry whose doorbell landed in the time is still in its queue, and may be a still-class read: the queue's controller
has a still-class namespace (R63). DESIGN CHOICE: log entry 28. -/
def stillQueued (s : State) (a b : Tick) : Bool :=
  s.ctrls.any fun c => (s.nss.any fun n => n.still && n.attached.contains c.fn)
    && c.sqs.any fun q => q.bells.any fun x => a ≤ x.tick && x.tick < b

/-- A still-class read whose doorbell landed from `a` on and before `b` is outstanding (R63). -/
def stillOutstanding (s : State) (a b : Tick) : Bool := !(stillReadsOf s a b).isEmpty || stillQueued s a b

/-- A STILL window of at least 200 us has ended: its tail opens while a read of it is outstanding (R63).
DESIGN CHOICE: log entry 25, DESIGN CHOICE: log entry 28. -/
def openTail (since : Tick) (s : State) : State :=
  if !stillOutstanding s since s.now then s
  else { s with firn := { s.firn with tailUntil := some (s.now + 90 * ticksPerUs), tailSince := since } }

/-- STILL_TAIL_END: the last read has completed, or 90 us have passed (R63, R65). -/
def execStillTailEnd (t : Tick) (s : State) : Host.Outcome State Fault Refusal :=
  let s := s.arrive t
  .next (match s.firn.tailUntil with
    | none => s
    | some d =>
      if !s.expired d && stillOutstanding s s.firn.tailSince (d - 90 * ticksPerUs) then s
      else psTryPending (resumeStill (firnPhase s) { s with firn := { s.firn with tailUntil := none } }))

/-! ### The work of windows (Table 2.7) -/

/-- The media can be worked on. -/
def upkeepAwake (s : State) : Bool := s.serving && s.power.ps < 3 && s.power.entering.isNone && s.power.exiting.isNone

/-- The scheduled Rime flush point (Table 14.3). DEDUCED: log entry 79. -/
def rimeFlushPoint (s : State) : State :=
  let n := (s.rime.ring.filter (!·.2)).length
  if n ≥ 1 && (s.expired (s.rime.flushedAt + 10 * ticksPerS) || n ≥ 1024) then rimeFlushStart s else s

/-- The task that an override serves starts (R56, R192, R463); a re-equalisation starts by its own event (R557).
DEDUCED: log entry 26. -/
def overrideWork (task : Nat) (s : State) : State :=
  let s := match task with
    | 1 => retrainStart ((s.firn.ovrDue.find? (·.1 == 1)).map (·.2)) s
    | 2 => if s.holdup.due && s.holdup.testStep = 0 then holdupTestStart s else s
    | _ => s
  startOverrideTests s

/-- What a MAINT window of a nominal length does at its START (R132, R160, R192, R463, R466, R482, R527, R555).
DEDUCED: log entry 26. -/
def maintWork (ns : Nat) (s : State) : State :=
  let s := settleRecals (startRecals (startSamples (checkpoint (rimeFlushPoint s))))
  let s := retrainAges s
  let s := if ns ≥ 3000000 then retrainStart none s else s
  let s := repairStart s
  let s := if ns ≥ 50000 then startTests s else s
  if ns ≥ 3000000 && s.holdup.due && s.holdup.testStep = 0 then holdupTestStart s else s

/-- What a WORK window does at its START (R49, R51, R190). -/
def workWork (s : State) : State :=
  let s := forcedPageWrites s
  if s.fw.pauseSince.isSome then s else settle (releaseQuanta (releaseAll s))

/-- An announced override begins at the START of a MAINT window, from its beat on (R56).
DESIGN CHOICE: log entry 25. -/
def overrideBegin (s : State) : State :=
  match s.firn.ovrPend with
  | some (beat, task) =>
    if beat ≤ s.firn.beat.toNat && firnPlanned s == some .maint then
      overrideWork task { s with firn := { s.firn with
        ovr := some (task, s.now + 4 * ticksPerMs), ovrPend := none, ovrLast := some s.now, ovrBeat := beat } }
    else s
  | none => s

/-- The current window is a STILL window that may have a tail (R63). -/
def hasTail (s : State) : Bool := firnPlanned s == some .still && s.firn.plan.windowNs s.firn.window ≥ 200000

/-- Window `i` begins; `tail` says that the window it ends may have a tail (R44, R48, R51).
DESIGN CHOICE: log entry 22. -/
def windowBegins (tail : Bool) (i : Nat) (s : State) : State :=
  let since := s.firn.windowAt
  let start := ((s.firn.plan.windows[i]?).map (·.start)).getD 0
  let s := { s with
    firn := { s.firn with window := i, windowAt := s.now }
    media := { s.media with quantaReleased := false } }
  let s := if tail then openTail since s else s
  let s := if upkeepAwake s then overrideBegin s else s
  let s := match firnPlanned s with
    | some .still => if s.firn.suspended then s else suspendStill s
    | _ => resumeStill start s
  let s := psTryPending s
  if !upkeepAwake s then s
  else match firnActs s, firnPlanned s with
  | some .work, _ => workWork s
  | some .maint, some .maint => maintWork (s.firn.plan.windowNs i) s
  | _, _ => s

/-- Window `i` follows the current one, and its START has come (R41, R44). DESIGN CHOICE: log entry 22. -/
def windowDue (s : State) (i : Nat) : Bool :=
  s.firn.started && i == s.firn.window + 1
    && (s.firn.plan.windows[i]?).any fun w => phaseReached s w.start

/-- WINDOW_START: the next window of the table begins (R48). DESIGN CHOICE: log entry 22. -/
def execWindowStart (t : Tick) (i : Nat) (s : State) : Host.Outcome State Fault Refusal :=
  let s := s.arrive t
  .next (if windowDue s i then windowBegins (hasTail s) i s else s)

/-! ### The boundary (R40, R47) -/

/-- Arbitration weights accepted before the boundary's tick are in force from it on (R91, R451). -/
def arbTake (s : State) : State :=
  let take (c : Ctrl) : Ctrl := match c.arbStaged with
    | some (a, t) => if t < s.now then { c with arb := a, arbStaged := none } else c
    | none => c
  { s with ctrls := s.ctrls.map take }

/-- What takes effect at the boundary, in the order of R47, R484 and R545. DEDUCED: log entry 26. -/
def boundaryTakes (s : State) : State :=
  if !s.serving then s
  else handoverTake (runTests (calvingTake (pagePolicyTake (arbTake (commitTake (applyLive s))))))

/-- The beat count rises: one wrap of the phase has its boundary (R40, R582). DESIGN CHOICE: log entry 22. -/
def beatWraps (s : State) : State :=
  let s := firnRebase s
  { s with firn := { s.firn with
    beat := s.firn.beat + 1, stillExcluded := []
    owed := s.firn.owed - 1, telemDone := false, powerDone := false
    holdLeft := s.firn.holdLeft - 1 } }

/-- The phase has wrapped and the boundary is still to come (R40). DESIGN CHOICE: log entry 22. -/
def boundaryDue (s : State) : Bool := s.firn.started && 0 < firnOwed s

/-- The telemetry snapshot, once per beat (R51). -/
def beatTelemetry (s : State) : State :=
  takeSnapshot { s with firn := { s.firn with telemDone := true } }

/-- The power-state decision, once per beat (R51). -/
def beatPower (s : State) : State := psDecide { s with firn := { s.firn with powerDone := true } }

/-- The snapshot's phase step has come, and none was taken in this beat (R41, R51). DESIGN CHOICE: log entry 22. -/
def telemetryDue (s : State) : Bool := s.firn.started && !s.firn.telemDone && phaseReached s s.firn.plan.telemPhase

/-- The decision's phase step has come, and none was made in this beat (R41, R51). DESIGN CHOICE: log entry 22. -/
def powerDue (s : State) : Bool := s.firn.started && !s.firn.powerDone && phaseReached s s.firn.plan.powerPhase

/-- TELEMETRY_SNAPSHOT (R51, R54). DESIGN CHOICE: log entry 22. -/
def execTelemetrySnapshot (t : Tick) (s : State) : Host.Outcome State Fault Refusal :=
  let s := s.arrive t
  .next (if telemetryDue s then beatTelemetry s else s)

/-- POWER_STATE_DECISION (R51, R54). DESIGN CHOICE: log entry 22. -/
def execPowerStateDecision (t : Tick) (s : State) : Host.Outcome State Fault Refusal :=
  let s := s.arrive t
  .next (if powerDue s then beatPower s else s)

/-- BEAT_BOUNDARY: the steps of R47. DESIGN CHOICE: log entry 22. -/
def execBeatBoundary (t : Tick) (s : State) : Host.Outcome State Fault Refusal :=
  let s := s.arrive t
  .next (if !boundaryDue s then s
    else
      let tail := hasTail s
      let s := boundaryTakes (beatWraps s)
      -- R53: where a suspend point lay in the beat before, the device suspends at the boundary
      let s := windowBegins tail 0 (if s.firn.stillExcluded.isEmpty then s else suspendStill s)
      let s := if s.firn.plan.telemPhase = 0 then beatTelemetry s else s
      if s.firn.plan.powerPhase = 0 then beatPower s else s)

/-! ### MAINT overrides (R56, R57) -/

/-- A task that cannot be split needs more time than the plan leaves it: 3 ms in a MAINT window for a retraining and the
hold-up self-test, and the gap of R557 for a re-equalisation (R56, R192, R463). -/
def needsOverride (s : State) (task : Nat) : Bool :=
  if task = 4 then !reeqGap s.firn.plan else s.firn.plan.longestMaintNs < 3000000

/-- A task may have the next override: of the unsplittable tasks that need one, the one that fell due first, or quanta
alone when none does (R56). DEDUCED: log entry 26. -/
def overrideTask (s : State) (task : Nat) : Bool :=
  match s.firn.ovrDue.filter fun x => needsOverride s x.1 with
  | x :: _ => task == x.1
  | [] => task == 3 && testsInOverride s && s.engines.any fun e => testWanted s e

/-- MAINT_OVERRIDE_ANNOUNCE: at least 64 beats ahead, and at most one override per OVR_INTERVAL (R56, R57).
DEDUCED: log entry 26. -/
def execMaintOverrideAnnounce (t : Tick) (task beat : Nat) (s : State) : Host.Outcome State Fault Refusal :=
  let s := s.arrive t
  let ahead := beat - s.firn.beat.toNat
  let begins := s.now + ahead * s.firn.period / 1024
  let spaced := (s.firn.ovrLast.map fun l => decide (l + s.firn.plan.ovrInterval * ticksPerS ≤ begins)).getD true
  .next (if !s.serving || !s.firn.started || s.firn.ovrPend.isSome || s.firn.ovr.isSome || ahead < 64 || !spaced
      || !overrideTask s task then s
    else rimeDev 0x0104 sevInfo true (le 1 0 ++ le 1 task ++ zeros 2 ++ le 8 beat)
      { s with firn := { s.firn with ovrPend := some (beat, task) } })

/-- MAINT_OVERRIDE_END: windows act as planned again; a STILL window that the override overlapped carries no bound
(R57, R58). -/
def execMaintOverrideEnd (t : Tick) (s : State) : Host.Outcome State Fault Refusal :=
  let s := s.arrive t
  .next (match s.firn.ovr with
    | none => s
    | some (task, _) =>
      let s := { s with firn := { s.firn with
        ovr := none, stillExcluded := s.firn.window :: s.firn.stillExcluded } }
      rimeDev 0x0104 sevInfo true (le 1 1 ++ le 1 task ++ zeros 2 ++ le 8 s.firn.ovrBeat) s)

/-! ### Pins that follow the plan and the state (R562 to R564, R567) -/

/-- CYC_OUT: the beat pulse, or the STILL windows as they act. DEDUCED: log entry 46. -/
def cycOut (s : State) : Bool :=
  s.pins.drivenEarly && s.firn.started && (match s.firn.plan.cycout with
    | 1 => decide (firnPhase s < s.firn.plan.cycoutWidth)
    | 2 => firnActs s == some .still
    | _ => false)

/-- LED0 to LED3, lit or dark. DEDUCED: log entry 46. -/
def leds (s : State) : List Bool :=
  [s.pins.ready, s.pins.led1Until.isSome, s.pins.fault || s.media.dev == .preserve, s.firn.lock == .locked]

end Sys2Proof.Machine
end

