-- ==== Sys2Proof/Machine/Flags.lean ====
section
/-! DEFINITION. Colmus flags and conditions (file 07, R289, R290). -/

namespace Sys2Proof.Machine

/-- FLAGS as a value: N, Z, C, V in bits 0 to 3 (Table 7.2). -/
def flagsOf (n z c v : Bool) : BitVec 72 :=
  BitVec.ofNat 72 ((if n then 1 else 0) + (if z then 2 else 0) + (if c then 4 else 0) + (if v then 8 else 0))

/-- Flags of CMP, CMPI and CMPA from the two operands (R289). -/
def cmpFlags (x y : Word) : BitVec 72 :=
  let d := x - y
  flagsOf d.msb (d == 0) (y.toNat ≤ x.toNat) ((x.msb != y.msb) && (d.msb != x.msb))

/-- Flags of TST and TSTI from the result (R289). -/
def tstFlags (r : Word) : BitVec 72 := flagsOf r.msb (r == 0) false false

/-- Outcome of a float comparison. -/
inductive FOrder where
  | eq | lt | gt | un
  deriving DecidableEq, Repr

/-- Flags of FCMP and FCMPZ (R289). -/
def fcmpFlags : FOrder → BitVec 72
  | .eq => flagsOf false true true false
  | .lt => flagsOf true false false false
  | .gt => flagsOf false false true false
  | .un => flagsOf false false false true

/-- A condition of Table 7.11 holds for the flags of an engine. -/
def condHolds (e : Engine) (cond : Nat) : Bool :=
  match cond with
  | 0x0 => true
  | 0x1 => e.z
  | 0x2 => !e.z
  | 0x3 => e.c
  | 0x4 => !e.c
  | 0x5 => e.n
  | 0x6 => !e.n
  | 0x7 => e.v
  | 0x8 => !e.v
  | 0x9 => e.c && !e.z
  | 0xA => !e.c || e.z
  | 0xB => e.n == e.v
  | 0xC => e.n != e.v
  | 0xD => !e.z && e.n == e.v
  | 0xE => e.z || e.n != e.v
  | _ => false

end Sys2Proof.Machine
end

