-- ==== Sys2Proof/Machine/Operands.lean ====
section
/-! DEFINITION. Colmus registers, writes in flight, the instruction words and the address modes (file 07). -/

namespace Sys2Proof.Machine

/-! ### Registers -/

def rdD (e : Engine) (i : Nat) : Word := e.d.getD i 0
def rdA (e : Engine) (i : Nat) : Word := e.a.getD i 0
def rdAcc (e : Engine) (i : Nat) : BitVec 72 := e.acc.getD i 0

/-- A write lands in its register; an accumulation adds to the value that stands there (R282).
DEDUCED: log entry 66. -/
def landOne (e : Engine) (f : Flight) : Engine :=
  let w : Word := f.value.setWidth 32
  match f.reg with
  | .d i => { e with d := e.d.setIfInBounds i w }
  | .a i => { e with a := e.a.setIfInBounds i w }
  | .acc i => { e with acc := e.acc.setIfInBounds i (if f.add then rdAcc e i + f.value else f.value) }
  | .ph => { e with ph := w }
  | .pl => { e with pl := w }
  | .flags => { e with n := f.value.getLsbD 0, z := f.value.getLsbD 1, c := f.value.getLsbD 2, v := f.value.getLsbD 3 }

/-- Every write that lands in cycle `c` or earlier has landed. Flights stand in the order in which they land;
of those of one cycle the later issued stands last (R283). DEDUCED: log entry 66. -/
def landTo (c : Nat) (e : Engine) : Engine :=
  (e.flight.takeWhile (·.lands ≤ c)).foldl landOne { e with flight := e.flight.dropWhile (·.lands ≤ c) }

/-- Put a write among the flights, behind those that land no later. DEDUCED: log entry 66. -/
def addFlight (f : Flight) : List Flight → List Flight
  | [] => [f]
  | g :: gs => if g.lands ≤ f.lands then g :: addFlight f gs else f :: g :: gs

/-- The cycle in which an instruction issues. In product mode it waits for the writes of its sources and
destinations, other than PH and PL; an accumulation does not wait for accumulations. A barrier waits for every
write in both modes (R270, R281, R282, R283, R285). DESIGN CHOICE: log entry 29, DEDUCED: log entry 66. -/
def issueCycle (e : Engine) (regs : List Reg) (accum : Option Nat) (barrier : Bool) : Nat :=
  e.flight.foldl (fun c f =>
    let waits :=
      if barrier then true
      else if e.openMode then false
      else regs.contains f.reg && f.reg != .ph && f.reg != .pl || (accum.map Reg.acc == some f.reg && !f.add)
    if waits then max c f.lands else c) e.cycle

/-! ### Instruction words (Tables 7.8 to 7.10) -/

def encR (major func : Nat) (f : RFmt) : Word :=
  BitVec.ofNat 32 (major * 2 ^ 26 + f.d.toNat * 2 ^ 22 + f.s.toNat * 2 ^ 18 + f.t.toNat * 2 ^ 14 + func * 2 ^ 8 + f.rsv.toNat)

def encI (major : Nat) (f : IFmt) : Word :=
  BitVec.ofNat 32 (major * 2 ^ 26 + f.d.toNat * 2 ^ 22 + f.s.toNat * 2 ^ 18 + f.imm.toNat)

def encW (major : Nat) (f : WFmt) : Word := BitVec.ofNat 32 (major * 2 ^ 26 + f.d.toNat * 2 ^ 22 + f.imm.toNat)

def encM (major : Nat) (f : MFmt) : Word :=
  BitVec.ofNat 32 (major * 2 ^ 26 + f.r.toNat * 2 ^ 22 + f.a.toNat * 2 ^ 18 + f.mode.toNat * 2 ^ 15 + f.size.toNat * 2 ^ 13
    + f.sx.toNat * 2 ^ 12 + f.imm.toNat)

def encD (f : DFmt) : Word :=
  BitVec.ofNat 32 (0x1A * 2 ^ 26 + f.acc.toNat * 2 ^ 24 + f.sub.toNat * 2 ^ 23 + f.uns.toNat * 2 ^ 22 + f.size.toNat * 2 ^ 20
    + f.ax.toNat * 2 ^ 18 + f.ay.toNat * 2 ^ 16 + f.mx.toNat * 2 ^ 14 + f.my.toNat * 2 ^ 12 + f.rsv.toNat)

def encB (f : BFmt) : Word := BitVec.ofNat 32 (0x28 * 2 ^ 26 + f.cond.toNat * 2 ^ 22 + f.imm.toNat)

def encC (f : CFmt) : Word :=
  BitVec.ofNat 32 (0x2A * 2 ^ 26 + f.mask.toNat * 2 ^ 10 + f.target.toNat * 2 ^ 6 + f.rsv.toNat)

def encRet (rsv : BitVec 26) : Word := BitVec.ofNat 32 (0x2B * 2 ^ 26 + rsv.toNat)

def encL (f : LFmt) : Word :=
  BitVec.ofNat 32 (0x2C * 2 ^ 26 + f.count.toNat * 2 ^ 22 + f.len.toNat * 2 ^ 8 + f.rsv.toNat)

/-- Functions listed for an R-format major (Table 7.10), none for a major of another format. DEDUCED: log entry 70. -/
def rFuncs : Nat → Option Nat
  | 0x01 => some 0x16
  | 0x09 => some 2
  | 0x0C => some 6
  | 0x18 => some 2
  | 0x19 => some 4
  | 0x1B => some 6
  | 0x1C => some 2
  | 0x20 => some 9
  | 0x21 => some 2
  | 0x22 => some 5
  | 0x29 => some 1
  | 0x30 => some 4
  | _ => none

/-- The majors of Table 7.9 in the other formats. DEDUCED: log entry 70. -/
def otherMajors : List Nat :=
  [0x02, 0x03, 0x04, 0x05, 0x06, 0x07, 0x08, 0x0A, 0x0B, 0x0D, 0x0E, 0x0F, 0x10, 0x11, 0x12, 0x13, 0x1A, 0x1D, 0x28,
   0x2A, 0x2B, 0x2C]

/-- The word is an undefined instruction: a "—" major or an unlisted function (R287, R288). DEDUCED: log entry 70. -/
def undefinedWord (w : Word) : Bool :=
  let major := w.toNat / 2 ^ 26
  match rFuncs major with
  | some n => w.toNat / 2 ^ 8 % 64 ≥ n
  | none => !otherMajors.contains major

/-! ### Shifts (Table 7.10) -/

/-- Kind 0 SHL, 1 SHR, 2 SAR, 3 ROR, by an amount. -/
def shiftBy (kind amount : Nat) (x : Word) : Word :=
  match kind with
  | 0 => if amount ≥ 32 then 0 else x <<< amount
  | 1 => if amount ≥ 32 then 0 else x >>> amount
  | 2 => x.sshiftRight (min amount 31)
  | _ => x.rotateRight (amount % 32)

/-! ### Format M (R291) -/

/-- Bytes of a size code. -/
def sizeBytes (size : BitVec 2) : Nat := 2 ^ size.toNat

/-- A reserved value or field in an M-format word. -/
def mReserved (f : MFmt) (load areg : Bool) : Bool :=
  f.mode.toNat ≥ 5 || f.size == 3 || (areg && f.size != 2)
    || (f.sx == 1 && (!load || f.size == 2))
    || ((f.mode == 3 || f.mode == 4) && f.imm.toNat / 16 != 0)

/-- The address used (Table 7.12). -/
def mAddr (e : Engine) (f : MFmt) : Word :=
  let base := rdA e f.a.toNat
  match f.mode.toNat with
  | 0 | 2 => base + f.imm.signExtend 32
  | 4 => base + rdA e (f.imm.toNat % 16)
  | _ => base

/-- The base register afterwards, none when it is unchanged (Table 7.12). -/
def mUpdate (e : Engine) (f : MFmt) : Option Word :=
  let base := rdA e f.a.toNat
  match f.mode.toNat with
  | 1 | 2 => some (base + f.imm.signExtend 32)
  | 3 => some (base + rdA e (f.imm.toNat % 16))
  | _ => none

/-- A registers that the address reads. -/
def mSources (f : MFmt) : List Reg :=
  Reg.a f.a.toNat :: (if f.mode == 3 || f.mode == 4 then [Reg.a (f.imm.toNat % 16)] else [])

/-- The address register that is updated. -/
def mBaseDst (f : MFmt) : List Reg := if f.mode == 1 || f.mode == 2 || f.mode == 3 then [Reg.a f.a.toNat] else []

end Sys2Proof.Machine
end

