-- ==== Sys2Proof/Machine/Colmus.lean ====
section
/-! DEFINITION. How a Colmus engine issues (file 07): the word at PC, restrictions, stalls, landing, loops,
delay slots and traps. Every meaning of an instruction is a call of `issue`. -/

namespace Sys2Proof.Machine

/-- A write that an instruction makes: register, latency, value, and whether it accumulates. -/
structure Wr where
  reg : Reg
  lat : Nat
  value : BitVec 72
  add : Bool := false
  deriving DecidableEq, Repr

/-- What an issued instruction does beside memory: its writes, the cycles it takes, and where control goes.
`delayed` says that the target follows two delay slots. -/
structure Fx where
  writes : List Wr := []
  cost : Nat := 1
  target : Option Nat := none
  branch : Bool := false
  delayed : Bool := false
  open_ : Option Loop := none
  deriving DecidableEq, Repr

/-- The outcome of an instruction: a trap with its data address, a wait, or its effect. -/
inductive Act where
  | trap (cause addr : Nat)
  | wait
  | done (e : Engine) (fx : Fx) (s : State)
  deriving DecidableEq, Repr

/-- Trap causes (Table 7.14). -/
abbrev trIllegal : Nat := 0x01
abbrev trReserved : Nat := 0x02
abbrev trMisaligned : Nat := 0x03
abbrev trAccess : Nat := 0x04
abbrev trPoison : Nat := 0x05
abbrev trStack : Nat := 0x07
abbrev trBreak : Nat := 0x09

/-- The instruction word at an address of instruction memory. -/
def fetchWord (e : Engine) (pc : Nat) : Word := BitVec.ofNat 32 (unle (Memory.readN e.imem pc 4))

/-- PC stands at the last instruction of the innermost loop's body. DEDUCED: log entry 67. -/
def atBodyLast (e : Engine) (pc : Nat) : Bool := match e.loops with
  | l :: _ => l.last == pc
  | [] => false

/-- After the instruction at `pc` issues: count the loops that end there, innermost first (R298, R299).
DEDUCED: log entry 67. -/
def countLoops (pc : Nat) : List Loop → List Loop × Option Nat
  | [] => ([], none)
  | l :: ls =>
    if l.last ≠ pc then (l :: ls, none)
    else if l.left > 1 then ({ l with left := l.left - 1 } :: ls, some l.first)
    else countLoops pc ls

/-- Loops whose body holds a branch target (R300). DEDUCED: log entry 67. -/
def loopsAround (target : Nat) (ls : List Loop) : List Loop := ls.filter fun l => l.first ≤ target && target ≤ l.last

/-- The engine after its instruction has issued in its present cycle with the effect `fx`: control, loops, writes
put in flight, and everything landed that the next issue sees. DEDUCED: log entry 66. -/
def advance (fx : Fx) (e : Engine) : Engine :=
  let pc := e.pc
  let (loops, back) := countLoops pc e.loops
  let next := back.getD (pc + 4)
  let flight := fx.writes.foldl (fun fl w =>
    addFlight { lands := e.cycle + w.lat, reg := w.reg, value := w.value, add := w.add } fl) e.flight
  let e := { e with flight := flight, loops := loops }
  let e : Engine :=
    if fx.delayed then { e with pc := next, delay := some (fx.target, 2) }
    else match fx.target with
      | some t => { e with pc := t, loops := if fx.branch then loopsAround t e.loops else e.loops }
      | none =>
        let e := match fx.open_ with
          | some l => { e with loops := l :: e.loops }
          | none => e
        match e.delay with
        | some (t, k) =>
          if k ≤ 1 then match t with
            | some t => { e with pc := t, delay := none, loops := loopsAround t e.loops }
            | none => { e with pc := next, delay := none }
          else { e with pc := next, delay := some (t, k - 1) }
        | none => { e with pc := next }
  landTo (e.cycle + fx.cost) { e with cycle := e.cycle + fx.cost }

/-- The engine runs its program. -/
def engineRuns (s : State) (e : Engine) : Bool :=
  s.serving && !e.fenced && !e.halted && e.trap.isNone && e.job.isSome

/-- The engine traps: cause, PC and data address go to the dispatcher (R305, R306). -/
def trapEngine (e : Engine) (cause addr : Nat) (s : State) : State :=
  match e.job with
  | none => s
  | some (asn, node, rep) =>
    let s := s.setEngine e.ix fun x => { x with trap := some (cause, e.pc, addr) }
    settle (engineTrap asn node rep cause e.pc addr s)

/-- Errors of an engine's banks within 24 operating hours, the present one included; the third is an engine fault
and never a trap (R481). DEDUCED: log entry 68. -/
def bankError (e : Engine) (addr : Nat) (s : State) : State :=
  let recent := (s.rime.opTicks :: e.bankErrors).filter fun t => s.rime.opTicks - t < 24 * ticksPerHour
  let s := s.setEngine e.ix fun x => { x with bankErrors := recent }
  if recent.length ≥ 3 then settle (engineFault e.ix 3 s) else trapEngine e trPoison addr s

/-- Issue the instruction word `w` on physical engine `p` if it stands at PC. `ctl` marks the instructions that
R284 and R299 forbid in a delay slot and at the end of a loop body; `rsv` says that a reserved bit or value
stands in the word; `regs` are the registers it reads or writes in product mode's stall rule, `accum` the accumulator
it only adds to. DESIGN CHOICE: log entry 7, DEDUCED: log entry 66. -/
def issue (p : Nat) (w : Word) (ctl rsv : Bool) (regs : List Reg) (accum : Option Nat) (barrier : Bool)
    (body : Engine → State → Act) (s : State) : State :=
  match s.engine? p with
  | none => s
  | some e =>
    if !engineRuns s e || fetchWord e e.pc ≠ w then s
    else if ctl && (e.delay.isSome || atBodyLast e e.pc) then trapEngine e trIllegal 0 s
    else if rsv then trapEngine e trReserved 0 s
    else
      let c := issueCycle e regs accum barrier
      let e := landTo c { e with cycle := c }
      match body e s with
      | .trap cause addr => if cause = trPoison ∧ addr < 0x40000 then bankError e addr s else trapEngine e cause addr s
      | .wait => s
      | .done e fx s' => match s'.engine? p with
        | none => s'
        | some x => if x.job = e.job then s'.setEngine p fun _ => advance fx e else s'

/-- An instruction that only writes registers. -/
def plain (writes : Engine → List Wr) : Engine → State → Act := fun e s => .done e { writes := writes e } s

/-- A write of a 32-bit value. -/
def wr (r : Reg) (lat : Nat) (v : Word) : Wr := { reg := r, lat := lat, value := v.setWidth 72 }

/-- An R-format instruction with destination D, sources D[s] and D[t]. -/
def rDDD (p major func lat : Nat) (f : RFmt) (op : Word → Word → Word) (s : State) : State :=
  issue p (encR major func f) false (f.rsv != 0) [.d f.d.toNat, .d f.s.toNat, .d f.t.toNat] none false
    (plain fun e => [wr (.d f.d.toNat) lat (op (rdD e f.s.toNat) (rdD e f.t.toNat))]) s

/-- An R-format instruction with destination D and source D[s]; t is reserved. -/
def rDD (p major func lat : Nat) (f : RFmt) (op : Word → Word) (s : State) : State :=
  issue p (encR major func f) false (f.rsv != 0 || f.t != 0) [.d f.d.toNat, .d f.s.toNat] none false
    (plain fun e => [wr (.d f.d.toNat) lat (op (rdD e f.s.toNat))]) s

/-- An I-format instruction with destination and source D. -/
def iDD (p major : Nat) (f : IFmt) (rsv : Bool) (op : Word → Word) (s : State) : State :=
  issue p (encI major f) false rsv [.d f.d.toNat, .d f.s.toNat] none false
    (plain fun e => [wr (.d f.d.toNat) 1 (op (rdD e f.s.toNat))]) s

/-- UNDEFINED_INSTRUCTION: an undefined word that issues traps ILLEGAL_OP (R287, R288). DEDUCED: log entry 70. -/
def execUndefinedInstruction (e : Nat) (w : Word) (s : State) : Host.Outcome State Fault Refusal :=
  .next (match s.engine? e with
    | none => s
    | some x =>
      if !engineRuns s x || fetchWord x x.pc ≠ w || !undefinedWord w then s else trapEngine x trIllegal 0 s)

end Sys2Proof.Machine
end

