-- ==== Sys2Proof/Machine/ColmusMem.lean ====
section
/-! DEFINITION. Colmus loads, stores and edge ports (file 07, R265 to R278, R291). -/

namespace Sys2Proof.Machine

/-! ### Regions (Table 7.3) -/

/-- Where a data address falls: a bank, the cluster window with its offset, port space with its offset. -/
inductive Region where
  | bank
  | window (off : Nat)
  | port (off : Nat)
  | none
  deriving DecidableEq, Repr

def regionOf (addr : Nat) : Region :=
  if addr < 0x40000 then .bank
  else if 0x01000000 ≤ addr ∧ addr < 0x01400000 then .window (addr - 0x01000000)
  else if 0x0F000000 ≤ addr ∧ addr < 0x0F001000 then .port (addr - 0x0F000000)
  else .none

/-- Bytes of the X and Y banks at a data address (R265, R266). -/
def bankRead (e : Engine) (addr n : Nat) : List Byte :=
  (List.range n).map fun i =>
    let a := addr + i
    if a < 0x20000 then Memory.read a e.x else Memory.read (a - 0x20000) e.y

/-- Store bytes in the banks; a stored byte loses its error (R268). -/
def bankWrite (e : Engine) (addr : Nat) (bs : List Byte) : Engine :=
  let e := { e with bad := e.bad.filter fun a => !(addr ≤ a && a < addr + bs.length) }
  if addr < 0x20000 then { e with x := Memory.writeN e.x addr bs } else { e with y := Memory.writeN e.y (addr - 0x20000) bs }

/-- A byte of the access is uncorrectable or carries poison (R269). -/
def bankBad (e : Engine) (addr n : Nat) : Bool := e.bad.any fun a => addr ≤ a && a < addr + n

/-- The tenant's partition of a cluster. -/
def sramOf (s : State) (tenant cluster : Nat) : List Host.Cell :=
  ((s.compute.sram.find? fun x => x.1 == tenant && x.2.1 == cluster).map (·.2.2)).getD []

def putSram (tenant cluster : Nat) (m : List Host.Cell) (s : State) : State :=
  { s with compute := { s.compute with
    sram := (tenant, cluster, m) :: s.compute.sram.filter fun x => !(x.1 == tenant && x.2.1 == cluster) } }

/-- The tenant, node and replica that an engine serves. -/
def engineRun (s : State) (e : Engine) : Option (GRun × Nat × Nat) :=
  e.job.bind fun j => (s.run? j.1).map fun r => (r, j.2.1, j.2.2)

/-- An offset of the cluster window may be accessed (R267). -/
def windowOk (s : State) (e : Engine) (tenant off n : Nat) : Bool :=
  off + n ≤ partLen s tenant e.cluster
    && !(buffersIn s.compute.runs tenant e.cluster).any fun b => b.1 < off + n && off < b.1 + b.2

/-- Cycles of a cluster window access: 6 to 13 (R271). UNVERIFIED: log entry 18. -/
def windowCost (e : Engine) : Nat := 6 + Config.windowWait e.ix e.cycle % 8

/-! ### Input streams (R276, R277) -/

/-- The chunks that a replica can read without a further arrival, in stream order. -/
def mergedQueue (lanes : List (List Chunk × Bool)) : Nat → Nat → List Chunk
  | 0, _ => []
  | fuel + 1, k =>
    let m := lanes.length
    match lanes[k]? with
    | none => []
    | some (c :: cs, en) => c :: mergedQueue (lanes.set k (cs, en)) fuel ((k + 1) % m)
    | some ([], en) => if en && lanes.any (fun l => !l.1.isEmpty) then mergedQueue lanes fuel ((k + 1) % m) else []

def inQueue (r : GRun) (edge rep : Nat) : List Chunk :=
  let t := r.turn edge
  if merged r.image edge then
    let ls := (List.range (gReps r.image edge).1).map fun k => ((r.lane edge k).chunks, (r.lane edge k).ended)
    mergedQueue ls (sumBy (fun l => l.1.length) ls + ls.length * (1 + sumBy (fun l => l.1.length) ls)) t.2
  else (r.lane edge (inLane r.image edge rep t)).chunks

/-- Bytes of the head chunk already taken. -/
def headTaken (r : GRun) (edge rep : Nat) : Nat := (r.lane edge (inLane r.image edge rep (r.turn edge))).taken

/-- Bytes available now. -/
def available (r : GRun) (edge rep : Nat) : List Byte :=
  ((inQueue r edge rep).flatMap (·.bytes)).drop (headTaken r edge rep)

/-- Every chunk up to the end mark has arrived. -/
def allArrived (r : GRun) (edge rep : Nat) : Bool :=
  if merged r.image edge then (List.range (gReps r.image edge).1).all fun k => (r.lane edge k).ended
  else (r.lane edge (inLane r.image edge rep (r.turn edge))).ended

/-- A poisoned word stands among the next `n` bytes. -/
def nextPoisoned (r : GRun) (edge rep n : Nat) : Bool :=
  let go := (inQueue r edge rep).foldl (fun (acc : Nat × Bool) c =>
    let from_ := headTaken r edge rep
    let lo := acc.1
    let hit := c.poison.any fun w => lo + w + 8 > from_ && lo + w < from_ + n
    (lo + c.bytes.length, acc.2 || hit)) (0, false)
  go.2

/-- Take `n` bytes that are available; chunks popped to their end return their credit. DEDUCED: log entry 68. -/
def popN (asn edge rep : Nat) : Nat → Nat → State → State
  | 0, _, s => s
  | fuel + 1, n, s =>
    if n = 0 then s
    else match s.run? asn with
      | none => s
      | some r => match headChunk r edge rep with
        | none => s
        | some c =>
          let left := c.bytes.length - headTaken r edge rep
          if n < left then
            updLane asn edge (inLane r.image edge rep (r.turn edge)) (fun l => { l with taken := l.taken + n }) s
          else popN asn edge rep fuel (n - left) (pumpMerges asn edge (consume asn edge rep s))
where
  /-- Pass the turn of a merged edge over ended lanes, so that the next head is in place. -/
  pumpMerges (asn edge : Nat) (s : State) : State :=
    (List.range 64).foldl (fun s _ => (pumpMerge s asn edge).getD s) s

/-- IN_STAT: AVAIL and END (Table 7.6); none while the read waits. -/
def inStat (r : GRun) (edge rep : Nat) : Option Nat :=
  match headChunk r edge rep with
  | some c => some (c.bytes.length - headTaken r edge rep)
  | none => if atEnd r edge rep then some (2 ^ 31) else none

/-! ### Output streams (R278) -/

/-- Bytes in the current output chunk. -/
def currentLen (r : GRun) (edge rep : Nat) : Nat := (r.lane edge (backLane r.image edge rep)).backlog.length

/-- The end mark has been sent, or stands behind the current chunk. -/
def outEnded (r : GRun) (edge rep : Nat) : Bool :=
  let l := r.lane edge (backLane r.image edge rep)
  l.ended || l.backlogEnd

/-- The lane whose credit the chunk after the current one needs. -/
def secondCredit (r : GRun) (edge rep : Nat) : Bool :=
  let (m, n) := gReps r.image edge
  let t := r.turn edge
  if m = 1 && n > 1 then (r.lane edge ((t.1 + 1) % n)).credits > 0
  else (r.lane edge (outLane r.image edge rep t)).credits > 1

/-- OUT_STAT: ROOM and ENDED (Table 7.6). -/
def outStat (r : GRun) (edge rep : Nat) : Nat :=
  if outEnded r edge rep then 2 ^ 31
  else if hasCredit r edge rep then 2 ^ (gEdge r.image edge).clog - currentLen r edge rep else 0

/-- A push of `n` bytes has its credits. -/
def pushReady (r : GRun) (edge rep n : Nat) : Bool :=
  hasCredit r edge rep && (currentLen r edge rep + n ≤ 2 ^ (gEdge r.image edge).clog || secondCredit r edge rep)

/-- FLUSH: send a current chunk that holds at least 1 byte. -/
def flushOut (asn edge rep : Nat) (s : State) : State :=
  match s.run? asn with
  | none => s
  | some r =>
    let e := gEdge r.image edge
    let b := backLane r.image edge rep
    let bs := (r.lane edge b).backlog
    let t := r.turn edge
    let (m, n) := gReps r.image edge
    if bs.isEmpty then s
    else if e.record ≠ 0 && bs.length % e.record ≠ 0 then failNode asn e.src rep 6 0x01 s
    else
      let s := updLane asn edge b (fun l => { l with backlog := [] }) s
      let s := placeChunk asn edge (outLane r.image edge rep t) { bytes := bs } s
      if m = 1 && n > 1 then setTurn asn edge ((t.1 + 1) % n, t.2) s else s

/-! ### Port space (Table 7.6) -/

/-- What a port register offset names: port number, and the register within its group. -/
def portReg (off : Nat) : Bool × Nat × Nat := (off ≥ 0x800, off % 0x800 / 0x100, off % 0x100)

/-- A load from port space: a trap, a wait, or the bytes read with the state after. DEDUCED: log entry 68. -/
def portLoad (s : State) (e : Engine) (off n addr : Nat) : Act × List Byte :=
  match engineRun s e with
  | none => (.wait, [])
  | some (r, node, rep) =>
    let nd := gNode r.image node
    let (out, p, reg) := portReg off
    if p ≥ (if out then nd.nout else nd.nin) then (.trap trAccess addr, [])
    else match (if out then gOut r.image node p else gIn r.image node p) with
      | none => (.trap trAccess addr, [])
      | some edge =>
        if !out && reg = 0 then
          let av := available r edge rep
          if av.length ≥ n then
            if nextPoisoned r edge rep n then (.trap trPoison addr, [])
            else (.done e {} (popN r.asn edge rep (n + 1) n s), av.take n)
          else if allArrived r edge rep then (.trap trAccess addr, []) else (.wait, [])
        else if !out && reg = 4 && n = 4 then match inStat r edge rep with
          | none => (.wait, [])
          | some v => (.done e {} s, le 4 v)
        else if out && reg = 4 && n = 4 then (.done e {} s, le 4 (outStat r edge rep))
        else (.trap trAccess addr, [])

/-- A store to port space. DEDUCED: log entry 68. -/
def portStore (s : State) (e : Engine) (off addr : Nat) (bs : List Byte) : Act :=
  match engineRun s e with
  | none => .wait
  | some (r, node, rep) =>
    let nd := gNode r.image node
    let (out, p, reg) := portReg off
    if p ≥ (if out then nd.nout else nd.nin) then .trap trAccess addr
    else match (if out then gOut r.image node p else gIn r.image node p) with
      | none => .trap trAccess addr
      | some edge =>
        if !out && reg = 8 && bs.length = 4 then match headChunk r edge rep with
          | some _ => .done e {} (popN.pumpMerges r.asn edge (consume r.asn edge rep s))
          | none => if atEnd r edge rep then .done e {} s else .wait
        else if out && reg = 0 then
          if outEnded r edge rep then .trap trAccess addr
          else if !pushReady r edge rep bs.length then .wait
          else .done e {} (emitBytes r.asn edge rep bs s)
        else if out && reg = 8 && bs.length = 4 then
          let v := unle bs
          if v ≠ 1 ∧ v ≠ 2 then .trap trAccess addr
          else if outEnded r edge rep then .trap trAccess addr
          else if v = 1 then .done e {} (flushOut r.asn edge rep s)
          else .done e {} (emitEnd r.asn edge rep s)
        else .trap trAccess addr

/-! ### Loads and stores -/

/-- Stack limit and alignment, in the order of R304. DEDUCED: log entry 68. -/
def accessCheck (e : Engine) (base addr n : Nat) : Option Nat :=
  if base = 15 ∧ addr < e.slim.toNat then some trStack
  else if addr % n ≠ 0 then some trMisaligned else none

/-- The loaded bytes as a register value. -/
def loadValue (f : MFmt) (bs : List Byte) : Word :=
  let v := unle bs
  if f.sx = 0 ∨ f.size = 2 then BitVec.ofNat 32 v
  else if f.size = 0 then (BitVec.ofNat 8 v).signExtend 32 else (BitVec.ofNat 16 v).signExtend 32

/-- The write of the base register. -/
def baseWrite (e : Engine) (f : MFmt) : List Wr := match mUpdate e f with
  | some v => [wr (.a f.a.toNat) 1 v]
  | none => []

/-- Let the lanes move after a port access. -/
def pumpFor (e : Engine) (s : State) : State := match e.job with
  | some (asn, _, _) => settle (pump asn s)
  | none => s

/-- A load: bank loads land 3 cycles after issue; long accesses land when they complete (R270, R271, R280). -/
def loadBody (f : MFmt) (dst : Reg) (ok : Nat → Bool) (e : Engine) (s : State) : Act :=
  let addr := (mAddr e f).toNat
  let n := sizeBytes f.size
  if !ok addr then .wait
  else match accessCheck e f.a.toNat addr n with
  | some c => .trap c addr
  | none => match regionOf addr with
    | .none => .trap trAccess addr
    | .bank =>
      if bankBad e addr n then .trap trPoison addr
      else .done e { writes := baseWrite e f ++ [wr dst 3 (loadValue f (bankRead e addr n))] } s
    | .window off => match engineRun s e with
      | none => .wait
      | some (r, _, _) =>
        if !windowOk s e r.tenant off n then .trap trAccess addr
        else if s.compute.sramPoison.contains (r.tenant, e.cluster, off / 8 * 8) then .trap trPoison addr
        else
          let k := windowCost e
          .done e { writes := baseWrite e f ++ [wr dst k (loadValue f (Memory.readN (sramOf s r.tenant e.cluster) off n))], cost := k } s
    | .port off => match portLoad s e off n addr with
      | (.done e _ s, bs) => .done e { writes := baseWrite e f ++ [wr dst 4 (loadValue f bs)], cost := 4 } (pumpFor e s)
      | (a, _) => a

/-- A store. -/
def storeBody (f : MFmt) (src : Engine → Word) (ok : Nat → Bool) (e : Engine) (s : State) : Act :=
  let addr := (mAddr e f).toNat
  let n := sizeBytes f.size
  let bs := le n (src e).toNat
  if !ok addr then .wait
  else match accessCheck e f.a.toNat addr n with
  | some c => .trap c addr
  | none => match regionOf addr with
    | .none => .trap trAccess addr
    | .bank => .done (bankWrite e addr bs) { writes := baseWrite e f } s
    | .window off => match engineRun s e with
      | none => .wait
      | some (r, _, _) =>
        if !windowOk s e r.tenant off n then .trap trAccess addr
        else
          let s := putSram r.tenant e.cluster (Memory.writeN (sramOf s r.tenant e.cluster) off bs) s
          let s := { s with compute := { s.compute with
            sramPoison := s.compute.sramPoison.filter (· != (r.tenant, e.cluster, off / 8 * 8)) } }
          .done e { writes := baseWrite e f, cost := windowCost e } s
    | .port off => match portStore s e off addr bs with
      | .done e _ s => .done e { writes := baseWrite e f, cost := 4 } (pumpFor e s)
      | a => a

/-- The access of an instruction at PC would be a long access (R270): the address as its registers stand once every
write has landed. -/
def isLong (s : State) (p : Nat) (f : MFmt) : Bool := match s.engine? p with
  | none => false
  | some e =>
    let e := landTo (issueCycle e (mSources f) none false) e
    (mAddr e f).toNat ≥ 0x40000

/-- A load instruction of a major, into D or A. DEDUCED: log entry 68. -/
def doLoad (p major : Nat) (areg : Bool) (f : MFmt) (ok : Nat → Bool) (s : State) : State :=
  let dst : Reg := if areg then .a f.r.toNat else .d f.r.toNat
  issue p (encM major f) false (mReserved f true areg) (dst :: mSources f ++ mBaseDst f) none (isLong s p f)
    (loadBody f dst ok) s

/-- A store instruction of a major, from D or A. DEDUCED: log entry 68. -/
def doStore (p major : Nat) (areg : Bool) (f : MFmt) (ok : Nat → Bool) (s : State) : State :=
  let src : Reg := if areg then .a f.r.toNat else .d f.r.toNat
  issue p (encM major f) false (mReserved f false areg) (src :: mSources f ++ mBaseDst f) none (isLong s p f)
    (storeBody f (fun e => if areg then rdA e f.r.toNat else rdD e f.r.toNat) ok) s

/-- LD. -/
def execLd (e : Nat) (f : MFmt) (s : State) : Host.Outcome State Fault Refusal :=
  .next (doLoad e 0x10 false f (fun _ => true) s)

/-- ST. -/
def execSt (e : Nat) (f : MFmt) (s : State) : Host.Outcome State Fault Refusal :=
  .next (doStore e 0x11 false f (fun _ => true) s)

/-- LDA: size 0b10 only. -/
def execLda (e : Nat) (f : MFmt) (s : State) : Host.Outcome State Fault Refusal :=
  .next (doLoad e 0x12 true f (fun _ => true) s)

/-- STA: size 0b10 only. -/
def execSta (e : Nat) (f : MFmt) (s : State) : Host.Outcome State Fault Refusal :=
  .next (doStore e 0x13 true f (fun _ => true) s)

/-- The word at PC is `w`. -/
def atWord (s : State) (p : Nat) (w : Word) : Bool := ((s.engine? p).map fun e => fetchWord e e.pc == w).getD false

/-- An address is register `reg` of an input (`out` false) or output port. -/
def isPortReg (out : Bool) (reg : Nat) (addr : Nat) : Bool :=
  match regionOf addr with
  | .port off => off / 0x800 == (if out then 1 else 0) && off % 0x800 < 0x400 && off % 0x100 == reg
  | _ => false

/-- A load or LDA whose address is the port register; any other address leaves this event without effect. -/
def portLoadOf (reg p : Nat) (f : MFmt) (s : State) : State :=
  if atWord s p (encM 0x12 f) then doLoad p 0x12 true f (isPortReg false reg) s
  else doLoad p 0x10 false f (isPortReg false reg) s

def portStoreOf (out : Bool) (reg p : Nat) (f : MFmt) (value : Option Nat) (s : State) : State :=
  let ok (areg : Bool) : Bool := match value, s.engine? p with
    | some v, some e =>
      let e := landTo (issueCycle e [] none true) e
      (if areg then rdA e f.r.toNat else rdD e f.r.toNat).toNat == v
    | _, _ => true
  if atWord s p (encM 0x13 f) then doStore p 0x13 true f (fun a => isPortReg out reg a && ok true) s
  else doStore p 0x11 false f (fun a => isPortReg out reg a && ok false) s

/-- IN_DATA_POP: a load from IN_DATA pops bytes of the stream (R277). -/
def execInDataPop (e : Nat) (f : MFmt) (s : State) : Host.Outcome State Fault Refusal :=
  .next (portLoadOf 0 e f s)

/-- IN_STAT_READ. -/
def execInStatRead (e : Nat) (f : MFmt) (s : State) : Host.Outcome State Fault Refusal :=
  .next (portLoadOf 4 e f s)

/-- IN_SKIP. -/
def execInSkip (e : Nat) (f : MFmt) (s : State) : Host.Outcome State Fault Refusal :=
  .next (portStoreOf false 8 e f none s)

/-- OUT_DATA_PUSH. -/
def execOutDataPush (e : Nat) (f : MFmt) (s : State) : Host.Outcome State Fault Refusal :=
  .next (portStoreOf true 0 e f none s)

/-- FLUSH_PORT: a store of 1 to OUT_CTRL. -/
def execFlushPort (e : Nat) (f : MFmt) (s : State) : Host.Outcome State Fault Refusal :=
  .next (portStoreOf true 8 e f (some 1) s)

/-- END_PORT: a store of 2 to OUT_CTRL. -/
def execEndPort (e : Nat) (f : MFmt) (s : State) : Host.Outcome State Fault Refusal :=
  .next (portStoreOf true 8 e f (some 2) s)

end Sys2Proof.Machine
end

