-- ==== Sys2Proof/Machine/ColmusCtl.lean ====
section
/-! DEFINITION. Colmus branches, loops, calls and system instructions (file 07, R279, R284, R285, R297 to R302). -/

namespace Sys2Proof.Machine

/-- A target breaks R297: its trap cause. DEDUCED: log entry 67. -/
def targetFault (t : Nat) : Option Nat :=
  if t % 4 ≠ 0 then some trMisaligned else if t ≥ 0x10000 then some trAccess else none

/-- In open mode a branch whose delay slot holds the last instruction of the innermost loop's body is forbidden
(R299). DEDUCED: log entry 67. -/
def slotHoldsLast (e : Engine) : Bool := match e.loops with
  | l :: _ => l.last == e.pc + 4 || l.last == e.pc + 8
  | [] => false

/-- A branch to a target that is taken or not (R284, R297). DEDUCED: log entry 67. -/
def branchBody (taken : Engine → Bool) (target : Engine → Nat) (e : Engine) (s : State) : Act :=
  if e.openMode && slotHoldsLast e then .trap trIllegal 0
  else if taken e then match targetFault (target e) with
    | some c => .trap c (target e)
    | none =>
      .done e (if e.openMode then { target := some (target e), branch := true, delayed := true }
        else { target := some (target e), branch := true, cost := 3 }) s
  else .done e (if e.openMode then { delayed := true } else {}) s

/-- B: cond 0xF is reserved. -/
def execB (e : Nat) (f : BFmt) (s : State) : Host.Outcome State Fault Refusal :=
  let illegal (x : Engine) : Bool := x.openMode && slotHoldsLast x
  let rsv := ((s.engine? e).map fun x => f.cond == 15 && !illegal x).getD false
  .next (issue e (encB f) true rsv [.flags] none false
    (branchBody (fun x => condHolds x f.cond.toNat)
      (fun x => (BitVec.ofNat 32 x.pc + (f.imm.signExtend 32 <<< 2)).toNat)) s)

/-- JR: PC = As; d and t are reserved. -/
def execJr (e : Nat) (f : RFmt) (s : State) : Host.Outcome State Fault Refusal :=
  let illegal (x : Engine) : Bool := x.openMode && slotHoldsLast x
  let rsv := ((s.engine? e).map fun x => (f.rsv != 0 || f.d != 0 || f.t != 0) && !illegal x).getD false
  .next (issue e (encR 0x29 0 f) true rsv [.a f.s.toNat] none false
    (branchBody (fun _ => true) (fun x => (rdA x f.s.toNat).toNat)) s)

/-! ### Calls (R301, R302) -/

/-- Frame length of a mask. -/
def frameLen (mask : BitVec 16) : Nat :=
  8 + 4 * ((List.range 15).filter fun i => mask.getLsbD i).length + (if mask.getLsbD 15 then 24 else 0)

/-- The frame's words (Table 7.13). -/
def frameWords (e : Engine) (mask : BitVec 16) : List Word :=
  let acc3 (i : Nat) : List Word :=
    [(rdAcc e i).extractLsb' 0 32, (rdAcc e i).extractLsb' 32 32, ((rdAcc e i).extractLsb' 64 8).zeroExtend 32]
  [mask.zeroExtend 32, BitVec.ofNat 32 (e.pc + 4)]
    ++ ((List.range 8).filter fun i => mask.getLsbD i).map (fun i => rdD e (8 + i))
    ++ ((List.range 7).filter fun i => mask.getLsbD (8 + i)).map (fun i => rdA e (8 + i))
    ++ (if mask.getLsbD 15 then acc3 2 ++ acc3 3 else [])

/-- Every word of a frame may be accessed: its first trap cause and address. DEDUCED: log entry 68. -/
def frameFault (s : State) (e : Engine) (base len : Nat) (loads : Bool) : Option (Nat × Nat) :=
  let words := (List.range (len / 4)).map fun i => (base + 4 * i) % 2 ^ 32
  let bad (a : Nat) : Option Nat := match regionOf a with
    | .bank => if loads && bankBad e a 4 then some trPoison else none
    | .window off => match engineRun s e with
      | none => some trAccess
      | some (r, _, _) =>
        if !windowOk s e r.tenant off 4 then some trAccess
        else if loads && s.compute.sramPoison.contains (r.tenant, e.cluster, off / 8 * 8) then some trPoison else none
    | _ => some trAccess
  let acc := words.find? fun a => bad a == some trAccess
  let psn := words.find? fun a => bad a == some trPoison
  match acc, psn with
  | some a, _ => some (trAccess, a)
  | none, some a => some (trPoison, a)
  | none, none => none

/-- Read or write one word of a frame. -/
def frameRead (s : State) (e : Engine) (a : Nat) : Word :=
  match regionOf a with
  | .window off => match engineRun s e with
    | some (r, _, _) => BitVec.ofNat 32 (unle (Memory.readN (sramOf s r.tenant e.cluster) off 4))
    | none => 0
  | _ => BitVec.ofNat 32 (unle (bankRead e a 4))

def frameWrite (a : Nat) (w : Word) (x : Engine × State) : Engine × State :=
  match regionOf a with
  | .window off => match engineRun x.2 x.1 with
    | some (r, _, _) =>
      (x.1, putSram r.tenant x.1.cluster (Memory.writeN (sramOf x.2 r.tenant x.1.cluster) off (le 4 w.toNat)) x.2)
    | none => x
  | _ => (bankWrite x.1 a (le 4 w.toNat), x.2)

/-- CALL (R301): checked in full before it writes any frame word. DEDUCED: log entry 67. -/
def callBody (f : CFmt) (e : Engine) (s : State) : Act :=
  let len := frameLen f.mask
  let sp := (rdA e 15).toNat
  let base := (sp + 2 ^ 32 - len) % 2 ^ 32
  let target := (rdA e f.target.toNat).toNat
  if sp < len ∨ sp - len < e.slim.toNat then .trap trStack base
  else if target % 4 ≠ 0 then .trap trMisaligned target
  else if base % 4 ≠ 0 then .trap trMisaligned base
  else if target ≥ 0x10000 then .trap trAccess target
  else match frameFault s e base len false with
    | some (c, a) => .trap c a
    | none =>
      let words := frameWords e f.mask
      let (e', s') := (List.range words.length).foldl (fun x i => frameWrite (base + 4 * i) (words.getD i 0) x) (e, s)
      .done e' { writes := [wr (.a 15) 1 (BitVec.ofNat 32 base)], cost := 2 + len / 4, target := some target } s'

/-- CALL; bits [5:0] are reserved. -/
def execCall (e : Nat) (f : CFmt) (s : State) : Host.Outcome State Fault Refusal :=
  .next (issue e (encC f) true (f.rsv != 0) [] none true (callBody f) s)

/-- The writes that restore the registers a mask names from a frame. -/
def frameRestore (mask : BitVec 16) (word : Nat → Word) : List Wr :=
  let ds := (List.range 8).filter fun i => mask.getLsbD i
  let as := (List.range 7).filter fun i => mask.getLsbD (8 + i)
  let at_ (k : Nat) : Word := word (2 + k)
  let acc (i k : Nat) : Wr :=
    { reg := .acc i, lat := 1, value := (((at_ (k + 2)).extractLsb' 0 8) ++ at_ (k + 1) ++ at_ k).setWidth 72 }
  ((List.range ds.length).map fun k => wr (.d (8 + ds.getD k 0)) 1 (at_ k))
    ++ ((List.range as.length).map fun k => wr (.a (8 + as.getD k 0)) 1 (at_ (ds.length + k)))
    ++ (if mask.getLsbD 15 then [acc 2 (ds.length + as.length), acc 3 (ds.length + as.length + 3)] else [])

/-- RET (R302). DEDUCED: log entry 67. -/
def retBody (e : Engine) (s : State) : Act :=
  let sp := (rdA e 15).toNat
  if sp < e.slim.toNat then .trap trStack sp
  else if sp % 4 ≠ 0 then .trap trMisaligned sp
  else match frameFault s e sp 8 true with
    | some (c, a) => .trap c a
    | none =>
      let mask : BitVec 16 := (frameRead s e sp).setWidth 16
      let ra := (frameRead s e (sp + 4)).toNat
      let len := frameLen mask
      match targetFault ra with
      | some c => .trap c ra
      | none => match frameFault s e sp len true with
        | some (c, a) => .trap c a
        | none =>
          let word (i : Nat) : Word := frameRead s e (sp + 4 * i)
          .done e { writes := frameRestore mask word ++ [wr (.a 15) 1 (BitVec.ofNat 32 (sp + len))]
                    cost := 2 + len / 4, target := some ra } s

/-- RET; bits [25:0] are reserved. -/
def execRet (e : Nat) (rsv : BitVec 26) (s : State) : Host.Outcome State Fault Refusal :=
  .next (issue e (encRet rsv) true (rsv != 0) [] none true retBody s)

/-! ### Hardware loops (R298) -/

/-- DEDUCED: log entry 67. -/
def loopBody (f : LFmt) (e : Engine) (s : State) : Act :=
  let n := (rdD e f.count.toNat).toNat
  let last := e.pc + 4 * f.len.toNat
  if last ≥ 0x10000 then .trap trAccess last
  else if n = 0 then .done e { cost := 3, target := some (last + 4) } s
  else .done e { open_ := some { first := e.pc + 4, last := last, left := n } } s

/-- LOOP: a third nested loop is forbidden; a length of 0 and bits [7:0] are reserved. -/
def execLoop (e : Nat) (f : LFmt) (s : State) : Host.Outcome State Fault Refusal :=
  -- R304: ILLEGAL_OP comes before RESERVED_FIELD
  let third : Bool := match s.engine? e with
    | some x => x.loops.length ≥ 2 && rdD (landTo (issueCycle x [.d f.count.toNat] none false) x) f.count.toNat != 0
    | none => false
  .next (issue e (encL f) true (!third && (f.rsv != 0 || f.len == 0)) [.d f.count.toNat] none false
    (fun x s => if third then .trap trIllegal 0 else loopBody f x s) s)

/-! ### SYS -/

/-- A reserved field of a SYS word is not zero. DEDUCED: log entry 70. -/
def sysReserved (f : RFmt) : Bool := f.rsv != 0 || f.d != 0 || f.s != 0 || f.t != 0

/-- NOP. -/
def execNop (e : Nat) (f : RFmt) (s : State) : Host.Outcome State Fault Refusal :=
  .next (issue e (encR 0x30 0 f) false (sysReserved f) [] none false (plain fun _ => []) s)

/-- Discard what has arrived of an input stream (R279). -/
def discardInput (asn edge rep : Nat) : Nat → State → State
  | 0, s => s
  | fuel + 1, s => match s.run? asn with
    | none => s
    | some r => match headChunk r edge rep with
      | none => s
      | some _ => discardInput asn edge rep fuel (popN.pumpMerges asn edge (consume asn edge rep s))

/-- HALT (R279): END on each output that has not ended, every input discarded up to its end mark; the program
has ended once every end mark has arrived. -/
def haltBody (p : Nat) (e : Engine) (s : State) : Act :=
  match engineRun s e with
  | none => .wait
  | some (r, node, rep) =>
    let nd := gNode r.image node
    let ins := (List.range nd.nin).filterMap (gIn r.image node)
    let outs := (List.range nd.nout).filterMap (gOut r.image node)
    let s := outs.foldl (fun s o => if outEnded r o rep then s else emitEnd r.asn o rep s) s
    let s := ins.foldl (fun s i => discardInput r.asn i rep 4096 s) s
    let arrived := ((s.run? r.asn).map fun r => ins.all fun i => atEnd r i rep).getD false
    if arrived then
      let s := ins.foldl (fun s i => takeEnd r.asn i rep s) s
      .done { e with halted := true } { target := some e.pc } (pumpFor e s)
    else
      -- the engine waits at the HALT while data is still waiting upstream
      let s := pumpFor e s
      .done ((s.engine? p).getD e) { target := some e.pc, cost := 0 } s

/-- HALT. -/
def execHalt (e : Nat) (f : RFmt) (s : State) : Host.Outcome State Fault Refusal :=
  .next (issue e (encR 0x30 1 f) true (sysReserved f) [] none true (haltBody e) s)

/-- BRK: it traps BREAK in every state of the device. -/
def execBrk (e : Nat) (f : RFmt) (s : State) : Host.Outcome State Fault Refusal :=
  .next (issue e (encR 0x30 2 f) true (sysReserved f) [] none false (fun _ _ => .trap trBreak 0) s)

/-- DRAIN: every write in flight lands, then one cycle passes (R285). -/
def execDrain (e : Nat) (f : RFmt) (s : State) : Host.Outcome State Fault Refusal :=
  .next (issue e (encR 0x30 3 f) false (sysReserved f) [] none true (plain fun _ => []) s)

end Sys2Proof.Machine
end

