-- ==== Sys2Proof/Machine/ColmusInt.lean ====
section
/-! DEFINITION. Colmus integer and address instructions (file 07, Table 7.10 and the single-field majors). -/

namespace Sys2Proof.Machine

/-- Leading zeros of a word, 32 for 0. -/
def clz (x : Word) : Word := BitVec.ofNat 32 (if x = 0 then 32 else 31 - Nat.log2 x.toNat)

/-- Ones of a word. -/
def popc (x : Word) : Word := BitVec.ofNat 32 (((List.range 32).filter fun i => x.getLsbD i).length)

/-- ADD. -/
def execAdd (e : Nat) (f : RFmt) (s : State) : Host.Outcome State Fault Refusal :=
  .next (rDDD e 0x01 0x00 1 f (fun x y => x + y) s)

/-- SUB. -/
def execSub (e : Nat) (f : RFmt) (s : State) : Host.Outcome State Fault Refusal :=
  .next (rDDD e 0x01 0x01 1 f (fun x y => x - y) s)

/-- AND. -/
def execAnd (e : Nat) (f : RFmt) (s : State) : Host.Outcome State Fault Refusal :=
  .next (rDDD e 0x01 0x02 1 f (fun x y => x &&& y) s)

/-- OR. -/
def execOr (e : Nat) (f : RFmt) (s : State) : Host.Outcome State Fault Refusal :=
  .next (rDDD e 0x01 0x03 1 f (fun x y => x ||| y) s)

/-- XOR. -/
def execXor (e : Nat) (f : RFmt) (s : State) : Host.Outcome State Fault Refusal :=
  .next (rDDD e 0x01 0x04 1 f (fun x y => x ^^^ y) s)

/-- ANDN. -/
def execAndn (e : Nat) (f : RFmt) (s : State) : Host.Outcome State Fault Refusal :=
  .next (rDDD e 0x01 0x05 1 f (fun x y => x &&& ~~~y) s)

/-- SHL. -/
def execShl (e : Nat) (f : RFmt) (s : State) : Host.Outcome State Fault Refusal :=
  .next (rDDD e 0x01 0x06 1 f (fun x y => shiftBy 0 (y.toNat % 256) x) s)

/-- SHR. -/
def execShr (e : Nat) (f : RFmt) (s : State) : Host.Outcome State Fault Refusal :=
  .next (rDDD e 0x01 0x07 1 f (fun x y => shiftBy 1 (y.toNat % 256) x) s)

/-- SAR. -/
def execSar (e : Nat) (f : RFmt) (s : State) : Host.Outcome State Fault Refusal :=
  .next (rDDD e 0x01 0x08 1 f (fun x y => shiftBy 2 (y.toNat % 256) x) s)

/-- ROR. -/
def execRor (e : Nat) (f : RFmt) (s : State) : Host.Outcome State Fault Refusal :=
  .next (rDDD e 0x01 0x09 1 f (fun x y => shiftBy 3 (y.toNat % 256) x) s)

/-- MIN. -/
def execMin (e : Nat) (f : RFmt) (s : State) : Host.Outcome State Fault Refusal :=
  .next (rDDD e 0x01 0x0A 1 f (fun x y => if x.slt y then x else y) s)

/-- MAX. -/
def execMax (e : Nat) (f : RFmt) (s : State) : Host.Outcome State Fault Refusal :=
  .next (rDDD e 0x01 0x0B 1 f (fun x y => if x.slt y then y else x) s)

/-- MINU. -/
def execMinu (e : Nat) (f : RFmt) (s : State) : Host.Outcome State Fault Refusal :=
  .next (rDDD e 0x01 0x0C 1 f (fun x y => if x.ult y then x else y) s)

/-- MAXU. -/
def execMaxu (e : Nat) (f : RFmt) (s : State) : Host.Outcome State Fault Refusal :=
  .next (rDDD e 0x01 0x0D 1 f (fun x y => if x.ult y then y else x) s)

/-- ABS. -/
def execAbs (e : Nat) (f : RFmt) (s : State) : Host.Outcome State Fault Refusal :=
  .next (rDD e 0x01 0x0E 1 f (fun x => if x.msb then -x else x) s)

/-- SEXTH. -/
def execSexth (e : Nat) (f : RFmt) (s : State) : Host.Outcome State Fault Refusal :=
  .next (rDD e 0x01 0x0F 1 f (fun x => (x.extractLsb' 0 16).signExtend 32) s)

/-- SEXTB. -/
def execSextb (e : Nat) (f : RFmt) (s : State) : Host.Outcome State Fault Refusal :=
  .next (rDD e 0x01 0x10 1 f (fun x => (x.extractLsb' 0 8).signExtend 32) s)

/-- ZEXTH. -/
def execZexth (e : Nat) (f : RFmt) (s : State) : Host.Outcome State Fault Refusal :=
  .next (rDD e 0x01 0x11 1 f (fun x => (x.extractLsb' 0 16).zeroExtend 32) s)

/-- ZEXTB. -/
def execZextb (e : Nat) (f : RFmt) (s : State) : Host.Outcome State Fault Refusal :=
  .next (rDD e 0x01 0x12 1 f (fun x => (x.extractLsb' 0 8).zeroExtend 32) s)

/-- MOV. -/
def execMov (e : Nat) (f : RFmt) (s : State) : Host.Outcome State Fault Refusal :=
  .next (rDD e 0x01 0x13 1 f (fun x => x) s)

/-- CLZ. -/
def execClz (e : Nat) (f : RFmt) (s : State) : Host.Outcome State Fault Refusal :=
  .next (rDD e 0x01 0x14 1 f (fun x => clz x) s)

/-- POPC. -/
def execPopc (e : Nat) (f : RFmt) (s : State) : Host.Outcome State Fault Refusal :=
  .next (rDD e 0x01 0x15 1 f (fun x => popc x) s)

/-- ADDI. -/
def execAddi (e : Nat) (f : IFmt) (s : State) : Host.Outcome State Fault Refusal :=
  .next (iDD e 0x02 f false (fun x => x + f.imm.signExtend 32) s)

/-- ANDI. -/
def execAndi (e : Nat) (f : IFmt) (s : State) : Host.Outcome State Fault Refusal :=
  .next (iDD e 0x03 f false (fun x => x &&& f.imm.zeroExtend 32) s)

/-- ORI. -/
def execOri (e : Nat) (f : IFmt) (s : State) : Host.Outcome State Fault Refusal :=
  .next (iDD e 0x04 f false (fun x => x ||| f.imm.zeroExtend 32) s)

/-- XORI. -/
def execXori (e : Nat) (f : IFmt) (s : State) : Host.Outcome State Fault Refusal :=
  .next (iDD e 0x05 f false (fun x => x ^^^ f.imm.zeroExtend 32) s)

/-- SHI: amount in imm18[4:0], kind in imm18[6:5]; imm18[17:7] is reserved. -/
def execShi (e : Nat) (f : IFmt) (s : State) : Host.Outcome State Fault Refusal :=
  .next (iDD e 0x06 f (f.imm.toNat / 128 != 0) (fun x => shiftBy (f.imm.toNat / 32 % 4) (f.imm.toNat % 32) x) s)

/-- MOVI: Dd = sign-extended imm22. -/
def execMovi (e : Nat) (f : WFmt) (s : State) : Host.Outcome State Fault Refusal :=
  .next (issue e (encW 0x07 f) false false [.d f.d.toNat] none false
    (plain fun _ => [wr (.d f.d.toNat) 1 (f.imm.signExtend 32)]) s)

/-- MOVHI: Dd = imm22[15:0] shifted left by 16; imm22[21:16] is reserved. -/
def execMovhi (e : Nat) (f : WFmt) (s : State) : Host.Outcome State Fault Refusal :=
  .next (issue e (encW 0x08 f) false (f.imm.toNat / 65536 != 0) [.d f.d.toNat] none false
    (plain fun _ => [wr (.d f.d.toNat) 1 (f.imm.zeroExtend 32 <<< 16)]) s)

/-- A write of FLAGS. -/
def wrFlags (v : BitVec 72) : Wr := { reg := .flags, lat := 1, value := v }

/-- CMP: FLAGS from Ds - Dt; d is reserved. -/
def execCmp (e : Nat) (f : RFmt) (s : State) : Host.Outcome State Fault Refusal :=
  .next (issue e (encR 0x09 0 f) false (f.rsv != 0 || f.d != 0) [.d f.s.toNat, .d f.t.toNat] none false
    (plain fun x => [wrFlags (cmpFlags (rdD x f.s.toNat) (rdD x f.t.toNat))]) s)

/-- TST: FLAGS from Ds AND Dt; d is reserved. -/
def execTst (e : Nat) (f : RFmt) (s : State) : Host.Outcome State Fault Refusal :=
  .next (issue e (encR 0x09 1 f) false (f.rsv != 0 || f.d != 0) [.d f.s.toNat, .d f.t.toNat] none false
    (plain fun x => [wrFlags (tstFlags (rdD x f.s.toNat &&& rdD x f.t.toNat))]) s)

/-- CMPI: FLAGS from Ds and sign-extended imm18; d is reserved. -/
def execCmpi (e : Nat) (f : IFmt) (s : State) : Host.Outcome State Fault Refusal :=
  .next (issue e (encI 0x0A f) false (f.d != 0) [.d f.s.toNat] none false
    (plain fun x => [wrFlags (cmpFlags (rdD x f.s.toNat) (f.imm.signExtend 32))]) s)

/-- TSTI: FLAGS from Ds AND zero-extended imm18; d is reserved. -/
def execTsti (e : Nat) (f : IFmt) (s : State) : Host.Outcome State Fault Refusal :=
  .next (issue e (encI 0x0B f) false (f.d != 0) [.d f.s.toNat] none false
    (plain fun x => [wrFlags (tstFlags (rdD x f.s.toNat &&& f.imm.zeroExtend 32))]) s)

/-- ADDA: Ad = As + At. -/
def execAdda (e : Nat) (f : RFmt) (s : State) : Host.Outcome State Fault Refusal :=
  .next (issue e (encR 0x0C 0 f) false (f.rsv != 0) [.a f.d.toNat, .a f.s.toNat, .a f.t.toNat] none false
    (plain fun x => [wr (.a f.d.toNat) 1 (rdA x f.s.toNat + rdA x f.t.toNat)]) s)

/-- SUBA: Ad = As - At. -/
def execSuba (e : Nat) (f : RFmt) (s : State) : Host.Outcome State Fault Refusal :=
  .next (issue e (encR 0x0C 1 f) false (f.rsv != 0) [.a f.d.toNat, .a f.s.toNat, .a f.t.toNat] none false
    (plain fun x => [wr (.a f.d.toNat) 1 (rdA x f.s.toNat - rdA x f.t.toNat)]) s)

/-- MOVAA: Ad = As; t is reserved. -/
def execMovaa (e : Nat) (f : RFmt) (s : State) : Host.Outcome State Fault Refusal :=
  .next (issue e (encR 0x0C 2 f) false (f.rsv != 0 || f.t != 0) [.a f.d.toNat, .a f.s.toNat] none false
    (plain fun x => [wr (.a f.d.toNat) 1 (rdA x f.s.toNat)]) s)

/-- MOVAD: Ad = Ds; t is reserved. -/
def execMovad (e : Nat) (f : RFmt) (s : State) : Host.Outcome State Fault Refusal :=
  .next (issue e (encR 0x0C 3 f) false (f.rsv != 0 || f.t != 0) [.a f.d.toNat, .d f.s.toNat] none false
    (plain fun x => [wr (.a f.d.toNat) 1 (rdD x f.s.toNat)]) s)

/-- MOVDA: Dd = As; t is reserved. -/
def execMovda (e : Nat) (f : RFmt) (s : State) : Host.Outcome State Fault Refusal :=
  .next (issue e (encR 0x0C 4 f) false (f.rsv != 0 || f.t != 0) [.d f.d.toNat, .a f.s.toNat] none false
    (plain fun x => [wr (.d f.d.toNat) 1 (rdA x f.s.toNat)]) s)

/-- CMPA: FLAGS from As - At; d is reserved. -/
def execCmpa (e : Nat) (f : RFmt) (s : State) : Host.Outcome State Fault Refusal :=
  .next (issue e (encR 0x0C 5 f) false (f.rsv != 0 || f.d != 0) [.a f.s.toNat, .a f.t.toNat] none false
    (plain fun x => [wrFlags (cmpFlags (rdA x f.s.toNat) (rdA x f.t.toNat))]) s)

/-- ADDAI: Ad = As + sign-extended imm18. -/
def execAddai (e : Nat) (f : IFmt) (s : State) : Host.Outcome State Fault Refusal :=
  .next (issue e (encI 0x0D f) false false [.a f.d.toNat, .a f.s.toNat] none false
    (plain fun x => [wr (.a f.d.toNat) 1 (rdA x f.s.toNat + f.imm.signExtend 32)]) s)

/-- MOVAI: Ad = zero-extended imm22. -/
def execMovai (e : Nat) (f : WFmt) (s : State) : Host.Outcome State Fault Refusal :=
  .next (issue e (encW 0x0E f) false false [.a f.d.toNat] none false
    (plain fun _ => [wr (.a f.d.toNat) 1 (f.imm.zeroExtend 32)]) s)

/-- MOVAHI: Ad = imm22[15:0] shifted left by 16; imm22[21:16] is reserved. -/
def execMovahi (e : Nat) (f : WFmt) (s : State) : Host.Outcome State Fault Refusal :=
  .next (issue e (encW 0x0F f) false (f.imm.toNat / 65536 != 0) [.a f.d.toNat] none false
    (plain fun _ => [wr (.a f.d.toNat) 1 (f.imm.zeroExtend 32 <<< 16)]) s)

end Sys2Proof.Machine
end

