-- ==== Sys2Proof/Machine/ColmusFp.lean ====
section
/-! DEFINITION. Colmus binary32 arithmetic (file 07, R295, R296): exact values, one rounding to nearest, ties to
even, subnormals as zeros. -/

namespace Sys2Proof.Machine

/-- A binary32 value: a NaN, an infinity, or sign, mantissa and exponent of `mant × 2 ^ exp`. -/
inductive FVal where
  | nan
  | inf (neg : Bool)
  | fin (neg : Bool) (mant : Nat) (exp : Int)
  deriving DecidableEq, Repr

def canonNan : Word := 0x7FC00000

/-- The value of a word; a subnormal is a zero of the same sign. DEDUCED: log entry 69. -/
def fUnpack (w : Word) : FVal :=
  let e : Nat := w.toNat / 2 ^ 23 % 256
  let m : Nat := w.toNat % 2 ^ 23
  if e = 255 then (if m = 0 then .inf w.msb else .nan)
  else if e = 0 then .fin w.msb 0 0
  else .fin w.msb (2 ^ 23 + m) ((e : Int) - 150)

def fZero (neg : Bool) : Word := if neg then 0x80000000 else 0
def fInf (neg : Bool) : Word := if neg then 0xFF800000 else 0x7F800000

/-- `m / 2 ^ k` rounded to the nearest integer, ties to even. -/
def roundShift (m k : Nat) : Nat :=
  let q := m / 2 ^ k
  let r := m % 2 ^ k
  if 2 * r > 2 ^ k || (2 * r == 2 ^ k && q % 2 == 1) then q + 1 else q

/-- The word nearest to the exact value `m × 2 ^ e` (R295). DEDUCED: log entry 69. -/
def fRound (neg : Bool) (m : Nat) (e : Int) : Word :=
  if m = 0 then fZero neg
  else
    let q : Int := max (e + Nat.log2 m - 23) (-149)
    let n := if e ≥ q then m * 2 ^ (e - q).toNat else roundShift m (q - e).toNat
    let (n, q) := if n ≥ 2 ^ 24 then (n / 2, q + 1) else (n, q)
    if n < 2 ^ 23 then fZero neg
    else if q + 150 ≥ 255 then fInf neg
    else BitVec.ofNat 32 ((if neg then 2 ^ 31 else 0) + (q + 150).toNat * 2 ^ 23 + (n - 2 ^ 23))

/-- The exact sum of two finite values, and the sign of a zero sum. -/
def fSum (an : Bool) (am : Nat) (ae : Int) (bn : Bool) (bm : Nat) (be : Int) : Word :=
  let lo := min ae be
  let a : Int := (if an then -1 else 1) * (am * 2 ^ (ae - lo).toNat : Nat)
  let b : Int := (if bn then -1 else 1) * (bm * 2 ^ (be - lo).toNat : Nat)
  let t := a + b
  if t = 0 then fZero (an && bn) else fRound (t < 0) t.natAbs lo

/-- x + y of two values. -/
def fAddV : FVal → FVal → Word
  | .nan, _ => canonNan
  | _, .nan => canonNan
  | .inf a, .inf b => if a = b then fInf a else canonNan
  | .inf a, _ => fInf a
  | _, .inf b => fInf b
  | .fin an am ae, .fin bn bm be => fSum an am ae bn bm be

def fNegV : FVal → FVal
  | .nan => .nan
  | .inf a => .inf (!a)
  | .fin n m e => .fin (!n) m e

/-- The exact product. -/
def fMulV : FVal → FVal → FVal
  | .nan, _ => .nan
  | _, .nan => .nan
  | .inf a, .inf b => .inf (a != b)
  | .inf a, .fin b m _ => if m = 0 then .nan else .inf (a != b)
  | .fin a m _, .inf b => if m = 0 then .nan else .inf (a != b)
  | .fin a m e, .fin b n f => .fin (a != b) (m * n) (e + f)

/-- The word of a value, rounded. DEDUCED: log entry 69. -/
def fPack : FVal → Word
  | .nan => canonNan
  | .inf a => fInf a
  | .fin n m e => fRound n m e

def fadd (x y : Word) : Word := fAddV (fUnpack x) (fUnpack y)
def fsub (x y : Word) : Word := fAddV (fUnpack x) (fNegV (fUnpack y))
def fmul (x y : Word) : Word := fPack (fMulV (fUnpack x) (fUnpack y))
/-- d + s × t and d − s × t with one rounding. -/
def fma (d s t : Word) : Word := fAddV (fUnpack d) (fMulV (fUnpack s) (fUnpack t))
def fms (d s t : Word) : Word := fAddV (fUnpack d) (fNegV (fMulV (fUnpack s) (fUnpack t)))

/-- The order of two finite or infinite values: sign and magnitude; −0 stands just below +0. -/
def fKey (w : Word) : Int :=
  let e : Nat := w.toNat / 2 ^ 23 % 256
  let mag : Nat := if e = 0 then 0 else w.toNat % 2 ^ 31
  if w.msb then -(mag : Int) - 1 else mag

def fIsNan (w : Word) : Bool := fUnpack w == .nan

/-- The operand as it counts: a subnormal is a zero of its sign. DEDUCED: log entry 69. -/
def fFlush (w : Word) : Word := if w.toNat / 2 ^ 23 % 256 = 0 then fZero w.msb else w

def fmin (x y : Word) : Word :=
  if fIsNan x && fIsNan y then canonNan else if fIsNan x then fFlush y else if fIsNan y then fFlush x
  else if fKey x ≤ fKey y then fFlush x else fFlush y

def fmax (x y : Word) : Word :=
  if fIsNan x && fIsNan y then canonNan else if fIsNan x then fFlush y else if fIsNan y then fFlush x
  else if fKey x ≤ fKey y then fFlush y else fFlush x

/-- FCMP: +0 equals −0 (R289). -/
def fOrder (x y : Word) : FOrder :=
  if fIsNan x || fIsNan y then .un
  else
    let k (w : Word) : Int := if fKey w < 0 then fKey w + 1 else fKey w
    if k x = k y then .eq else if k x < k y then .lt else .gt

/-- A value as an integer: toward zero, or to nearest with ties to even (R296). DEDUCED: log entry 69. -/
def fToInt (nearest : Bool) (neg : Bool) (m : Nat) (e : Int) : Int :=
  let n : Nat := if e ≥ 0 then m * 2 ^ e.toNat else if nearest then roundShift m (-e).toNat else m / 2 ^ (-e).toNat
  if neg then -(n : Int) else n

/-- FTOI and FTOIN. -/
def ftoi (nearest : Bool) (w : Word) : Word :=
  match fUnpack w with
  | .nan => 0
  | .inf n => if n then 0x80000000 else 0x7FFFFFFF
  | .fin n m e => BitVec.ofInt 32 (max (-2147483648) (min 2147483647 (fToInt nearest n m e)))

/-- FTOU. -/
def ftou (w : Word) : Word :=
  match fUnpack w with
  | .nan => 0
  | .inf n => if n then 0 else 0xFFFFFFFF
  | .fin n m e => BitVec.ofInt 32 (max 0 (min 4294967295 (fToInt false n m e)))

def itof (w : Word) : Word := fRound w.msb w.toInt.natAbs 0
def utof (w : Word) : Word := fRound false w.toNat 0

/-! ### Instructions -/

/-- FADD. -/
def execFadd (e : Nat) (f : RFmt) (s : State) : Host.Outcome State Fault Refusal := .next (rDDD e 0x20 0 4 f fadd s)

/-- FSUB. -/
def execFsub (e : Nat) (f : RFmt) (s : State) : Host.Outcome State Fault Refusal := .next (rDDD e 0x20 1 4 f fsub s)

/-- FMUL. -/
def execFmul (e : Nat) (f : RFmt) (s : State) : Host.Outcome State Fault Refusal := .next (rDDD e 0x20 2 4 f fmul s)

/-- Dd = Dd ± Ds × Dt with one rounding. -/
def doFma (p func : Nat) (op : Word → Word → Word → Word) (f : RFmt) (s : State) : State :=
  issue p (encR 0x20 func f) false (f.rsv != 0) [.d f.d.toNat, .d f.s.toNat, .d f.t.toNat] none false
    (plain fun e => [wr (.d f.d.toNat) 4 (op (rdD e f.d.toNat) (rdD e f.s.toNat) (rdD e f.t.toNat))]) s

/-- FMA. -/
def execFma (e : Nat) (f : RFmt) (s : State) : Host.Outcome State Fault Refusal := .next (doFma e 3 fma f s)

/-- FMS. -/
def execFms (e : Nat) (f : RFmt) (s : State) : Host.Outcome State Fault Refusal := .next (doFma e 4 fms f s)

/-- FMIN. -/
def execFmin (e : Nat) (f : RFmt) (s : State) : Host.Outcome State Fault Refusal := .next (rDDD e 0x20 5 4 f fmin s)

/-- FMAX. -/
def execFmax (e : Nat) (f : RFmt) (s : State) : Host.Outcome State Fault Refusal := .next (rDDD e 0x20 6 4 f fmax s)

/-- FABS: the sign bit cleared, NaN included. DEDUCED: log entry 69. -/
def execFabs (e : Nat) (f : RFmt) (s : State) : Host.Outcome State Fault Refusal :=
  .next (rDD e 0x20 7 4 f (fun x => x &&& 0x7FFFFFFF) s)

/-- FNEG: the sign bit inverted, NaN included. DEDUCED: log entry 69. -/
def execFneg (e : Nat) (f : RFmt) (s : State) : Host.Outcome State Fault Refusal :=
  .next (rDD e 0x20 8 4 f (fun x => x ^^^ 0x80000000) s)

/-- FCMP; d is reserved. -/
def execFcmp (e : Nat) (f : RFmt) (s : State) : Host.Outcome State Fault Refusal :=
  .next (issue e (encR 0x21 0 f) false (f.rsv != 0 || f.d != 0) [.d f.s.toNat, .d f.t.toNat] none false
    (plain fun x => [wrFlags (fcmpFlags (fOrder (rdD x f.s.toNat) (rdD x f.t.toNat)))]) s)

/-- FCMPZ: against +0; d and t are reserved. -/
def execFcmpz (e : Nat) (f : RFmt) (s : State) : Host.Outcome State Fault Refusal :=
  .next (issue e (encR 0x21 1 f) false (f.rsv != 0 || f.d != 0 || f.t != 0) [.d f.s.toNat] none false
    (plain fun x => [wrFlags (fcmpFlags (fOrder (rdD x f.s.toNat) 0))]) s)

/-- FTOI. -/
def execFtoi (e : Nat) (f : RFmt) (s : State) : Host.Outcome State Fault Refusal := .next (rDD e 0x22 0 2 f (ftoi false) s)

/-- FTOIN. -/
def execFtoin (e : Nat) (f : RFmt) (s : State) : Host.Outcome State Fault Refusal := .next (rDD e 0x22 1 2 f (ftoi true) s)

/-- FTOU. -/
def execFtou (e : Nat) (f : RFmt) (s : State) : Host.Outcome State Fault Refusal := .next (rDD e 0x22 2 2 f ftou s)

/-- ITOF. -/
def execItof (e : Nat) (f : RFmt) (s : State) : Host.Outcome State Fault Refusal := .next (rDD e 0x22 3 2 f itof s)

/-- UTOF. -/
def execUtof (e : Nat) (f : RFmt) (s : State) : Host.Outcome State Fault Refusal := .next (rDD e 0x22 4 2 f utof s)

end Sys2Proof.Machine
end

