-- ==== Sys2Proof/Machine/ColmusMul.lean ====
section
/-! DEFINITION. Colmus multiplication, accumulators, the dual-fetch MAC and the special registers (file 07,
R264, R282, R292 to R294). -/

namespace Sys2Proof.Machine

/-- The 64-bit product, signed or unsigned (R292). -/
def product (signed : Bool) (x y : Word) : BitVec 64 :=
  if signed then x.signExtend 64 * y.signExtend 64 else x.zeroExtend 64 * y.zeroExtend 64

/-- A product extended to 72 bits and negated for a subtraction. -/
def accTerm (signed sub : Bool) (p : BitVec 64) : BitVec 72 :=
  let v : BitVec 72 := if signed then p.signExtend 72 else p.zeroExtend 72
  if sub then -v else v

/-- MULS and MULU: PH:PL land 4 cycles after issue; d is reserved. -/
def doMul (p func : Nat) (signed : Bool) (f : RFmt) (s : State) : State :=
  issue p (encR 0x18 func f) false (f.rsv != 0 || f.d != 0) [.d f.s.toNat, .d f.t.toNat] none false
    (plain fun e =>
      let v := product signed (rdD e f.s.toNat) (rdD e f.t.toNat)
      [wr .ph 4 (v.extractLsb' 32 32), wr .pl 4 (v.extractLsb' 0 32)]) s

/-- MULS. -/
def execMuls (e : Nat) (f : RFmt) (s : State) : Host.Outcome State Fault Refusal := .next (doMul e 0 true f s)

/-- MULU. -/
def execMulu (e : Nat) (f : RFmt) (s : State) : Host.Outcome State Fault Refusal := .next (doMul e 1 false f s)

/-- MAC and MSU: the accumulator in d[23:22], d[25:24] reserved. -/
def doMac (p func : Nat) (signed sub : Bool) (f : RFmt) (s : State) : State :=
  let a := f.d.toNat % 4
  issue p (encR 0x19 func f) false (f.rsv != 0 || f.d.toNat ≥ 4) [.d f.s.toNat, .d f.t.toNat] (some a) false
    (plain fun e =>
      [{ reg := .acc a, lat := 4, value := accTerm signed sub (product signed (rdD e f.s.toNat) (rdD e f.t.toNat)), add := true }]) s

/-- MACS. -/
def execMacs (e : Nat) (f : RFmt) (s : State) : Host.Outcome State Fault Refusal := .next (doMac e 0 true false f s)

/-- MACU. -/
def execMacu (e : Nat) (f : RFmt) (s : State) : Host.Outcome State Fault Refusal := .next (doMac e 1 false false f s)

/-- MSUS. -/
def execMsus (e : Nat) (f : RFmt) (s : State) : Host.Outcome State Fault Refusal := .next (doMac e 2 true true f s)

/-- MSUU. -/
def execMsuu (e : Nat) (f : RFmt) (s : State) : Host.Outcome State Fault Refusal := .next (doMac e 3 false true f s)

/-- An element of `n` bytes, sign- or zero-extended. -/
def element (signed : Bool) (bs : List Byte) : Word :=
  match bs.length with
  | 1 => if signed then (BitVec.ofNat 8 (unle bs)).signExtend 32 else BitVec.ofNat 32 (unle bs)
  | 2 => if signed then (BitVec.ofNat 16 (unle bs)).signExtend 32 else BitVec.ofNat 32 (unle bs)
  | _ => BitVec.ofNat 32 (unle bs)

/-- The change of an address register (R293). -/
def dmacStep (mode : BitVec 2) (n : Nat) (m : Word) (a : Word) : Option Word :=
  match mode.toNat with
  | 0 => none
  | 1 => some (a + BitVec.ofNat 32 n)
  | 2 => some (a - BitVec.ofNat 32 n)
  | _ => some (a + m)

/-- DMAC: fetch one element from each bank, multiply, accumulate, advance both address registers (R293). -/
def dmacBody (f : DFmt) (e : Engine) (s : State) : Act :=
  let n := sizeBytes f.size
  let xr := f.ax.toNat
  let yr := 4 + f.ay.toNat
  let xa := rdA e xr
  let ya := rdA e yr
  let signed := f.uns == 0
  if xa.toNat % n ≠ 0 then .trap trMisaligned xa.toNat
  else if ya.toNat % n ≠ 0 then .trap trMisaligned ya.toNat
  else if xa.toNat ≥ 0x20000 then .trap trAccess xa.toNat
  else if ya.toNat < 0x20000 ∨ ya.toNat ≥ 0x40000 then .trap trAccess ya.toNat
  else if bankBad e xa.toNat n then .trap trPoison xa.toNat
  else if bankBad e ya.toNat n then .trap trPoison ya.toNat
  else
    let v := product signed (element signed (bankRead e xa.toNat n)) (element signed (bankRead e ya.toNat n))
    let upd (r : Nat) (o : Option Word) : List Wr := match o with
      | some w => [wr (.a r) 1 w]
      | none => []
    let mac : Wr := { reg := .acc f.acc.toNat, lat := 4, value := accTerm signed (f.sub == 1) v, add := true }
    let ws := upd xr (dmacStep f.mx n (rdA e 8) xa) ++ upd yr (dmacStep f.my n (rdA e 9) ya) ++ [mac]
    .done e { writes := ws } s

def execDmac (e : Nat) (f : DFmt) (s : State) : Host.Outcome State Fault Refusal :=
  let mods := (if f.mx == 3 then [Reg.a 8] else []) ++ (if f.my == 3 then [Reg.a 9] else [])
  .next (issue e (encD f) false (f.rsv != 0 || f.size == 3) ([Reg.a f.ax.toNat, Reg.a (4 + f.ay.toNat)] ++ mods)
    (some f.acc.toNat) false (dmacBody f) s)

/-- An ACC function: the accumulator a in d[23:22], d[25:24] reserved; `rsv` covers s and t, `srcs` what it
reads beside. -/
def doAcc (p func : Nat) (f : RFmt) (rsv : Bool) (srcs : List Reg) (v : Engine → BitVec 72) (s : State) : State :=
  let a := f.d.toNat % 4
  issue p (encR 0x1B func f) false (f.rsv != 0 || f.d.toNat ≥ 4 || rsv) (Reg.acc a :: srcs) none false
    (plain fun e => [{ reg := .acc a, lat := 1, value := v e }]) s

/-- ACCCLR. -/
def execAccclr (e : Nat) (f : RFmt) (s : State) : Host.Outcome State Fault Refusal :=
  .next (doAcc e 0 f (f.s != 0 || f.t != 0) [] (fun _ => 0) s)

/-- ACCMOV: b in s[19:18], s[21:20] reserved. -/
def execAccmov (e : Nat) (f : RFmt) (s : State) : Host.Outcome State Fault Refusal :=
  .next (doAcc e 1 f (f.s.toNat ≥ 4 || f.t != 0) [.acc (f.s.toNat % 4)] (fun x => rdAcc x (f.s.toNat % 4)) s)

/-- ACCADD. -/
def execAccadd (e : Nat) (f : RFmt) (s : State) : Host.Outcome State Fault Refusal :=
  .next (doAcc e 2 f (f.s.toNat ≥ 4 || f.t != 0) [.acc (f.s.toNat % 4)]
    (fun x => rdAcc x (f.d.toNat % 4) + rdAcc x (f.s.toNat % 4)) s)

/-- ACCLDP: PH:PL sign-extended. -/
def execAccldp (e : Nat) (f : RFmt) (s : State) : Host.Outcome State Fault Refusal :=
  .next (doAcc e 3 f (f.s != 0 || f.t != 0) [] (fun x => (x.ph ++ x.pl).signExtend 72) s)

/-- ACCLDD: Ds sign-extended. -/
def execAccldd (e : Nat) (f : RFmt) (s : State) : Host.Outcome State Fault Refusal :=
  .next (doAcc e 4 f (f.t != 0) [.d f.s.toNat] (fun x => (rdD x f.s.toNat).signExtend 72) s)

/-- ACCNEG. -/
def execAccneg (e : Nat) (f : RFmt) (s : State) : Host.Outcome State Fault Refusal :=
  .next (doAcc e 5 f (f.s != 0 || f.t != 0) [] (fun x => -(rdAcc x (f.d.toNat % 4))) s)

/-- The value ACCRD reads (R294): rounding, arithmetic shift, and the clamp of SAT. DEDUCED: log entry 66. -/
def accRead (acc : BitVec 72) (amount : Nat) (rnd : Bool) (sat : Nat) : Word :=
  let v := if rnd && amount ≥ 1 then acc + BitVec.ofNat 72 (2 ^ (amount - 1)) else acc
  let i := (v.sshiftRight amount).toInt
  let clamp (lo hi : Int) : Word := BitVec.ofInt 32 (max lo (min hi i))
  match sat with
  | 0 => BitVec.ofInt 32 i
  | 1 => clamp (-2147483648) 2147483647
  | _ => clamp (-32768) 32767

/-- ACCRD: s[21:20], SAT 0b11 and imm18[17:9] are reserved. -/
def execAccrd (e : Nat) (f : IFmt) (s : State) : Host.Outcome State Fault Refusal :=
  let i := f.imm.toNat
  let b := f.s.toNat % 4
  .next (issue e (encI 0x1D f) false (f.s.toNat ≥ 4 || i / 128 % 4 == 3 || i / 512 != 0) [.d f.d.toNat, .acc b] none false
    (plain fun x => [wr (.d f.d.toNat) 2 (accRead (rdAcc x b) (i % 64) (i / 64 % 2 == 1) (i / 128 % 4))]) s)

/-- The value of a special register (Table 7.2). -/
def special (e : Engine) (i : Nat) : Word :=
  match i with
  | 0 => e.ph
  | 1 => e.pl
  | 2 => (flagsOf e.n e.z e.c e.v).setWidth 32
  | 3 => BitVec.ofNat 32 ((if e.openMode then 1 else 0) + 2 * e.cluster)
  | 4 => e.slim
  | _ => BitVec.ofNat 32 ((e.loops.head?.map (·.left)).getD 0)

/-- MOVS read: an index of 6 to 15 is reserved (R264); t is reserved. -/
def execMovsRead (e : Nat) (f : RFmt) (s : State) : Host.Outcome State Fault Refusal :=
  .next (issue e (encR 0x1C 0 f) false (f.rsv != 0 || f.t != 0 || f.s.toNat ≥ 6) [.d f.d.toNat] none false
    (plain fun x => [wr (.d f.d.toNat) 1 (special x f.s.toNat)]) s)

/-- MOVS write: only PH, PL and FLAGS may be written (R264). -/
def execMovsWrite (e : Nat) (f : RFmt) (s : State) : Host.Outcome State Fault Refusal :=
  let dst : Reg := match f.d.toNat with
    | 0 => .ph
    | 1 => .pl
    | _ => .flags
  .next (issue e (encR 0x1C 1 f) false (f.rsv != 0 || f.t != 0 || f.d.toNat ≥ 3) [.d f.s.toNat] none false
    (plain fun x => [wr dst 1 (rdD x f.s.toNat)]) s)

end Sys2Proof.Machine
end

