-- ==== Sys2Proof/Machine/Sideband.lean ====
section
/-! DEFINITION. Writes of registers that have no command of their own (R8 to R10, R435, R66, R70), NVMe-MI (R439), SPDM
(R423, R424) and the TAP (R578). -/

namespace Sys2Proof.Machine

/-! ### Writes of the device window -/

/-- MBX_DOORBELL: the request starts, unless another is in progress (R435, R436). It is a wake event (R503).
PRESUMED: log entry 48. -/
def writeDoorbell (f : Fn) (c : Ctrl) (v : Nat) (s : State) : State :=
  let len := v % 8192
  if len < 16 || len > 4096 || len % 4 ≠ 0 then devWinErr f 0 s
  else if c.mbx.busy then s.setCtrl f fun c => { c with mbx := { c.mbx with overrun := true } }
  else wake (s.setCtrl f fun c => { c with mbx := { c.mbx with busy := true, doorbell := some len } })

/-- MBX_CTRL: VECTOR above 2,048 is a reserved encoding (R435). PRESUMED: log entry 48. -/
def writeMbxCtrl (f : Fn) (v : Nat) (s : State) : State :=
  let vector := v / 2 % 4096
  if vector > 2048 then devWinErr f 8 s
  else s.setCtrl f fun c => { c with mbx := { c.mbx with irqEn := v.testBit 0, vector := vector } }

/-- FIRN_EPOCH_CTRL with GO 0 stores COUNT; 0 is a reserved encoding (R29, R66). PRESUMED: log entry 48. -/
def writeEpochCount (f : Fn) (v : Nat) (s : State) : State :=
  if v % 65536 = 0 then devWinErr f 0x3028 s else s.setCtrl f fun c => { c with epochCount := v % 65536 }

/-- DEVWIN_ERR: REGERR clears with OFFSET; MULTI clears when 1 is written to it (R453). PRESUMED: log entry 48. -/
def writeDevErr (f : Fn) (v : Nat) (s : State) : State :=
  s.setCtrl f fun c => { c with
    devErr := { regErr := c.devErr.regErr && !v.testBit 0,
                multi := c.devErr.multi && !v.testBit 1,
                offset := if v.testBit 0 then 0 else c.devErr.offset } }

/-- A 32-bit write to the device window of a function: the fields that R8's codes let it change. The epoch registers
belong to the function that the plan names, and read as zero elsewhere (R28). Every other field is RO.
PRESUMED: log entry 48. -/
def writeWindow (f : Fn) (c : Ctrl) (off : Nat) (value : Word) (s : State) : State :=
  let v := value.toNat
  if off = 0 then writeDoorbell f c v s
  else if off = 4 then
    if v.testBit 1 then s.setCtrl f fun c => { c with mbx := { c.mbx with overrun := false } } else s
  else if off = 8 then writeMbxCtrl f v s
  else if off = 12 then
    if v.testBit 0 then s.setCtrl f fun c => { c with mbx := { c.mbx with done := false } } else s
  else if 0x1000 ≤ off && off < 0x2000 then
    s.setCtrl f fun c => { c with mbx := { c.mbx with reqBuf := Memory.writeN c.mbx.reqBuf (off - 0x1000) (le 4 v) } }
  else if off = 0x3020 then if epochFunction s f then s.setCtrl f fun c => { c with epochLo := value } else s
  else if off = 0x3024 then if epochFunction s f then s.setCtrl f fun c => { c with epochHi := value } else s
  else if off = 0x3028 then
    if v.testBit 16 then epochWrite f (v % 65536) s else if epochFunction s f then writeEpochCount f v s else s
  else if off = 0x8000 then writeDevErr f v s
  else s

/-! ### Writes of BAR0 and BAR4 -/

/-- Half of a 64-bit register takes a 32-bit write. -/
def setHalf (high : Bool) (v old : Nat) : Nat := if high then v * 2 ^ 32 + old % 2 ^ 32 else old / 2 ^ 32 * 2 ^ 32 + v

/-- The registers of BAR0 that have no command of their own (NVMe Base 2.1): INTMS and INTMC; MPS, AMS, IOSQES and IOCQES of
CC; and, of a controller that is not enabled, AQA, ASQ and ACQ, whose low 12 bits are reserved. CC.EN, CC.CSS, CC.SHN and
the doorbells have commands of their own, and the other registers are RO (R10, R75). PRESUMED: log entry 48. -/
def writeController (f : Fn) (c : Ctrl) (off : Nat) (v : Nat) (s : State) : State :=
  let base (v : Nat) : Nat := v / 4096 * 4096
  if off = 0x0C then s.setCtrl f fun c => { c with intMask := c.intMask ||| v }
  else if off = 0x10 then s.setCtrl f fun c => { c with intMask := c.intMask &&& (0xFFFFFFFF - v) }
  else if c.en then s
  else if off = 0x14 then s.setCtrl f fun c => { c with ccBits := v &&& 0x00FF3F80 }
  else if off = 0x24 then
    s.setCtrl f fun c => { c with
      asq := { c.asq with size := v % 4096 + 1 }
      acq := { c.acq with size := v / 65536 % 4096 + 1 } }
  else if off = 0x28 then s.setCtrl f fun c => { c with asqBase := setHalf false (base v) c.asqBase }
  else if off = 0x2C then s.setCtrl f fun c => { c with asqBase := setHalf true v c.asqBase }
  else if off = 0x30 then s.setCtrl f fun c => { c with acqBase := setHalf false (base v) c.acqBase }
  else if off = 0x34 then s.setCtrl f fun c => { c with acqBase := setHalf true v c.acqBase }
  else s

/-- The vectors whose pending message goes out once their mask bit is clear. -/
def sendUnmasked (f : Fn) (s : State) : State :=
  match s.ctrl? f with
  | none => s
  | some c => c.msixPending.foldl (fun s v => sendMsix f v s) (s.setCtrl f fun c => { c with msixPending := [] })

/-- A write to the MSI-X table stores; the pending bit array is RO (R70). PRESUMED: log entry 48. -/
def writeMsix (f : Fn) (off : Nat) (v : Nat) (s : State) : State :=
  if off < 2049 * 16 then
    sendUnmasked f (s.setCtrl f fun c => { c with msixTable := Memory.writeN c.msixTable off (le 4 v) })
  else s

/-- REGISTER_WRITE: a 32-bit write that reaches a BAR of the function, at an offset that 4 divides.
PRESUMED: log entry 48. -/
def execRegisterWrite (t : Tick) (f : Fn) (bar offset : Nat) (value : Word) (s : State) :
    Host.Outcome State Fault Refusal :=
  let s := s.arrive t
  .next (match s.ctrl? f with
    | none => s
    | some c =>
      if !hostReaches s f || offset % 4 ≠ 0 then s
      else match bar with
      | 0 => writeController f c offset value.toNat s
      | 2 => writeWindow f c offset value s
      | 4 => writeMsix f offset value.toNat s
      | _ => s)

/-! ### The response limit (R442) -/

/-- The events that may answer a request in progress (R442). -/
def answerEvents : Instr → Option (Tick × (State → Host.Outcome State Fault Refusal))
  | .norWriteComplete t => some (t, execNorWriteComplete t)
  | .programComplete t d ok => some (t, execProgramComplete t d ok)
  | .deviceShutdown t => some (t, execDeviceShutdown t)
  | .beatBoundary t => some (t, execBeatBoundary t)
  | .nodeEnd t asn node rep st detail => some (t, execNodeEnd t asn node rep st detail)
  | .tenantStopGraceExpiry t tenant => some (t, execTenantStopGraceExpiry t tenant)
  | .handoverStandbyReady t ok => some (t, execHandoverStandbyReady t ok)
  | .handoverPauseEnd t => some (t, execHandoverPauseEnd t)
  | _ => none

/-- MAILBOX_TIMEOUT: the response limit passes, and TIMEOUT is posted while the request runs on; a response of the limit's
tick stands in its place (R65, R442). -/
def execMailboxTimeout (t : Tick) (ep : Endpoint) (s : State) : Host.Outcome State Fault Refusal :=
  let s := s.arrive t
  .next (match (s.ep ep).executing with
    | none => s
    | some (q, op, limit, timed) =>
      let answered := ((s.replay answerEvents limit).ep ep).executing.map (·.1) != some q
      if timed || !s.expired limit || s.pfail.stopped || answered then s
      else
        -- a hand-over that has failed leaves its request nothing to run on to (R550)
        let over_ := op = 0x0802 && s.fw.handover.isNone
        deliver q op msTimeout [] (s.setEp ep fun x =>
          if over_ then { x with executing := none, stored := some (q.seq, op, msTimeout, []) }
          else { x with executing := some (q, op, limit, true) }))

/-! ### NVMe-MI (R439) -/

/-- The device takes messages of its sidebands and DOE mailboxes: the endpoint exists, the firmware runs, and service is
not stopped (R180); a DOE mailbox needs its port's link. PRESUMED: log entry 82. -/
def sidebandOpen (s : State) (e : Endpoint) : Bool :=
  endpointOk s e && linksFree s && !s.pfail.stopped && (match e with
  | .fn f => hostReaches s f
  | .mctp .. => true)

/-- Serve an NVMe-MI message of an MCTP endpoint. Any MCTP message is a wake event (R503). PRESUMED: log entry 82. -/
def miServe (t : Tick) (ep : Endpoint) (data : State → Option (List Byte)) (s : State) : State :=
  let s := s.arrive t
  match ep with
  | .fn _ => s
  | .mctp .. =>
    if !sidebandOpen s ep then s
    else
      let s := wake s
      match data s with
      | none => s.emit (.mi ep false [])
      | some bs => s.emit (.mi ep true bs)

/-- Functions that a tenant's record exposes (R69). PRESUMED: log entry 82. -/
def exposedFns (s : State) : List Fn :=
  (s.tenants.flatMap fun t => [⟨t.num, .a⟩, ⟨t.num, .b⟩]).filter fun f => s.hasFn f && exposed s f

/-- Bytes that NVMe-MI 2.0 fixes and the spec does not give. PRESUMED: log entry 12, PRESUMED: log entry 82. -/
def miBytes (msg n : Nat) : List Byte := (List.range n).map (Config.miByte msg)

/-- READ_NVME_MI_DATA_STRUCTURE: data structure types 0 to 5 of NVMe-MI 2.0. -/
def execReadNvmeMiDataStructure (t : Tick) (ep : Endpoint) (kind : Nat) (s : State) : Host.Outcome State Fault Refusal :=
  .next (miServe t ep (fun s => match kind with
    | 2 => some (cntlidList 0 (exposedFns s))
    | _ => if kind ≤ 5 then some (miBytes kind 32) else none) s)

/-- The temperature that a sideband reports, in whole degrees within one byte. -/
def miTemp (s : State) : Nat := (max 0 (min 127 s.power.tj)).toNat

/-- NVM_SUBSYSTEM_HEALTH_STATUS_POLL: the links that are up and the drive's function, the SMART warnings (inverted), the
temperature and the percentage used; the composite controller status is NVMe-MI's own. -/
def execNvmSubsystemHealthStatusPoll (t : Tick) (ep : Endpoint) (s : State) : Host.Outcome State Fault Refusal :=
  .next (miServe t ep (fun s =>
    let b (x : Bool) : Nat := if x then 1 else 0
    let nss := 4 * b s.linkB.up + 8 * b s.linkA.up + 16 + 32 * b s.serving
    some (le 1 nss ++ le 1 (255 - criticalWarning s) ++ le 1 (miTemp s) ++ le 1 (percentUsed s) ++ miBytes 8 2 ++ zeros 2)) s)

/-- CONTROLLER_HEALTH_STATUS_POLL: one entry for each controller. -/
def execControllerHealthStatusPoll (t : Tick) (ep : Endpoint) (s : State) : Host.Outcome State Fault Refusal :=
  .next (miServe t ep (fun s =>
    let one (f : Fn) : List Byte :=
      let c := (s.ctrl? f).getD { fn := f }
      let csts := (if c.rdy then 1 else 0) + (if c.cfs then 2 else 0) + 4 * c.shst
      le 2 (cntlid f) ++ le 2 csts ++ le 2 (miTemp s + 273) ++ le 1 (percentUsed s) ++ le 1 (availableSpare s)
        ++ le 1 (criticalWarning s) ++ zeros 7
    some ((exposedFns s).flatMap one)) s)

/-- CONFIGURATION_GET: identifiers 1 to 3 of NVMe-MI 2.0. No message sets a configuration, so its bytes are fixed. -/
def execConfigurationGet (t : Tick) (ep : Endpoint) (id : Nat) (s : State) : Host.Outcome State Fault Refusal :=
  .next (miServe t ep (fun _ => if 1 ≤ id && id ≤ 3 then some (miBytes (256 + id) 3) else none) s)

/-- UNSUPPORTED_NVME_MI_MESSAGE: Invalid Parameter. -/
def execUnsupportedNvmeMiMessage (t : Tick) (ep : Endpoint) (s : State) : Host.Outcome State Fault Refusal :=
  .next (miServe t ep (fun _ => none) s)

/-! ### SPDM (R423, R424) -/

/-- Serve an SPDM request on the DOE mailbox of a PF or on an MCTP binding; `none` is answered with ERROR.
PRESUMED: log entry 82. -/
def spdmServe (t : Tick) (ep : Endpoint) (code : Nat) (run : State → Option (List Byte) × State) (s : State) : State :=
  let s := s.arrive t
  let pf : Bool := match ep with
    | .fn f => f.tenant == 0
    | .mctp .. => true
  if !pf || !sidebandOpen s ep then s
  else
    let s := match ep with
      | .fn _ => s
      | .mctp .. => wake s
    let (data, s) := run s
    match data with
    | none => s.emit (.spdm ep 0x7F [])
    | some bs => s.emit (.spdm ep code bs)

/-- GET_VERSION: 1.2 and 1.3. -/
def execGetVersion (t : Tick) (ep : Endpoint) (s : State) : Host.Outcome State Fault Refusal :=
  .next (spdmServe t ep 0x04 (fun s => (some ([0, 2] ++ le 2 0x1200 ++ le 2 0x1300), s)) s)

/-- GET_CAPABILITIES: CERT, CHAL, and MEAS with signature. -/
def execGetCapabilities (t : Tick) (ep : Endpoint) (s : State) : Host.Outcome State Fault Refusal :=
  .next (spdmServe t ep 0x61 (fun s => (some (le 4 (2 + 4 + 16)), s)) s)

/-- NEGOTIATE_ALGORITHMS: ECDSA P-384 and SHA-384, and no others. -/
def execNegotiateAlgorithms (t : Tick) (ep : Endpoint) (ecdsaP384 sha384 : Bool) (s : State) :
    Host.Outcome State Fault Refusal :=
  .next (spdmServe t ep 0x63 (fun s => (if ecdsaP384 && sha384 then some (le 4 0x80 ++ le 4 2) else none, s)) s)

/-- GET_DIGESTS: the digest of the chain of slot 0. -/
def execGetDigests (t : Tick) (ep : Endpoint) (s : State) : Host.Outcome State Fault Refusal :=
  .next (spdmServe t ep 0x01 (fun s => (some (le 1 1 ++ Config.sha384 (Config.certificate 0)), s)) s)

/-- GET_CERTIFICATE: a portion of the chain of slot 0, with the length of the portion and of what remains. -/
def execGetCertificate (t : Tick) (ep : Endpoint) (slot offset length : Nat) (s : State) :
    Host.Outcome State Fault Refusal :=
  .next (spdmServe t ep 0x02 (fun s =>
    let cert := Config.certificate 0
    if slot ≠ 0 || offset ≥ cert.length then (none, s)
    else
      let part := (cert.drop offset).take length
      (some (le 2 part.length ++ le 2 (cert.length - offset - part.length) ++ part), s)) s)

/-- A measurement block (Table 10.8). PRESUMED: log entry 82. -/
def measurementBlock (s : State) (index : Nat) : List Byte :=
  let image (i : Nat) : List Byte := match fwSlot s i with
    | none => zeros 52
    | some im => pad 48 im.digest ++ le 4 im.svn
  match index with
  | 1 => Config.measurement 1
  | 2 => image s.fw.active
  | 3 => image (1 - s.fw.active)
  | 4 => le 4 s.fw.minSvn ++ le 1 s.fw.revoked
  | 5 => le 8 s.settings.gen ++ Config.sha384 (bankBytes s.settings.gen (setInForce s))
  | 6 => if s.owner.cred.isEmpty then zeros 48 else Config.sha384 s.owner.cred
  | 7 => le 1 (if s.owner.unlocked then 1 else 0) ++ le 4 s.owner.unlocks
  | 8 => orderingCode
  | _ => []

/-- Blocks as SPDM lists them: index and contents. PRESUMED: log entry 82. -/
def measurementList (s : State) (index : Nat) : List Byte :=
  let one (i : Nat) : List Byte := le 1 i ++ le 2 (measurementBlock s i).length ++ measurementBlock s i
  if index = 0xFF then ((List.range 8).map (· + 1)).flatMap one else if index = 0 then [] else one index

/-- SPDM_CHALLENGE: signed with the identity key over the requester's nonce and the device's. -/
def execSpdmChallenge (t : Tick) (ep : Endpoint) (slot : Nat) (nonce : List Byte) (s : State) :
    Host.Outcome State Fault Refusal :=
  .next (spdmServe t ep 0x03 (fun s =>
    if slot ≠ 0 then (none, s)
    else
      let (mine, s) := draw 32 s
      let said := Config.sha384 (Config.certificate 0) ++ mine ++ Config.sha384 (measurementList s 0xFF)
      (some (said ++ Config.spdmSign (nonce ++ said)), s)) s)

/-- GET_MEASUREMENTS: index 0 the number of blocks, 1 to 8 one block, 0xFF all of them, signed (R424). -/
def execGetMeasurements (t : Tick) (ep : Endpoint) (index : Nat) (nonce : List Byte) (s : State) :
    Host.Outcome State Fault Refusal :=
  .next (spdmServe t ep 0x60 (fun s =>
    if index > 8 && index ≠ 0xFF then (none, s)
    else
      let (mine, s) := draw 32 s
      let count := if index = 0 then 8 else if index = 0xFF then 8 else 1
      let said := le 1 count ++ measurementList s index ++ mine
      (some (said ++ Config.spdmSign (nonce ++ said)), s)) s)

/-! ### JTAG -/

/-- JTAG_TAP_RESET: IDCODE is current again; the TAP runs whether PWRGD is high or low (R578).
DESIGN CHOICE: log entry 90. -/
def execJtagTapReset (t : Tick) (s : State) : Host.Outcome State Fault Refusal :=
  .next { s.arrive t with tap := .idcode }

end Sys2Proof.Machine
end

