-- ==== Sys2Proof/Machine/Dispatch.lean ====
section
/-! DEFINITION. One arm per command: a direct call of its meaning. -/

namespace Sys2Proof.Machine

def exec (i : Instr) (s : State) : Host.Outcome State Fault Refusal :=
  match i with
  | .pwrgdRise t bootsel portcfg => Sys2Proof.Machine.execPwrgdRise t bootsel portcfg s
  | .pwrgdFall t => Sys2Proof.Machine.execPwrgdFall t s
  | .sysclkFault t => Sys2Proof.Machine.execSysclkFault t s
  | .deviceReady t => Sys2Proof.Machine.execDeviceReady t s
  | .pfailAssert t => Sys2Proof.Machine.execPfailAssert t s
  | .pfailDeassert t => Sys2Proof.Machine.execPfailDeassert t s
  | .pfailResume t => Sys2Proof.Machine.execPfailResume t s
  | .holdupOkChange t level => Sys2Proof.Machine.execHoldupOkChange t level s
  | .holdupOkStable t => Sys2Proof.Machine.execHoldupOkStable t s
  | .holdupProofLapse t => Sys2Proof.Machine.execHoldupProofLapse t s
  | .holdupTestDue t => Sys2Proof.Machine.execHoldupTestDue t s
  | .holdupTestComplete t => Sys2Proof.Machine.execHoldupTestComplete t s
  | .deviceShutdown t => Sys2Proof.Machine.execDeviceShutdown t s
  | .liveSettingsBankWrite t => Sys2Proof.Machine.execLiveSettingsBankWrite t s
  | .cycinEdge t level => Sys2Proof.Machine.execCycinEdge t level s
  | .cycinFilterDecision t first falling confirmed => Sys2Proof.Machine.execCycinFilterDecision t first falling confirmed s
  | .epochEdge t => Sys2Proof.Machine.execEpochEdge t s
  | .epochSeriesSwitch t => Sys2Proof.Machine.execEpochSeriesSwitch t s
  | .firnEpochGo t f count rest => Sys2Proof.Machine.execFirnEpochGo t f count rest s
  | .firnBeatLoRead t f => Sys2Proof.Machine.execFirnBeatLoRead t f s
  | .ptmDialogue t p answer => Sys2Proof.Machine.execPtmDialogue t p answer s
  | .ptmContextLapse t p => Sys2Proof.Machine.execPtmContextLapse t p s
  | .beatLoss t => Sys2Proof.Machine.execBeatLoss t s
  | .holdoverExpire t => Sys2Proof.Machine.execHoldoverExpire t s
  | .beatBoundary t => Sys2Proof.Machine.execBeatBoundary t s
  | .windowStart t w => Sys2Proof.Machine.execWindowStart t w s
  | .maintOverrideAnnounce t task beat => Sys2Proof.Machine.execMaintOverrideAnnounce t task beat s
  | .maintOverrideEnd t => Sys2Proof.Machine.execMaintOverrideEnd t s
  | .stillSuspendPoint t w => Sys2Proof.Machine.execStillSuspendPoint t w s
  | .dieSuspended t d => Sys2Proof.Machine.execDieSuspended t d s
  | .suspendTimeout t d => Sys2Proof.Machine.execSuspendTimeout t d s
  | .stillTailEnd t => Sys2Proof.Machine.execStillTailEnd t s
  | .telemetrySnapshot t => Sys2Proof.Machine.execTelemetrySnapshot t s
  | .powerStateDecision t => Sys2Proof.Machine.execPowerStateDecision t s
  | .perstAssert t p => Sys2Proof.Machine.execPerstAssert t p s
  | .perstDeassert t p => Sys2Proof.Machine.execPerstDeassert t p s
  | .linkDown t p => Sys2Proof.Machine.execLinkDown t p s
  | .functionLevelReset t f => Sys2Proof.Machine.execFunctionLevelReset t f s
  | .controllerEnable t f css => Sys2Proof.Machine.execControllerEnable t f css s
  | .controllerDisable t f => Sys2Proof.Machine.execControllerDisable t f s
  | .controllerShutdown t f => Sys2Proof.Machine.execControllerShutdown t f s
  | .sqDoorbell t f qid tail => Sys2Proof.Machine.execSqDoorbell t f qid tail s
  | .cqDoorbell t f qid head => Sys2Proof.Machine.execCqDoorbell t f qid head s
  | .commandFetch t e => Sys2Proof.Machine.execCommandFetch t e s
  | .asnSpanLimit t slot => Sys2Proof.Machine.execAsnSpanLimit t slot s
  | .read t slot => Sys2Proof.Machine.execRead t slot s
  | .write t slot => Sys2Proof.Machine.execWrite t slot s
  | .writeZeroes t slot => Sys2Proof.Machine.execWriteZeroes t slot s
  | .datasetManagement t slot => Sys2Proof.Machine.execDatasetManagement t slot s
  | .compare t slot data => Sys2Proof.Machine.execCompare t slot data s
  | .verify t slot => Sys2Proof.Machine.execVerify t slot s
  | .flush t slot => Sys2Proof.Machine.execFlush t slot s
  | .reservationRegister t slot => Sys2Proof.Machine.execReservationRegister t slot s
  | .reservationAcquire t slot => Sys2Proof.Machine.execReservationAcquire t slot s
  | .reservationRelease t slot => Sys2Proof.Machine.execReservationRelease t slot s
  | .reservationReport t slot => Sys2Proof.Machine.execReservationReport t slot s
  | .writeDataArrival t slot piece data => Sys2Proof.Machine.execWriteDataArrival t slot piece data s
  | .stagingRoomGrant t => Sys2Proof.Machine.execStagingRoomGrant t s
  | .dataFetchFault t slot piece => Sys2Proof.Machine.execDataFetchFault t slot piece s
  | .readWaitRelease t slot => Sys2Proof.Machine.execReadWaitRelease t slot s
  | .abort t slot => Sys2Proof.Machine.execAbort t slot s
  | .abortTimerExpiry t slot => Sys2Proof.Machine.execAbortTimerExpiry t slot s
  | .asynchronousEventRequest t slot => Sys2Proof.Machine.execAsynchronousEventRequest t slot s
  | .createIoSq t slot => Sys2Proof.Machine.execCreateIoSq t slot s
  | .createIoCq t slot => Sys2Proof.Machine.execCreateIoCq t slot s
  | .deleteIoSq t slot => Sys2Proof.Machine.execDeleteIoSq t slot s
  | .deleteIoCq t slot => Sys2Proof.Machine.execDeleteIoCq t slot s
  | .setFeaturesNumberOfQueues t slot => Sys2Proof.Machine.execSetFeaturesNumberOfQueues t slot s
  | .setFeaturesArbitration t slot => Sys2Proof.Machine.execSetFeaturesArbitration t slot s
  | .setFeaturesVolatileWriteCache t slot => Sys2Proof.Machine.execSetFeaturesVolatileWriteCache t slot s
  | .setFeaturesPowerManagement t slot => Sys2Proof.Machine.execSetFeaturesPowerManagement t slot s
  | .setFeaturesApst t slot => Sys2Proof.Machine.execSetFeaturesApst t slot s
  | .setFeaturesInterruptCoalescing t slot => Sys2Proof.Machine.execSetFeaturesInterruptCoalescing t slot s
  | .getFeatures t slot => Sys2Proof.Machine.execGetFeatures t slot s
  | .identify t slot => Sys2Proof.Machine.execIdentify t slot s
  | .getLogPage t slot => Sys2Proof.Machine.execGetLogPage t slot s
  | .namespaceManagement t slot => Sys2Proof.Machine.execNamespaceManagement t slot s
  | .namespaceAttachment t slot => Sys2Proof.Machine.execNamespaceAttachment t slot s
  | .formatNvm t slot => Sys2Proof.Machine.execFormatNvm t slot s
  | .sanitize t slot => Sys2Proof.Machine.execSanitize t slot s
  | .firmwareImageDownload t slot => Sys2Proof.Machine.execFirmwareImageDownload t slot s
  | .firmwareCommit t slot => Sys2Proof.Machine.execFirmwareCommit t slot s
  | .deviceSelfTest t slot => Sys2Proof.Machine.execDeviceSelfTest t slot s
  | .nvmeMiSend t slot => Sys2Proof.Machine.execNvmeMiSend t slot s
  | .nvmeMiReceive t slot => Sys2Proof.Machine.execNvmeMiReceive t slot s
  | .virtualizationManagement t slot => Sys2Proof.Machine.execVirtualizationManagement t slot s
  | .loadProgram t slot => Sys2Proof.Machine.execLoadProgram t slot s
  | .programUnload t slot => Sys2Proof.Machine.execProgramUnload t slot s
  | .programActivationManagement t slot => Sys2Proof.Machine.execProgramActivationManagement t slot s
  | .executeProgram t slot => Sys2Proof.Machine.execExecuteProgram t slot s
  | .memoryRangeSetManagement t slot => Sys2Proof.Machine.execMemoryRangeSetManagement t slot s
  | .memoryRead t slot => Sys2Proof.Machine.execMemoryRead t slot s
  | .memoryWrite t slot => Sys2Proof.Machine.execMemoryWrite t slot s
  | .memoryFill t slot => Sys2Proof.Machine.execMemoryFill t slot s
  | .memoryCopy t slot => Sys2Proof.Machine.execMemoryCopy t slot s
  | .runRelease t asn => Sys2Proof.Machine.execRunRelease t asn s
  | .engineDispatch t pos scrubOk => Sys2Proof.Machine.execEngineDispatch t pos scrubOk s
  | .creditReturn t asn edge lane => Sys2Proof.Machine.execCreditReturn t asn edge lane s
  | .nodeEnd t asn node replica status detail => Sys2Proof.Machine.execNodeEnd t asn node replica status detail s
  | .nodeWatchdog t asn node replica => Sys2Proof.Machine.execNodeWatchdog t asn node replica s
  | .tenantStopGraceExpiry t tenant => Sys2Proof.Machine.execTenantStopGraceExpiry t tenant s
  | .tenantDrainComplete t tenant => Sys2Proof.Machine.execTenantDrainComplete t tenant s
  | .sieveChunk t unit asn node replica => Sys2Proof.Machine.execSieveChunk t unit asn node replica s
  | .feltPackChunk t inst asn node replica verified => Sys2Proof.Machine.execFeltPackChunk t inst asn node replica verified s
  | .feltUnpackChunk t inst asn node replica => Sys2Proof.Machine.execFeltUnpackChunk t inst asn node replica s
  | .grainInflate t nsid grain ok => Sys2Proof.Machine.execGrainInflate t nsid grain ok s
  | .cipherUnit t lane => Sys2Proof.Machine.execCipherUnit t lane s
  | .digestBlock t engine => Sys2Proof.Machine.execDigestBlock t engine s
  | .jobResume t unit asn node replica tagOk => Sys2Proof.Machine.execJobResume t unit asn node replica tagOk s
  | .twillGet t asn node => Sys2Proof.Machine.execTwillGet t asn node s
  | .twillFloor t asn node => Sys2Proof.Machine.execTwillFloor t asn node s
  | .twillCeil t asn node => Sys2Proof.Machine.execTwillCeil t asn node s
  | .twillNext t asn node => Sys2Proof.Machine.execTwillNext t asn node s
  | .twillScan t asn node => Sys2Proof.Machine.execTwillScan t asn node s
  | .twillInsert t asn node => Sys2Proof.Machine.execTwillInsert t asn node s
  | .twillPut t asn node => Sys2Proof.Machine.execTwillPut t asn node s
  | .twillReplace t asn node => Sys2Proof.Machine.execTwillReplace t asn node s
  | .twillDelete t asn node => Sys2Proof.Machine.execTwillDelete t asn node s
  | .twillBulkEntry t asn node => Sys2Proof.Machine.execTwillBulkEntry t asn node s
  | .twillBackgroundScan t bad => Sys2Proof.Machine.execTwillBackgroundScan t bad s
  | .add e f => Sys2Proof.Machine.execAdd e f s
  | .sub e f => Sys2Proof.Machine.execSub e f s
  | .and e f => Sys2Proof.Machine.execAnd e f s
  | .or e f => Sys2Proof.Machine.execOr e f s
  | .xor e f => Sys2Proof.Machine.execXor e f s
  | .andn e f => Sys2Proof.Machine.execAndn e f s
  | .shl e f => Sys2Proof.Machine.execShl e f s
  | .shr e f => Sys2Proof.Machine.execShr e f s
  | .sar e f => Sys2Proof.Machine.execSar e f s
  | .ror e f => Sys2Proof.Machine.execRor e f s
  | .min e f => Sys2Proof.Machine.execMin e f s
  | .max e f => Sys2Proof.Machine.execMax e f s
  | .minu e f => Sys2Proof.Machine.execMinu e f s
  | .maxu e f => Sys2Proof.Machine.execMaxu e f s
  | .abs e f => Sys2Proof.Machine.execAbs e f s
  | .sexth e f => Sys2Proof.Machine.execSexth e f s
  | .sextb e f => Sys2Proof.Machine.execSextb e f s
  | .zexth e f => Sys2Proof.Machine.execZexth e f s
  | .zextb e f => Sys2Proof.Machine.execZextb e f s
  | .mov e f => Sys2Proof.Machine.execMov e f s
  | .clz e f => Sys2Proof.Machine.execClz e f s
  | .popc e f => Sys2Proof.Machine.execPopc e f s
  | .addi e f => Sys2Proof.Machine.execAddi e f s
  | .andi e f => Sys2Proof.Machine.execAndi e f s
  | .ori e f => Sys2Proof.Machine.execOri e f s
  | .xori e f => Sys2Proof.Machine.execXori e f s
  | .shi e f => Sys2Proof.Machine.execShi e f s
  | .movi e f => Sys2Proof.Machine.execMovi e f s
  | .movhi e f => Sys2Proof.Machine.execMovhi e f s
  | .cmp e f => Sys2Proof.Machine.execCmp e f s
  | .tst e f => Sys2Proof.Machine.execTst e f s
  | .cmpi e f => Sys2Proof.Machine.execCmpi e f s
  | .tsti e f => Sys2Proof.Machine.execTsti e f s
  | .adda e f => Sys2Proof.Machine.execAdda e f s
  | .suba e f => Sys2Proof.Machine.execSuba e f s
  | .movaa e f => Sys2Proof.Machine.execMovaa e f s
  | .movad e f => Sys2Proof.Machine.execMovad e f s
  | .movda e f => Sys2Proof.Machine.execMovda e f s
  | .cmpa e f => Sys2Proof.Machine.execCmpa e f s
  | .addai e f => Sys2Proof.Machine.execAddai e f s
  | .movai e f => Sys2Proof.Machine.execMovai e f s
  | .movahi e f => Sys2Proof.Machine.execMovahi e f s
  | .ld e f => Sys2Proof.Machine.execLd e f s
  | .st e f => Sys2Proof.Machine.execSt e f s
  | .lda e f => Sys2Proof.Machine.execLda e f s
  | .sta e f => Sys2Proof.Machine.execSta e f s
  | .inDataPop e f => Sys2Proof.Machine.execInDataPop e f s
  | .inStatRead e f => Sys2Proof.Machine.execInStatRead e f s
  | .inSkip e f => Sys2Proof.Machine.execInSkip e f s
  | .outDataPush e f => Sys2Proof.Machine.execOutDataPush e f s
  | .flushPort e f => Sys2Proof.Machine.execFlushPort e f s
  | .endPort e f => Sys2Proof.Machine.execEndPort e f s
  | .muls e f => Sys2Proof.Machine.execMuls e f s
  | .mulu e f => Sys2Proof.Machine.execMulu e f s
  | .macs e f => Sys2Proof.Machine.execMacs e f s
  | .macu e f => Sys2Proof.Machine.execMacu e f s
  | .msus e f => Sys2Proof.Machine.execMsus e f s
  | .msuu e f => Sys2Proof.Machine.execMsuu e f s
  | .dmac e f => Sys2Proof.Machine.execDmac e f s
  | .accclr e f => Sys2Proof.Machine.execAccclr e f s
  | .accmov e f => Sys2Proof.Machine.execAccmov e f s
  | .accadd e f => Sys2Proof.Machine.execAccadd e f s
  | .accldp e f => Sys2Proof.Machine.execAccldp e f s
  | .accldd e f => Sys2Proof.Machine.execAccldd e f s
  | .accneg e f => Sys2Proof.Machine.execAccneg e f s
  | .accrd e f => Sys2Proof.Machine.execAccrd e f s
  | .movsRead e f => Sys2Proof.Machine.execMovsRead e f s
  | .movsWrite e f => Sys2Proof.Machine.execMovsWrite e f s
  | .fadd e f => Sys2Proof.Machine.execFadd e f s
  | .fsub e f => Sys2Proof.Machine.execFsub e f s
  | .fmul e f => Sys2Proof.Machine.execFmul e f s
  | .fma e f => Sys2Proof.Machine.execFma e f s
  | .fms e f => Sys2Proof.Machine.execFms e f s
  | .fmin e f => Sys2Proof.Machine.execFmin e f s
  | .fmax e f => Sys2Proof.Machine.execFmax e f s
  | .fabs e f => Sys2Proof.Machine.execFabs e f s
  | .fneg e f => Sys2Proof.Machine.execFneg e f s
  | .fcmp e f => Sys2Proof.Machine.execFcmp e f s
  | .fcmpz e f => Sys2Proof.Machine.execFcmpz e f s
  | .ftoi e f => Sys2Proof.Machine.execFtoi e f s
  | .ftoin e f => Sys2Proof.Machine.execFtoin e f s
  | .ftou e f => Sys2Proof.Machine.execFtou e f s
  | .itof e f => Sys2Proof.Machine.execItof e f s
  | .utof e f => Sys2Proof.Machine.execUtof e f s
  | .b e f => Sys2Proof.Machine.execB e f s
  | .jr e f => Sys2Proof.Machine.execJr e f s
  | .call e f => Sys2Proof.Machine.execCall e f s
  | .ret e rsv => Sys2Proof.Machine.execRet e rsv s
  | .loop e f => Sys2Proof.Machine.execLoop e f s
  | .nop e f => Sys2Proof.Machine.execNop e f s
  | .halt e f => Sys2Proof.Machine.execHalt e f s
  | .brk e f => Sys2Proof.Machine.execBrk e f s
  | .drain e f => Sys2Proof.Machine.execDrain e f s
  | .dieReadComplete t d page => Sys2Proof.Machine.execDieReadComplete t d page s
  | .programComplete t d ok => Sys2Proof.Machine.execProgramComplete t d ok s
  | .eraseComplete t d ok => Sys2Proof.Machine.execEraseComplete t d ok s
  | .diePollTimeout t d => Sys2Proof.Machine.execDiePollTimeout t d s
  | .dieResetTimeout t d found => Sys2Proof.Machine.execDieResetTimeout t d found s
  | .channelBusFault t fault => Sys2Proof.Machine.execChannelBusFault t fault s
  | .grainDrain t nsid grain unit => Sys2Proof.Machine.execGrainDrain t nsid grain unit s
  | .journalWrite t => Sys2Proof.Machine.execJournalWrite t s
  | .mapPageLoadComplete t nsid page fromShelf tagOk => Sys2Proof.Machine.execMapPageLoadComplete t nsid page fromShelf tagOk s
  | .dramUncorrectable t ch row user => Sys2Proof.Machine.execDramUncorrectable t ch row user s
  | .dramRetrainingComplete t ok stallUs => Sys2Proof.Machine.execDramRetrainingComplete t ok stallUs s
  | .sramCorrection t cls mcr offset uncorrectable testFails => Sys2Proof.Machine.execSramCorrection t cls mcr offset uncorrectable testFails s
  | .scrubPatrol t dram => Sys2Proof.Machine.execScrubPatrol t dram s
  | .scrubPassComplete t corrected uncorrectable remapped => Sys2Proof.Machine.execScrubPassComplete t corrected uncorrectable remapped s
  | .ownershipReclaim t p => Sys2Proof.Machine.execOwnershipReclaim t p s
  | .psEntryComplete t => Sys2Proof.Machine.execPsEntryComplete t s
  | .psExitComplete t => Sys2Proof.Machine.execPsExitComplete t s
  | .avsAck t => Sys2Proof.Machine.execAvsAck t s
  | .avsTimeout t => Sys2Proof.Machine.execAvsTimeout t s
  | .pmbusTimeout t => Sys2Proof.Machine.execPmbusTimeout t s
  | .pmbAlert t statusWord => Sys2Proof.Machine.execPmbAlert t statusWord s
  | .powerSample t averageMw tj => Sys2Proof.Machine.execPowerSample t averageMw tj s
  | .thermalShutdown t => Sys2Proof.Machine.execThermalShutdown t s
  | .led1Timeout t => Sys2Proof.Machine.execLed1Timeout t s
  | .rimeFlushComplete t => Sys2Proof.Machine.execRimeFlushComplete t s
  | .lockstepWatchdogExpiry t => Sys2Proof.Machine.execLockstepWatchdogExpiry t s
  | .pairFault t pair cause => Sys2Proof.Machine.execPairFault t pair cause s
  | .pairStandbyReady t pair => Sys2Proof.Machine.execPairStandbyReady t pair s
  | .handoverStandbyReady t ok => Sys2Proof.Machine.execHandoverStandbyReady t ok s
  | .handoverPauseEnd t => Sys2Proof.Machine.execHandoverPauseEnd t s
  | .microcodeLoad t cluster => Sys2Proof.Machine.execMicrocodeLoad t cluster s
  | .svnRaise t => Sys2Proof.Machine.execSvnRaise t s
  | .serdesReequalisation t p => Sys2Proof.Machine.execSerdesReequalisation t p s
  | .serdesReeqComplete t p rate => Sys2Proof.Machine.execSerdesReeqComplete t p rate s
  | .sessionTimeout t ep => Sys2Proof.Machine.execSessionTimeout t ep s
  | .nonceLapse t ep => Sys2Proof.Machine.execNonceLapse t ep s
  | .sessionLockoutEnd t ep => Sys2Proof.Machine.execSessionLockoutEnd t ep s
  | .mailboxTimeout t ep => Sys2Proof.Machine.execMailboxTimeout t ep s
  | .devwinErrClear t f multi => Sys2Proof.Machine.execDevwinErrClear t f multi s
  | .registerWrite t f bar offset value => Sys2Proof.Machine.execRegisterWrite t f bar offset value s
  | .deviceInfo t q => Sys2Proof.Machine.execDeviceInfo t q s
  | .challenge t q role tenant => Sys2Proof.Machine.execChallenge t q role tenant s
  | .prove t q role tenant bulkLen => Sys2Proof.Machine.execProve t q role tenant bulkLen s
  | .close t q => Sys2Proof.Machine.execClose t q s
  | .bulkWrite t q offset data => Sys2Proof.Machine.execBulkWrite t q offset data s
  | .viewRead t q kind lid offset count => Sys2Proof.Machine.execViewRead t q kind lid offset count s
  | .setRead t q part src => Sys2Proof.Machine.execSetRead t q part src s
  | .setStage t q baseGen part rec => Sys2Proof.Machine.execSetStage t q baseGen part rec s
  | .setCommit t q baseGen => Sys2Proof.Machine.execSetCommit t q baseGen s
  | .setDiscard t q => Sys2Proof.Machine.execSetDiscard t q s
  | .setLive t q field value => Sys2Proof.Machine.execSetLive t q field value s
  | .shelfGrant t q port ranges => Sys2Proof.Machine.execShelfGrant t q port ranges s
  | .shelfWithdraw t q => Sys2Proof.Machine.execShelfWithdraw t q s
  | .tenantCreate t q rec bulkLen => Sys2Proof.Machine.execTenantCreate t q rec bulkLen s
  | .tenantDestroy t q => Sys2Proof.Machine.execTenantDestroy t q s
  | .tenantStop t q graceMs => Sys2Proof.Machine.execTenantStop t q graceMs s
  | .tenantStart t q => Sys2Proof.Machine.execTenantStart t q s
  | .tenantState t q => Sys2Proof.Machine.execTenantState t q s
  | .tenantCred t q bulkLen => Sys2Proof.Machine.execTenantCred t q bulkLen s
  | .progsignCred t q bulkLen => Sys2Proof.Machine.execProgsignCred t q bulkLen s
  | .tenantErase t q => Sys2Proof.Machine.execTenantErase t q s
  | .nsCreate t q grain still keysrc lbaf slot gen assured stretch => Sys2Proof.Machine.execNsCreate t q grain still keysrc lbaf slot gen assured stretch s
  | .nsResize t q nsid assured stretch => Sys2Proof.Machine.execNsResize t q nsid assured stretch s
  | .ownClaim t q bulkLen => Sys2Proof.Machine.execOwnClaim t q bulkLen s
  | .ownTransfer t q bulkLen => Sys2Proof.Machine.execOwnTransfer t q bulkLen s
  | .ownRelease t q => Sys2Proof.Machine.execOwnRelease t q s
  | .factoryRestore t q => Sys2Proof.Machine.execFactoryRestore t q s
  | .debugNonce t q => Sys2Proof.Machine.execDebugNonce t q s
  | .debugUnlock t q bulkLen => Sys2Proof.Machine.execDebugUnlock t q bulkLen s
  | .generate t q slot gen policy => Sys2Proof.Machine.execGenerate t q slot gen policy s
  | .derive t q slot gen policy label => Sys2Proof.Machine.execDerive t q slot gen policy label s
  | .unwrap t q slot gen blob => Sys2Proof.Machine.execUnwrap t q slot gen blob s
  | .wrap t q slot gen label => Sys2Proof.Machine.execWrap t q slot gen label s
  | .restrict t q slot gen policy => Sys2Proof.Machine.execRestrict t q slot gen policy s
  | .clear t q slot gen => Sys2Proof.Machine.execClear t q slot gen s
  | .query t q slot gen => Sys2Proof.Machine.execQuery t q slot gen s
  | .loadNsKey t q slot gen nsid => Sys2Proof.Machine.execLoadNsKey t q slot gen nsid s
  | .planRead t q => Sys2Proof.Machine.execPlanRead t q s
  | .firnEdges t q starts => Sys2Proof.Machine.execFirnEdges t q starts s
  | .progInstall t q bulkLen => Sys2Proof.Machine.execProgInstall t q bulkLen s
  | .progRemove t q progId => Sys2Proof.Machine.execProgRemove t q progId s
  | .progList t q => Sys2Proof.Machine.execProgList t q s
  | .twillStatus t q => Sys2Proof.Machine.execTwillStatus t q s
  | .rimeRead t q fromSeq count => Sys2Proof.Machine.execRimeRead t q fromSeq count s
  | .moraineInfo t q => Sys2Proof.Machine.execMoraineInfo t q s
  | .moraineRead t q offset count => Sys2Proof.Machine.execMoraineRead t q offset count s
  | .fwStage t q offset total data => Sys2Proof.Machine.execFwStage t q offset total data s
  | .fwActivate t q => Sys2Proof.Machine.execFwActivate t q s
  | .fwStatus t q => Sys2Proof.Machine.execFwStatus t q s
  | .svnCommit t q => Sys2Proof.Machine.execSvnCommit t q s
  | .recoveryStage t q offset total data => Sys2Proof.Machine.execRecoveryStage t q offset total data s
  | .scrubStart t q target start count => Sys2Proof.Machine.execScrubStart t q target start count s
  | .scrubResult t q id => Sys2Proof.Machine.execScrubResult t q id s
  | .calve t q unit => Sys2Proof.Machine.execCalve t q unit s
  | .engineTest t q unit => Sys2Proof.Machine.execEngineTest t q unit s
  | .dramRetrain t q unit => Sys2Proof.Machine.execDramRetrain t q unit s
  | .hppr t q unit => Sys2Proof.Machine.execHppr t q unit s
  | .pageIdle t q unit => Sys2Proof.Machine.execPageIdle t q unit s
  | .nrrLog2 t q unit => Sys2Proof.Machine.execNrrLog2 t q unit s
  | .nandRecal t q unit => Sys2Proof.Machine.execNandRecal t q unit s
  | .serdesReeq t q unit => Sys2Proof.Machine.execSerdesReeq t q unit s
  | .pairTest t q unit => Sys2Proof.Machine.execPairTest t q unit s
  | .holdupStatus t q => Sys2Proof.Machine.execHoldupStatus t q s
  | .shutdown t q => Sys2Proof.Machine.execShutdown t q s
  | .boardDesc t q d => Sys2Proof.Machine.execBoardDesc t q d s
  | .powerLimit t q limitMw => Sys2Proof.Machine.execPowerLimit t q limitMw s
  | .readNvmeMiDataStructure t ep kind => Sys2Proof.Machine.execReadNvmeMiDataStructure t ep kind s
  | .nvmSubsystemHealthStatusPoll t ep => Sys2Proof.Machine.execNvmSubsystemHealthStatusPoll t ep s
  | .controllerHealthStatusPoll t ep => Sys2Proof.Machine.execControllerHealthStatusPoll t ep s
  | .configurationGet t ep id => Sys2Proof.Machine.execConfigurationGet t ep id s
  | .getVersion t ep => Sys2Proof.Machine.execGetVersion t ep s
  | .getCapabilities t ep => Sys2Proof.Machine.execGetCapabilities t ep s
  | .negotiateAlgorithms t ep ecdsaP384 sha384 => Sys2Proof.Machine.execNegotiateAlgorithms t ep ecdsaP384 sha384 s
  | .getDigests t ep => Sys2Proof.Machine.execGetDigests t ep s
  | .getCertificate t ep slot offset length => Sys2Proof.Machine.execGetCertificate t ep slot offset length s
  | .spdmChallenge t ep slot nonce => Sys2Proof.Machine.execSpdmChallenge t ep slot nonce s
  | .getMeasurements t ep index nonce => Sys2Proof.Machine.execGetMeasurements t ep index nonce s
  | .jtagTapReset t => Sys2Proof.Machine.execJtagTapReset t s
  | .extest t => Sys2Proof.Machine.execExtest t s
  | .linkUp t p rate width => Sys2Proof.Machine.execLinkUp t p rate width s
  | .l12Entry t p => Sys2Proof.Machine.execL12Entry t p s
  | .l12Exit t p => Sys2Proof.Machine.execL12Exit t p s
  | .linkPartnerReequalisation t p => Sys2Proof.Machine.execLinkPartnerReequalisation t p s
  | .correctableLinkError t p => Sys2Proof.Machine.execCorrectableLinkError t p s
  | .aggregationTimeExpiry t f vector => Sys2Proof.Machine.execAggregationTimeExpiry t f vector s
  | .hostDmaComplete t slot => Sys2Proof.Machine.execHostDmaComplete t slot s
  | .dieResetComplete t d => Sys2Proof.Machine.execDieResetComplete t d s
  | .pmbusTransferComplete t value => Sys2Proof.Machine.execPmbusTransferComplete t value s
  | .norWriteComplete t => Sys2Proof.Machine.execNorWriteComplete t s
  | .startStageComplete t stage => Sys2Proof.Machine.execStartStageComplete t stage s
  | .outputFirstDrive t late => Sys2Proof.Machine.execOutputFirstDrive t late s
  | .engineSelfTestQuantumEnd t p pass => Sys2Proof.Machine.execEngineSelfTestQuantumEnd t p pass s
  | .postPackageRepairComplete t ch => Sys2Proof.Machine.execPostPackageRepairComplete t ch s
  | .regulatorFaultRetry t => Sys2Proof.Machine.execRegulatorFaultRetry t s
  | .undefinedInstruction e w => Sys2Proof.Machine.execUndefinedInstruction e w s
  | .unknownMailboxRequest t q opcode => Sys2Proof.Machine.execUnknownMailboxRequest t q opcode s
  | .unsupportedNvmeCommand t slot => Sys2Proof.Machine.execUnsupportedNvmeCommand t slot s
  | .unsupportedNvmeMiMessage t ep => Sys2Proof.Machine.execUnsupportedNvmeMiMessage t ep s
  | .mailboxTransfer t slot requestFails responseFails => Sys2Proof.Machine.execMailboxTransfer t slot requestFails responseFails s

end Sys2Proof.Machine
end

