-- ==== Sys2Proof/Machine/Step.lean ====
section
/-! DEFINITION. One step: the command at the front of the queue takes its effect. On an empty queue the
device idles. -/

namespace Sys2Proof.Machine

/-- Take the front command and run it with the queue's rest; with no command waiting nothing changes.
DESIGN CHOICE: log entry 1, DEDUCED: log entry 4, DESIGN CHOICE: log entry 91. -/
def step (s : State) : Host.Outcome State Fault Refusal :=
  match s.pending with
  | [] => .next s
  | c :: rest => exec c { s with pending := rest }

/-- Put the command that a word spells at the front of the queue; nothing where it spells none.
DEDUCED: log entry 4. -/
def State.withFetchWord (s : State) (nbits w : Nat) : State :=
  match decodeTableWord nbits w with
  | some c => { s with pending := c :: s.pending }
  | none => s

end Sys2Proof.Machine
end

