-- ==== Sys2Proof/Safety.lean ====
section
/-! DEFINITION. What statements about the device are made of. -/

namespace Sys2Proof.Machine

/-- The command answers a next state in `s`, and `P` holds of that state. -/
def Completes (c : Instr) (s : State) (P : State → Prop) : Prop := ∃ u, exec c s = .next u ∧ P u

/-- The Rime ring holds this event: in a record of the current tick, or counted in the newest record. -/
def recorded (code : Nat) (s : State) : Prop :=
  ∃ r ∈ s.rime.ring, r.1.code = code ∧ (r.1.tick = s.now ∨ s.rime.ring.getLast? = some r)

/-! ### Engines -/

/-- Physical engine `p` runs its program, and the word at its PC is `w`. -/
abbrev StandsAt (s : State) (p : Nat) (x : Engine) (w : Word) : Prop :=
  s.engine? p = some x ∧ engineRuns s x = true ∧ fetchWord x x.pc = w

/-- The engine in the cycle in which its instruction issues (R281): every write due by then has landed. -/
def atIssue (x : Engine) (regs : List Reg) (accum : Option Nat) (barrier : Bool) : Engine :=
  landTo (issueCycle x regs accum barrier) { x with cycle := issueCycle x regs accum barrier }

/-- Neither a delay slot nor the end of a loop body stands at PC (R284, R299). -/
abbrev freeOfSlots (x : Engine) : Prop := x.delay = none ∧ atBodyLast x x.pc = false

/-- Engine `p` goes on after its instruction, unless the access has ended its run. -/
def goesOn (p : Nat) (e : Engine) (fx : Fx) (s : State) : State := match s.engine? p with
  | none => s
  | some x => if x.job = e.job then s.setEngine p fun _ => advance fx e else s

/-- The instruction `c` of engine `p`, whose word is `w`, only writes the registers `ws` names, from the values they
have when it issues. -/
def WritesOnly (c : Instr) (p : Nat) (w : Word) (regs : List Reg) (accum : Option Nat) (barrier : Bool)
    (ws : Engine → List Wr) : Prop :=
  ∀ s x, StandsAt s p x w →
    exec c s = .next (s.setEngine p fun _ =>
      advance { writes := ws (atIssue x regs accum barrier) } (atIssue x regs accum barrier))

/-! ### Commands in slots -/

/-- Nothing waits for other commands to end: no command in its slot, no Sanitize, no controller shutdown. -/
def quiet (s : State) : Bool :=
  s.slots.all (·.phase != .waitEarlier) && s.tenants.all (·.sanitize.isNone) && s.ctrls.all (·.shst != 1)

/-- The command of slot record `sl` has been fetched and can run now: the device serves, no hand-over pauses it, its form is
right (Table 3.8), no Abort names it and its controller was not reset. -/
abbrev Ready (s : State) (sl : Slot) : Prop :=
  s.slot? sl.ix = some sl ∧ sl.phase = .fetched ∧ s.serving = true ∧ s.fw.pauseSince = none ∧ checkForm sl = none ∧
    sl.orphan = false ∧ sl.timers = [] ∧ (s.ctrl? sl.fn).isSome = true ∧ quiet s = true

/-- No other slot record has the number or the sequence number of `sl`, and no Abort timer names its slot. -/
abbrev Alone (s : State) (sl : Slot) : Prop :=
  ∀ x ∈ s.slots, (x ≠ sl → x.ix ≠ sl.ix ∧ x.asn ≠ sl.asn) ∧ ∀ a ∈ x.timers, a.1 ≠ sl.ix

/-- The frames of a grain lie in pages of dies in service. -/
abbrev OnDies (s : State) (n : Ns) (g : Nat) : Prop :=
  ∃ r, runOf s g (entryOf n g) = some r ∧ r.pages ≠ [] ∧
    ∀ y ∈ r.pages, ∃ d k, pageBlock s r.serial y.2 = some (d, k) ∧ (s.die d).isolated = none

/-- A namespace but for the frames charged to its commands, which the end of any command gives back (R142). -/
def Ns.free (n : Ns) : Ns := { n with charged := (0, 0) }

/-- Table 4.9 names no move to PRESERVE once the charge is taken: spare blocks, no media fault, and the pool holds the
charge (R168). -/
abbrev StaysWritable (s : State) (nsid : Nat) (charge : List (Nat × Nat)) : Prop :=
  (∀ ch < 32, 8 ≤ spareNow s ch) ∧ s.media.fault = false ∧ poolShort (takeCharge nsid charge s) = false

/-- The completion entry of the command was posted with this status and Dword 0, and its slot is free. -/
def Posted (sl : Slot) (st : Status) (dw0 : Nat) (u : State) : Prop :=
  u.slot? sl.ix = none ∧ ∃ cq, Output.cqe sl.fn cq sl.sqid sl.sqe.cid st dw0 ∈ u.outbox

/-- A submission queue of a controller, and a completion queue. -/
def sqOf (c : Ctrl) (qid : Nat) : Option Sq := if qid = 0 then some c.asq else c.sqs.find? (·.qid == qid)
def cqAt (c : Ctrl) (qid : Nat) : Option Cq := if qid = 0 then some c.acq else c.cqs.find? (·.qid == qid)

/-! ### Runs and units -/

/-- The bytes that wait to go out at an output port of a node with one replica. -/
def outBacklog (s : State) (asn node port : Nat) : Option (List Byte) :=
  (s.run? asn).bind fun r => (gOut r.image node port).bind fun o =>
    (r.lanes.find? fun l => l.edge == o && l.ix == backLane r.image o 0).map (·.backlog)

/-- A TWILL node of run `r` that may be served now, with the valid request `bs` of its operation at the head of input
edge `e`. -/
abbrev TwillReady (s : State) (op asn node : Nat) (r : GRun) (e : Nat) (bs : List Byte) : Prop :=
  s.run? asn = some r ∧ s.serving = true ∧ (gNode r.image node).typ = ntTwill ∧ s.units.twillIn = true ∧
    workPort r node 0 = 0 ∧ chunkReady r node 0 = true ∧ unitMayServe s 3 asn = true ∧ twHead r node = some (e, bs, false) ∧
    (twReq bs).valid = true ∧ (twReq bs).op = op ∧ (gOut r.image node 0).isSome = true ∧ (gIn r.image node 0) = some e

/-! ### Mailbox requests -/

/-- The request passes every check that R430 to R433 put before the role and the opcode's own rules: its carrier stands,
its message is whole and has the length of its opcode, its endpoint is free, it repeats no answered request, the device
answers the opcode now, its reserved fields are zero, its endpoint may speak for the tenant its header names (R399, R405),
and no other endpoint executes a request that it has to wait for (R434). -/
abbrev Accepted (s : State) (q : Rq) (code body : Nat) (device : Bool) : Prop :=
  mailboxAwake s = true ∧ carried s q = true ∧ q.delivered = q.length ∧ q.length = 16 + body ∧ body % 4 = 0 ∧ body ≤ 4080 ∧
    (s.ep q.ep).executing = none ∧ epBusy s q = false ∧
    ((s.ep q.ep).stored.all fun y => y.1 != q.seq || y.2.1 != code) = true ∧ answersNow s code = true ∧ q.flags ≤ 1 ∧
    q.bodyReserved = false ∧ (if device then q.tenant = 0xFFFF else q.tenant ≤ 255) ∧
    (device || (roleOf s q.ep).tenant.all (· == q.tenant)) = true ∧
    (match q.ep with
      | .fn f => code == 0x0101 || exposed s f
      | .mctp .. => true) = true ∧
    s.eps.all (fun x => x.ep == q.ep || x.executing.all fun e => !conflicts s code q e.2.1 e.1) = true

/-- The request was answered with a status and a body, and its endpoint keeps the answer (R432). -/
abbrev Responded (q : Rq) (code st : Nat) (body : List Byte) (u : State) : Prop :=
  Output.mbx q.ep code st q.tag q.seq body ∈ u.outbox ∧ (u.ep q.ep).stored = some (q.seq, code, st, body) ∧
    (u.ep q.ep).executing = none

/-- The request goes on: its endpoint executes it (R442). -/
abbrev Executing (q : Rq) (code : Nat) (u : State) : Prop :=
  ((u.ep q.ep).executing.map fun x => (x.1, x.2.1)) = some (q, code)

/-- The request waits behind an earlier one that changes the same thing: it executes, but its opcode has not run (R434). -/
abbrev Waits (q : Rq) (code : Nat) (since : Tick) (u : State) : Prop :=
  Executing q code u ∧ (u.ep q.ep).parked = some since

/-- `v` is `s` but for what a wake event and the arrival of a request change: the power state, the endpoints and what the
device has sent (R397, R503). -/
abbrev Woken (s v : State) : Prop := v = { s with power := v.power, eps := v.eps, outbox := v.outbox }

/-- The sequence number of the next command and the places of the fetch order are as they were (R86 to R91). -/
abbrev FetchKept (u s : State) : Prop :=
  u.asn = s.asn ∧ u.rrAdmin = s.rrAdmin ∧ u.rrUrgent = s.rrUrgent ∧ u.rrTenant = s.rrTenant ∧ u.rrTurn = s.rrTurn ∧
    u.rrSq = s.rrSq

/-! ### Groups of commands -/

/-- What a command belongs to. -/
inductive Group where
  /-- Reset, the pins that end service, and the stages of a start. -/
  | start
  /-- PFAIL_N, its steps and the hold-up self-test. -/
  | powerFail
  /-- Power states, the regulator and the power samples. -/
  | power
  /-- Edges, epochs and timers of Firn. -/
  | firn
  /-- The beat, its windows, suspension and overrides. -/
  | beat
  /-- Links, controllers, doorbells, fetching, queues and features. -/
  | queue
  /-- NVMe I/O commands. -/
  | io
  /-- NVMe admin commands on the device and its namespaces. -/
  | admin
  /-- Programs, memory range sets, subsystem-local memory and runs. -/
  | compute
  /-- Sieves, Felt, cipher lanes, digest engines and Twill. -/
  | unit
  /-- Dies, the journal, map pages and draining. -/
  | media
  /-- Colmus instructions. -/
  | engine
  /-- Firmware, supervisor pairs, links in service and repair. -/
  | change
  /-- Sessions, tenants, ownership, debug and program images. -/
  | tenant
  /-- The settings set, namespaces, the shelf and the board. -/
  | setting
  /-- Key slots. -/
  | key
  /-- Time-outs of the mailbox and unknown opcodes. -/
  | mailbox
  /-- What the device shows of itself. -/
  | view
  /-- Errors of the memories, scrubs, tests and reclaim. -/
  | memory
  /-- NVMe-MI, SPDM and the TAP. -/
  | sideband
  deriving DecidableEq, Repr

/-- The group of each command of the table. -/
def groupOf : Instr → Group
  | .pwrgdRise .. | .pwrgdFall .. | .sysclkFault .. | .deviceReady .. | .deviceShutdown ..
    | .liveSettingsBankWrite .. | .extest .. | .norWriteComplete .. | .startStageComplete ..
    | .outputFirstDrive .. => .start
  | .pfailAssert .. | .pfailDeassert .. | .pfailResume .. | .holdupOkChange .. | .holdupOkStable ..
    | .holdupProofLapse .. | .holdupTestDue .. | .holdupTestComplete .. | .psExitComplete .. | .pmbusTimeout ..
    | .thermalShutdown .. | .led1Timeout .. | .rimeFlushComplete .. | .dieResetComplete ..
    | .pmbusTransferComplete .. | .avsTimeout .. => .powerFail
  | .powerStateDecision .. | .psEntryComplete .. | .avsAck .. | .pmbAlert .. | .powerSample ..
    | .regulatorFaultRetry .. => .power
  | .cycinEdge .. | .cycinFilterDecision .. | .epochEdge .. | .epochSeriesSwitch .. | .firnEpochGo ..
    | .firnBeatLoRead .. | .ptmDialogue .. | .ptmContextLapse .. | .beatLoss .. | .holdoverExpire .. => .firn
  | .beatBoundary .. | .windowStart .. | .maintOverrideAnnounce .. | .maintOverrideEnd ..
    | .stillSuspendPoint .. | .dieSuspended .. | .suspendTimeout .. | .stillTailEnd .. => .beat
  | .perstAssert .. | .perstDeassert .. | .linkDown .. | .functionLevelReset .. | .controllerEnable ..
    | .controllerDisable .. | .controllerShutdown .. | .sqDoorbell .. | .cqDoorbell .. | .commandFetch ..
    | .asnSpanLimit .. | .abort .. | .abortTimerExpiry .. | .asynchronousEventRequest .. | .createIoSq ..
    | .createIoCq .. | .deleteIoSq .. | .deleteIoCq .. | .setFeaturesNumberOfQueues ..
    | .setFeaturesArbitration .. | .setFeaturesVolatileWriteCache .. | .setFeaturesPowerManagement ..
    | .setFeaturesApst .. | .setFeaturesInterruptCoalescing .. | .getFeatures .. | .linkUp .. | .l12Entry ..
    | .l12Exit .. | .aggregationTimeExpiry .. | .unsupportedNvmeCommand .. | .mailboxTransfer .. => .queue
  | .read .. | .write .. | .writeZeroes .. | .datasetManagement .. | .compare .. | .verify .. | .flush ..
    | .reservationRegister .. | .reservationAcquire .. | .reservationRelease .. | .reservationReport ..
    | .writeDataArrival .. | .stagingRoomGrant .. | .dataFetchFault .. | .readWaitRelease ..
    | .hostDmaComplete .. => .io
  | .identify .. | .getLogPage .. | .namespaceManagement .. | .namespaceAttachment .. | .formatNvm ..
    | .sanitize .. | .deviceSelfTest .. | .nvmeMiSend .. | .nvmeMiReceive .. | .virtualizationManagement .. => .admin
  | .loadProgram .. | .programUnload .. | .programActivationManagement .. | .executeProgram ..
    | .memoryRangeSetManagement .. | .memoryRead .. | .memoryWrite .. | .memoryFill .. | .memoryCopy ..
    | .runRelease .. | .engineDispatch .. | .creditReturn .. | .nodeEnd .. | .nodeWatchdog ..
    | .tenantStopGraceExpiry .. => .compute
  | .sieveChunk .. | .feltPackChunk .. | .feltUnpackChunk .. | .cipherUnit .. | .digestBlock .. | .jobResume ..
    | .twillGet .. | .twillFloor .. | .twillCeil .. | .twillNext .. | .twillScan .. | .twillInsert ..
    | .twillPut .. | .twillReplace .. | .twillDelete .. | .twillBulkEntry .. | .twillBackgroundScan .. => .unit
  | .grainInflate .. | .dieReadComplete .. | .eraseComplete .. | .diePollTimeout .. | .dieResetTimeout ..
    | .channelBusFault .. | .grainDrain .. | .journalWrite .. | .mapPageLoadComplete .. => .media
  | .add .. | .sub .. | .and .. | .or .. | .xor .. | .andn .. | .shl .. | .shr .. | .sar .. | .ror .. | .min ..
    | .max .. | .minu .. | .maxu .. | .abs .. | .sexth .. | .sextb .. | .zexth .. | .zextb .. | .mov ..
    | .clz .. | .popc .. | .addi .. | .andi .. | .ori .. | .xori .. | .shi .. | .movi .. | .movhi .. | .cmp ..
    | .tst .. | .cmpi .. | .tsti .. | .adda .. | .suba .. | .movaa .. | .movad .. | .movda .. | .cmpa ..
    | .addai .. | .movai .. | .movahi .. | .ld .. | .st .. | .lda .. | .sta .. | .inDataPop .. | .inStatRead ..
    | .inSkip .. | .outDataPush .. | .flushPort .. | .endPort .. | .muls .. | .mulu .. | .macs .. | .macu ..
    | .msus .. | .msuu .. | .dmac .. | .accclr .. | .accmov .. | .accadd .. | .accldp .. | .accldd ..
    | .accneg .. | .accrd .. | .movsRead .. | .movsWrite .. | .fadd .. | .fsub .. | .fmul .. | .fma ..
    | .fms .. | .fmin .. | .fmax .. | .fabs .. | .fneg .. | .fcmp .. | .fcmpz .. | .ftoi .. | .ftoin ..
    | .ftou .. | .itof .. | .utof .. | .b .. | .jr .. | .call .. | .ret .. | .loop .. | .nop .. | .halt ..
    | .brk .. | .drain .. | .undefinedInstruction .. => .engine
  | .firmwareImageDownload .. | .firmwareCommit .. | .lockstepWatchdogExpiry .. | .pairFault ..
    | .pairStandbyReady .. | .handoverStandbyReady .. | .handoverPauseEnd .. | .microcodeLoad .. | .svnRaise ..
    | .serdesReequalisation .. | .serdesReeqComplete .. | .fwStage .. | .fwActivate .. | .fwStatus ..
    | .svnCommit .. | .recoveryStage .. | .nandRecal .. | .serdesReeq .. | .pairTest ..
    | .linkPartnerReequalisation .. | .correctableLinkError .. => .change
  | .tenantDrainComplete .. | .programComplete .. | .challenge .. | .prove .. | .close .. | .tenantCreate ..
    | .tenantDestroy .. | .tenantStop .. | .tenantStart .. | .tenantState .. | .tenantCred ..
    | .progsignCred .. | .tenantErase .. | .ownClaim .. | .ownTransfer .. | .ownRelease .. | .factoryRestore ..
    | .debugNonce .. | .debugUnlock .. | .progInstall .. | .progRemove .. | .progList .. | .twillStatus .. => .tenant
  | .deviceInfo .. | .bulkWrite .. | .setRead .. | .setStage .. | .setCommit .. | .setDiscard .. | .setLive ..
    | .shelfGrant .. | .shelfWithdraw .. | .nsCreate .. | .nsResize .. | .planRead .. | .firnEdges ..
    | .holdupStatus .. | .shutdown .. | .boardDesc .. | .powerLimit .. => .setting
  | .generate .. | .derive .. | .unwrap .. | .wrap .. | .restrict .. | .clear .. | .query .. | .loadNsKey .. => .key
  | .sessionTimeout .. | .nonceLapse .. | .sessionLockoutEnd .. | .mailboxTimeout .. | .devwinErrClear ..
    | .unknownMailboxRequest .. => .mailbox
  | .telemetrySnapshot .. | .viewRead .. | .rimeRead .. | .moraineInfo .. | .moraineRead .. => .view
  | .dramUncorrectable .. | .dramRetrainingComplete .. | .sramCorrection .. | .scrubPatrol ..
    | .scrubPassComplete .. | .ownershipReclaim .. | .scrubStart .. | .scrubResult .. | .calve ..
    | .engineTest .. | .dramRetrain .. | .hppr .. | .pageIdle .. | .nrrLog2 .. | .engineSelfTestQuantumEnd ..
    | .postPackageRepairComplete .. => .memory
  | .registerWrite .. | .readNvmeMiDataStructure .. | .nvmSubsystemHealthStatusPoll ..
    | .controllerHealthStatusPoll .. | .configurationGet .. | .getVersion .. | .getCapabilities ..
    | .negotiateAlgorithms .. | .getDigests .. | .getCertificate .. | .spdmChallenge .. | .getMeasurements ..
    | .jtagTapReset .. | .unsupportedNvmeMiMessage .. => .sideband

end Sys2Proof.Machine
end

