-- ==== Sys2Proof/Certificates/Slice0/Obligations.lean ====
section
/-! DEFINITION. The statements about the device. -/

open Sys2Proof Sys2Proof.Machine

/-- A step runs the command at the front of the queue on the state whose queue is the rest; with no command waiting the
device idles (the model's choice, log entry 1). -/
def Obligations.StepRunsTheFront : Prop :=
  (∀ c rest s, s.pending = c :: rest → step s = exec c { s with pending := rest }) ∧
  (∀ s, s.pending = [] → step s = .next s)

/-- The device right after reset, in what the spec says of it: it waits for PWRGD with READY low and no work, Firn runs free
(R36), and every controller has its reset votes, features and registers (R29, R91, R99, R495, R501); tenant 0 of a blank
device has the whole slot quota (R84). -/
def Obligations.ResetState : Prop :=
  State.reset.boot.life = .reset ∧ State.reset.pins.ready = false ∧ State.reset.pins.pwrgd = false ∧
  State.reset.slots = [] ∧ State.reset.staged = [] ∧ State.reset.compute.runs = [] ∧ State.reset.firn.lock = .freeRun ∧
  State.reset.linkA.up = false ∧ State.reset.linkB.up = false ∧
  (∀ c ∈ State.reset.ctrls, c.en = false ∧ c.rdy = false ∧ c.votePs = 0 ∧ c.votePerm = none ∧ c.apste = true ∧
    c.wce = true ∧ c.arb = { ab := 3, low := 0, medium := 0, high := 0 } ∧ c.epochLo = 0 ∧ c.epochHi = 0 ∧
    c.epochCount = 1 ∧ c.sqs = [] ∧ c.cqs = []) ∧
  (State.reset.tenants.map fun x => (x.num, x.cfg.slotQuota)) = [(0, 8128)] ∧
  (∀ n m, n ≤ State.reset.fw.minSvn → m &&& State.reset.fw.revoked = m → n = 0 ∧ m = 0)

/-- No command touches the queue of the commands behind it. -/
def Obligations.CommandsLeaveTheQueue : Prop :=
  ∀ c s u, exec c s = .next u → u.pending = s.pending

/-- MIN_SVN and the mask of revoked keys never decrease (R421): what a state has reached, every step keeps. -/
def Obligations.RollbackProtectionKept : Prop :=
  ∀ n m s u, n ≤ s.fw.minSvn → m &&& s.fw.revoked = m → step s = .next u → n ≤ u.fw.minSvn ∧ m &&& u.fw.revoked = m

/-- What the commands that do the host's work leave alone: queues and admin commands, I/O, computing, its units, media and the
engines. -/
def Obligations.FramesOfWork : Prop :=
  ∀ c s u, exec c s = .next u →
    (groupOf c = .queue → u.boot = s.boot ∧ u.pfail = s.pfail ∧ u.holdup = s.holdup ∧ u.twill = s.twill ∧
      u.settings = s.settings ∧ u.owner = s.owner ∧ u.repair = s.repair ∧ u.moraine = s.moraine ∧ u.fw = s.fw ∧
      u.tap = s.tap) ∧
    (groupOf c = .io → FetchKept u s ∧ (u.pfail = s.pfail ∨ u.pfail = { s.pfail with step := 2 }) ∧ u.holdup = s.holdup ∧ u.linkA = s.linkA ∧
      u.linkB = s.linkB ∧ u.engines = s.engines ∧ u.twill = s.twill ∧ u.settings = s.settings ∧ u.eps = s.eps ∧
      u.owner = s.owner ∧ u.repair = s.repair ∧ u.moraine = s.moraine ∧ u.fw = s.fw ∧ u.tap = s.tap ∧
      u.drawn = s.drawn) ∧
    (groupOf c = .admin → FetchKept u s ∧ u.pfail = s.pfail ∧ u.holdup = s.holdup ∧ u.firn = s.firn ∧
      u.linkA = s.linkA ∧ u.linkB = s.linkB ∧ u.engines = s.engines ∧ u.twill = s.twill ∧
      u.settings = s.settings ∧ u.eps = s.eps ∧ u.owner = s.owner ∧ u.repair = s.repair ∧ u.moraine = s.moraine ∧
      u.fw = s.fw ∧ u.tap = s.tap) ∧
    (groupOf c = .compute → FetchKept u s ∧ u.pfail = s.pfail ∧ u.holdup = s.holdup ∧ u.firn = s.firn ∧
      u.linkA = s.linkA ∧ u.linkB = s.linkB ∧ u.twill = s.twill ∧ u.settings = s.settings ∧ u.eps = s.eps ∧
      u.moraine = s.moraine ∧ u.fw = s.fw ∧ u.tap = s.tap ∧ (u.drawn = s.drawn ∨ u.drawn = s.drawn + 1)) ∧
    (groupOf c = .unit → FetchKept u s ∧ u.pfail = s.pfail ∧ u.holdup = s.holdup ∧ u.firn = s.firn ∧
      u.linkA = s.linkA ∧ u.linkB = s.linkB ∧ u.settings = s.settings ∧ u.eps = s.eps ∧ u.owner = s.owner ∧
      u.repair = s.repair ∧ u.moraine = s.moraine ∧ u.fw = s.fw ∧ u.tap = s.tap ∧ u.drawn = s.drawn) ∧
    (groupOf c = .media → FetchKept u s ∧ u.pfail = s.pfail ∧ u.holdup = s.holdup ∧ u.firn = s.firn ∧
      u.linkA = s.linkA ∧ u.linkB = s.linkB ∧ u.twill = s.twill ∧ u.eps = s.eps ∧ u.owner = s.owner ∧
      u.moraine = s.moraine ∧ u.fw = s.fw ∧ u.tap = s.tap ∧ u.drawn = s.drawn) ∧
    (groupOf c = .engine → FetchKept u s ∧ u.now = s.now ∧ u.pfail = s.pfail ∧ u.holdup = s.holdup ∧
      u.firn = s.firn ∧ u.linkA = s.linkA ∧ u.linkB = s.linkB ∧ u.twill = s.twill ∧ u.settings = s.settings ∧
      u.eps = s.eps ∧ u.owner = s.owner ∧ u.moraine = s.moraine ∧ u.fw = s.fw ∧ u.tap = s.tap ∧ u.drawn = s.drawn)

/-- What mailbox requests, changes in service, errors of memories and sideband messages leave alone. -/
def Obligations.FramesOfRequests : Prop :=
  ∀ c s u, exec c s = .next u →
    (groupOf c = .change → FetchKept u s ∧ u.twill = s.twill ∧ u.settings = s.settings ∧ u.owner = s.owner ∧
      u.tap = s.tap) ∧
    (groupOf c = .tenant → FetchKept u s ∧ u.linkA = s.linkA ∧ u.linkB = s.linkB ∧ u.repair = s.repair ∧
      u.fw = s.fw ∧ u.tap = s.tap) ∧
    (groupOf c = .setting → FetchKept u s ∧ u.pfail = s.pfail ∧ u.holdup = s.holdup ∧ u.firn = s.firn ∧
      u.linkA = s.linkA ∧ u.linkB = s.linkB ∧ u.compute = s.compute ∧ u.engines = s.engines ∧ u.twill = s.twill ∧
      u.tenants = s.tenants ∧ u.owner = s.owner ∧ u.repair = s.repair ∧ u.moraine = s.moraine ∧ u.fw = s.fw ∧
      u.tap = s.tap) ∧
    (groupOf c = .key → FetchKept u s ∧ u.pfail = s.pfail ∧ u.holdup = s.holdup ∧ u.firn = s.firn ∧
      u.linkA = s.linkA ∧ u.linkB = s.linkB ∧ u.twill = s.twill ∧ u.settings = s.settings ∧ u.repair = s.repair ∧
      u.moraine = s.moraine ∧ u.fw = s.fw ∧ u.tap = s.tap ∧ u.drawn = s.drawn) ∧
    (groupOf c = .mailbox → FetchKept u s ∧ u.boot = s.boot ∧ u.pfail = s.pfail ∧ u.holdup = s.holdup ∧
      u.firn = s.firn ∧ u.linkA = s.linkA ∧ u.linkB = s.linkB ∧ u.media = s.media ∧ u.compute = s.compute ∧
      u.engines = s.engines ∧ u.twill = s.twill ∧ u.units = s.units ∧ u.tenants = s.tenants ∧
      u.settings = s.settings ∧ u.repair = s.repair ∧ u.moraine = s.moraine ∧ u.fw = s.fw ∧ u.tap = s.tap ∧
      u.drawn = s.drawn) ∧
    (groupOf c = .view → FetchKept u s ∧ u.boot = s.boot ∧ u.pfail = s.pfail ∧ u.holdup = s.holdup ∧
      u.firn = { s.firn with telemDone := u.firn.telemDone } ∧ u.linkA = s.linkA ∧ u.linkB = s.linkB ∧ u.media = s.media ∧ u.engines = s.engines ∧
      u.twill = s.twill ∧ u.units = s.units ∧ u.tenants = s.tenants ∧ u.settings = s.settings ∧
      u.owner = s.owner ∧ u.repair = s.repair ∧ u.moraine = s.moraine ∧ u.fw = s.fw ∧ u.tap = s.tap ∧
      u.drawn = s.drawn) ∧
    (groupOf c = .memory → FetchKept u s ∧ u.linkA = s.linkA ∧ u.linkB = s.linkB ∧ u.settings = s.settings ∧
      u.tap = s.tap) ∧
    (groupOf c = .sideband → FetchKept u s ∧ u.boot = s.boot ∧ u.pfail = s.pfail ∧ u.holdup = s.holdup ∧
      u.firn = { s.firn with active := u.firn.active, queued := u.firn.queued, rejectedWrites := u.firn.rejectedWrites } ∧ u.linkA = s.linkA ∧ u.linkB = s.linkB ∧ u.slots = s.slots ∧ u.staged = s.staged ∧
      u.nss = s.nss ∧ u.media = s.media ∧ u.compute = s.compute ∧ u.engines = s.engines ∧ u.twill = s.twill ∧
      u.tenants = s.tenants ∧ u.settings = s.settings ∧ u.eps = s.eps ∧ u.owner = s.owner ∧ u.repair = s.repair ∧
      u.moraine = s.moraine ∧ u.fw = s.fw ∧ u.drawn = s.drawn)

/-- What the power-fail steps, power states, Firn and the beat leave alone. -/
def Obligations.FramesOfDevice : Prop :=
  ∀ c s u, exec c s = .next u →
    (groupOf c = .powerFail → FetchKept u s ∧ u.linkA = s.linkA ∧ u.linkB = s.linkB ∧ u.twill = s.twill ∧
      u.owner = s.owner ∧ u.tap = s.tap) ∧
    (groupOf c = .power → FetchKept u s ∧ u.pfail = s.pfail ∧ u.holdup = s.holdup ∧ u.firn = { s.firn with powerDone := u.firn.powerDone } ∧
      u.linkA = s.linkA ∧ u.linkB = s.linkB ∧ u.compute = s.compute ∧ u.engines = s.engines ∧ u.twill = s.twill ∧
      u.units = s.units ∧ u.tenants = s.tenants ∧ u.settings = s.settings ∧ u.eps = s.eps ∧ u.owner = s.owner ∧
      u.moraine = s.moraine ∧ u.fw = s.fw ∧ u.tap = s.tap ∧ u.drawn = s.drawn) ∧
    (groupOf c = .firn → FetchKept u s ∧ u.boot = s.boot ∧ u.pfail = s.pfail ∧ u.holdup = s.holdup ∧
      u.slots = s.slots ∧ u.staged = s.staged ∧ u.nss = s.nss ∧ u.media = s.media ∧ u.compute = s.compute ∧
      u.engines = s.engines ∧ u.twill = s.twill ∧ u.units = s.units ∧ u.tenants = s.tenants ∧
      u.settings = s.settings ∧ u.eps = s.eps ∧ u.owner = s.owner ∧ u.repair = s.repair ∧ u.power = s.power ∧
      u.moraine = s.moraine ∧ u.fw = s.fw ∧ u.tap = s.tap ∧ u.drawn = s.drawn) ∧
    (groupOf c = .beat → FetchKept u s ∧ u.linkA = s.linkA ∧ u.linkB = s.linkB ∧ u.tap = s.tap)

/-- Power states, the regulator, the power samples (R495, R499, R502, R506, R508, R509, R511, R512) and the hold-up protection:
the pin, the self-test and its transfers (R192 to R195, R510). -/
def Obligations.PowerAndHoldupComplete : Prop :=
  (∀ t s, s.boot.life = .running → s.pfail.stopped = false → s.power.entering = none → s.power.exiting = none →
    s.power.regFault = false → s.fw.pauseSince = none → hasStill s = true → 1 ≤ s.power.ps → powerDue (s.arrive t) = true →
    Completes (.powerStateDecision t) s fun u => u.power.exiting = some 0) ∧
  (∀ t s, s.boot.life = .running → s.pfail.stopped = false → s.power.entering = none → s.power.exiting = none →
    s.power.regFault = false → s.fw.pauseSince = none → s.fw.handover = none → hasStill s = false → s.power.ps = 0 →
    psDemand s = 2 → powerDue (s.arrive t) = true → Completes (.powerStateDecision t) s fun u => u.power.entering =
      (if psAllowed (s.arrive t) 4 then some (4, false) else if psAllowed (s.arrive t) 3 then some (3, false) else none)) ∧
  (∀ t n s, s.power.entering = some (n, false) →
    (psPrepared s n = true →
      Completes (.psEntryComplete t) s fun u => u.power.entering = some (n, true) ∧ u.power.ps = s.power.ps) ∧
    (psPrepared s n = false → exec (.psEntryComplete t) s = .next (s.arrive t))) ∧
  (∀ t n s, s.power.entering = some (n, true) → s.power.avs = none →
    Completes (.psEntryComplete t) s fun u => u.power.ps = n ∧ u.power.entering = none) ∧
  (∀ t level d tries s, s.power.avs = some (level, d, tries) → max s.now t ≤ d →
    Completes (.avsAck t) s fun u => u.power.vdd = level ∧ u.power.avs = none ∧ u.power.regFault = false) ∧
  (∀ t level d tries s, s.power.avs = some (level, d, tries) → d ≤ max s.now t →
    s.pending.all (fun c => (ackEvent c).isNone) = true →
    Completes (.avsTimeout t) s fun u => u.power.avsTimeouts = s.power.avsTimeouts + 1 ∧
      (tries < 3 → u.power.avs = some (level, max s.now t + 50800, tries + 1) ∧ u.outbox = .avs level :: s.outbox) ∧
      (3 ≤ tries → u.power.avs = none ∧ u.power.regFault = true ∧ u.power.regFaults = s.power.regFaults + 1)) ∧
  (∀ t s, s.power.regFault = true → s.power.avs = none → s.power.regTried + 500000000 ≤ max s.now t →
    Completes (.regulatorFaultRetry t) s fun u => u.outbox = .avs s.power.regWanted :: s.outbox ∧
      u.power.regTried = max s.now t) ∧
  (∀ t v s, s.boot.life = .running → s.rime.ring.length < 4096 →
    Completes (.pmbAlert t v) s fun u => u.power.statusWord = v % 65536 ∧ recorded 0x0703 u) ∧
  (∀ t mw tj s, s.pins.pwrgd = true →
    Completes (.powerSample t mw tj) s fun u => u.power.average = mw ∧ u.power.tj = tj ∧
      u.power.tjMax = max s.power.tjMax tj) ∧
  (∀ t b s, s.pins.holdupOk ≠ b →
    Completes (.holdupOkChange t b) s fun u => u.pins.holdupOk = b ∧ u.holdup.okStable = false) ∧
  (∀ t a s, s.holdup.okSince = some a → s.pins.pwrgd = true → a + 500000000 ≤ max s.now t →
    s.pending.all (fun c => (holdupFall c).isNone) = true →
    Completes (.holdupOkStable t) s fun u => u.holdup.okStable = true) ∧
  (∀ t p s, s.holdup.passedAt = some p → (s.arrive t).rime.opTicks - p > 26 * ticksPerHour →
    Completes (.holdupProofLapse t) s fun u => u.holdup.proven = false) ∧
  (∀ t s, s.boot.life = .running → holdupDueNow (s.arrive t) = true → s.holdup.testStep = 0 →
    Completes (.holdupTestDue t) s fun u => u.holdup.due = true) ∧
  (∀ t v d k b s, s.power.pmbus = some (d, k) → max s.now t ≤ d → s.power.pmbusUse = 3 → s.holdup.desc = some b →
    Completes (.pmbusTransferComplete t v) s fun u => u.holdup.v1 = v % 2 ^ 32 ∧ u.holdup.testStep = 4 ∧
      u.outbox = .pmbusRead 0x40 0x86 :: s.outbox) ∧
  (∀ t d k s, s.power.pmbus = some (d, k) → d ≤ max s.now t → s.pending.all (fun c => (pmbusEvent c).isNone) = true →
    Completes (.pmbusTimeout t) s fun u =>
      (k < 3 → u.power.pmbus = some (max s.now t + 18000000, k + 1)) ∧
      (3 ≤ k → u.power.pmbus = none ∧ u.power.pmbusFails = s.power.pmbusFails + 1)) ∧
  (∀ t s, s.holdup.testStep = 8 →
    Completes (.holdupTestComplete t) s fun u => u.holdup.testStep = 0 ∧
      u.holdup.last = some (if s.holdup.testVoid then 2 else if holdupPasses s then 0 else 1))

/-- PFAIL_N, the steps of Table 5.2, and what else ends service (R180, R181, R185, R188, R503, R515, R526, R564). -/
def Obligations.PowerFailComplete : Prop :=
  (∀ t s, s.pins.pfail = false → s.pins.pwrgd = true → s.boot.life = .running → s.moraine.fatal = none →
    s.pfail.stopped = false →
    Completes (.pfailAssert t) s fun u => u.pins.pfail = true ∧ u.pfail.stopped = true ∧ u.pfail.landedAt = max s.now t ∧
      u.holdup.sequences = s.holdup.sequences + 1) ∧
  (∀ t s, s.pins.pfail = true →
    Completes (.pfailDeassert t) s fun u => u.pins.pfail = false ∧ u.pfail.deassertedAt = some (max s.now t)) ∧
  (∀ t a s, s.pfail.deassertedAt = some a → s.pins.pfail = false → a + 5000000 ≤ max s.now t →
    s.pending.all (fun c => (pfailEvent c).isNone) = true →
    Completes (.pfailResume t) s fun u =>
      (s.boot.heldByPfail = true → u.boot.heldByPfail = false) ∧
      (s.boot.heldByPfail = false → s.boot.life = .running → s.pfail.step = 7 → s.moraine.fatal = none →
        u.pfail.stopped = false ∧ u.pfail.step = 0)) ∧
  (∀ t d s, (s.die d).resetting = true → s.pfail.step = 1 →
    Completes (.dieResetComplete t d) s fun u => (u.die d).resetting = false) ∧
  (∀ t s, s.rime.flushing.isSome = true → s.pins.pwrgd = true →
    Completes (.rimeFlushComplete t) s fun u => u.rime.flushes = s.rime.flushes + 1) ∧
  (∀ t m s, s.power.exiting = some m → s.power.avs = none → rateBlocked (s.arrive t) m = false → s.pfail.stopped = false →
    Completes (.psExitComplete t) s fun u => u.power.ps = m ∧ u.power.exiting = none) ∧
  (∀ t h s, s.power.hotSince = some h → h + 500000 ≤ max s.now t → s.boot.life = .running →
    s.pending.all (fun c => (coolEvent c).isNone) = true →
    Completes (.thermalShutdown t) s fun u => u.boot.life = .parked ∧ u.pfail.stopped = true ∧
      u.power.thermals = s.power.thermals + 1) ∧
  (∀ t d s, s.pins.led1Until = some d → d ≤ max s.now t →
    Completes (.led1Timeout t) s fun u => u.pins.led1Until = none)

/-- Reset and start (R188, R198, R200, R205, R208, R565, R567, R568, R571, R579). -/
def Obligations.StartComplete : Prop :=
  (∀ t s, s.pins.pwrgd = true → s.boot.life ≠ .latched →
    Completes (.pwrgdFall t) s fun u => u.pins.pwrgd = false ∧ u.boot.life = .reset ∧ u.pins.ready = false ∧
      u.slots = [] ∧ u.rime.ring = [] ∧ u.linkA.up = false ∧ u.linkB.up = false) ∧
  (∀ t s, s.pins.pwrgd = true → s.boot.life ≠ .latched →
    Completes (.sysclkFault t) s fun u => u.boot.life = .latched ∧ u.pins.ready = false ∧ u.slots = []) ∧
  (∀ t s, Completes (.extest t) s fun u => u.tap = .boundary ∧
    (s.pins.pwrgd = true → u.boot.life = .latched)) ∧
  (∀ t bs pc s, s.pins.pwrgd = false →
    Completes (.pwrgdRise t bs pc) s fun u => u.pins.pwrgd = true ∧ u.boot.bootsel = bs ∧ u.boot.portcfg = pc ∧
      u.rime.cycles = s.rime.cycles + 1 ∧
      u.boot.life = if bs > 1 ∨ pc > 1 then .strapHold else if bs = 1 then .bootHold else .starting) ∧
  (∀ t s, s.pins.pwrgd = true → s.boot.life ≠ .latched → s.pins.drivenEarly = false →
    s.boot.landedAt + 50000 ≤ max s.now t →
    Completes (.outputFirstDrive t false) s fun u => u.pins.drivenEarly = true ∧ u.linkA.clkreq = true) ∧
  (∀ t s, s.pins.pwrgd = true → s.boot.life ≠ .latched → s.pins.drivenEarly = true →
    s.boot.landedAt + 250000 ≤ max s.now t →
    Completes (.outputFirstDrive t true) s fun u => u.pins.drivenLate = true) ∧
  (∀ t other why s, s.boot.life = .starting → s.boot.stage = 0 → (fwSlot s s.fw.active).isSome = true →
    Completes (.startStageComplete t (.romVerify true other why)) s fun u => u.boot.stage = 1) ∧
  (∀ t s, s.boot.life = .starting → s.boot.stage = 1 → startFree s = true →
    Completes (.startStageComplete t .settingsRead) s fun u => u.boot.stage = 2) ∧
  (∀ t bs s, s.boot.life = .starting → s.boot.stage = 2 → startFree s = true →
    Completes (.startStageComplete t (.dramTrain true bs)) s fun u => u.boot.stage = 3) ∧
  (∀ t s, s.boot.life = .starting → s.boot.stage = 3 → startFree s = true →
    Completes (.startStageComplete t .keysRestored) s fun u => u.boot.stage = 4) ∧
  (∀ t s, s.boot.life = .starting → s.boot.stage = 4 → startFree s = true →
    Completes (.startStageComplete t .directoryRead) s fun u => u.boot.stage = 5) ∧
  (∀ t s, s.boot.life = .starting → s.boot.stage = 5 → s.boot.dirty = true → startFree s = true →
    Completes (.startStageComplete t .journalReplayed) s fun u => u.boot.stage = 6) ∧
  (∀ t s, s.boot.life = .starting → startFree s = true → s.boot.stage = (if s.boot.dirty then 6 else 5) →
    Completes (.deviceReady t) s fun u => u.boot.cleanRecord = false ∧
      (s.boot.endedByPfail = false → u.boot.life = .running ∧ u.pins.ready = true ∧ u.pins.fault = false) ∧
      (s.boot.endedByPfail = true → u.boot.startEnded = true ∧ u.pins.parked = true))

/-- Writes of the NOR and the device shutdown (R178, R198, R199, R208); the beat, its windows, suspension and overrides (R40,
R48, R51, R52, R56, R57, R63, R165). -/
def Obligations.BeatComplete : Prop :=
  (∀ t q d rest s, s.pins.pwrgd = true → s.boot.life = .running → s.moraine.fatal = none → s.pfail.stopped = false →
    (s.boot.nor = .desc q d 0 :: rest →
      Completes (.norWriteComplete t) s fun u => u.boot.nor = rest ∧
        u.holdup.copies = s.holdup.copies.set 0 (some (d, Config.sha384 (descBytes d)))) ∧
    (s.boot.nor = .desc q d 1 :: rest →
      Completes (.norWriteComplete t) s fun u => u.holdup.desc = some d ∧ u.boot.nor = rest)) ∧
  (∀ t s, s.serving = true → s.fw.pauseSince = none → shutdownAsked s = true → s.boot.restore = false →
    Completes (.deviceShutdown t) s fun u => u.boot.cleanRecord = true ∧ u.boot.shutdownRq = none) ∧
  (∀ t s, s.serving = true → s.settings.bankedAt = none → s.settings.journalled ≠ [] → s.settings.commit = none →
    s.settings.commitQueue = [] →
    Completes (.liveSettingsBankWrite t) s fun u => (u.settings.commit.map (·.2.2)) = some .live) ∧
  (∀ t i w s, s.firn.plan.windows[i]? = some w → s.firn.started = true → atSuspendPoint (s.arrive t) w = true →
    Completes (.stillSuspendPoint t i) s fun u => u.firn.suspended = true) ∧
  (∀ t d a o s, (s.die d).suspendAsked = some a → (s.die d).op = some o →
    Completes (.dieSuspended t d) s fun u => (u.die d).suspendAsked = none ∧ (u.die d).wasSuspended = true) ∧
  (∀ t d a s, (s.die d).suspendAsked = some a → a + suspendLimit ≤ max s.now t →
    s.pending.all (fun c => (suspendEvent d c).isNone) = true →
    Completes (.suspendTimeout t d) s fun u => (u.die d).late = true) ∧
  (∀ t d s, s.firn.tailUntil = some d → d ≤ max s.now t →
    Completes (.stillTailEnd t) s fun u => u.firn.tailUntil = none) ∧
  (∀ t i s, windowDue (s.arrive t) i = true →
    Completes (.windowStart t i) s fun u => u.firn.window = i) ∧
  (∀ t s, boundaryDue (s.arrive t) = true →
    Completes (.beatBoundary t) s fun u => u.firn.beat = s.firn.beat + 1 ∧ u.firn.window = 0) ∧
  (∀ t task beat s, s.serving = true → s.firn.started = true → s.firn.ovrPend = none → s.firn.ovr = none →
    s.firn.beat.toNat + 64 ≤ beat → s.firn.ovrLast = none → overrideTask (s.arrive t) task = true → s.rime.ring.length < 4096 →
    Completes (.maintOverrideAnnounce t task beat) s fun u => u.firn.ovrPend = some (beat, task) ∧
      recorded 0x0104 u) ∧
  (∀ t task d s, s.firn.ovr = some (task, d) → s.rime.ring.length < 4096 →
    Completes (.maintOverrideEnd t) s fun u => u.firn.ovr = none ∧ u.firn.stillExcluded.head? = some s.firn.window ∧
      recorded 0x0104 u)

/-- Firn's edges and timers (R28, R34, R36, R37): an edge of the selected source is timed and counted once, a refused one
alike; beat loss is counted and moves ACQUIRE to FREE_RUN and LOCKED to HOLDOVER; holdover ends in FREE_RUN. Host epochs
(R30, R31). -/
def Obligations.FirnComplete : Prop :=
  (∀ t b held s, s.firn.started = true → s.firn.plan.source = 1 → b = s.firn.plan.fallingEdge →
    s.firn.plan.cycinFilter ≤ held →
    Completes (.cycinEdge t ⟨b, held⟩) s fun u => u.firn.lastEdge = some t ∧
      u.firn.accepted + u.firn.rejected = s.firn.accepted + s.firn.rejected + 1) ∧
  (∀ t first b s, s.firn.started = true → s.firn.plan.source = 1 → b = s.firn.plan.fallingEdge →
    s.firn.lastEdge ≠ some first → first + s.firn.plan.cycinFilter ≤ t →
    Completes (.cycinFilterDecision t first b true) s fun u => u.firn.lastEdge = some first ∧
      u.firn.accepted + u.firn.rejected = s.firn.accepted + s.firn.rejected + 1) ∧
  (∀ t d s, s.firn.lossAt = some d → s.firn.started = true → d ≤ max s.now t →
    s.pending.all (fun c => (edgeEvent s c).isNone && (filterEvent s c).isNone) = true →
    Completes (.beatLoss t) s fun u => u.firn.losses = s.firn.losses + 1 ∧ u.firn.lossAt = none ∧
      u.firn.lock = (match s.firn.lock with
        | .acquire => .freeRun
        | .locked => .holdover
        | l => l)) ∧
  (∀ t s, s.firn.started = true → s.firn.lock = .holdover → s.firn.holdLeft = 0 →
    Completes (.holdoverExpire t) s fun u => u.firn.lock = .freeRun) ∧
  (∀ t f count rest s, hostReaches s f = true → (s.ctrl? f).isSome = true → epochFunction s f = true → 1 ≤ count →
    ptmNow (s.arrive t) f.port + 10000 ≤ ((s.ctrl? f).map fun c => c.epochLo.toNat + 2 ^ 32 * c.epochHi.toNat).getD 0 →
    seriesHeld s < 2 → ((s.link f.port).ptmUntil.map fun d => decide (max s.now t ≤ d)) = some true →
    Completes (.firnEpochGo t f count rest) s fun u =>
      let ser : Series := { t0 := ((s.ctrl? f).map fun c => c.epochLo.toNat + 2 ^ 32 * c.epochHi.toNat).getD 0
                            left := count, port := f.port }
      (s.firn.active = none → u.firn.active = some ser ∧ u.firn.queued = s.firn.queued) ∧
      (s.firn.active ≠ none → u.firn.queued = some ser ∧ u.firn.active = s.firn.active)) ∧
  (∀ t ser s, s.firn.active = some ser → s.firn.started = true → s.firn.plan.source = 2 →
    seriesReached (s.arrive t) ser = true →
    Completes (.epochEdge t) s fun u => u.firn.lastEdge = some t ∧
      u.firn.active = if ser.left ≤ 1 then none
        else some { ser with left := ser.left - 1, t0 := ser.t0 + s.firn.plan.periodNs }) ∧
  (∀ t q s, s.firn.queued = some q → seriesReached (s.arrive t) q = true →
    Completes (.epochSeriesSwitch t) s fun u => u.firn.active = some q ∧ u.firn.queued = none) ∧
  (∀ t p master s, s.firn.plan.source = 2 →
    Completes (.ptmDialogue t p (some master)) s fun u => (u.link p).ptmUntil = some (max s.now t + 25000000) ∧
      (u.link p).ptmBase = (master, max s.now t)) ∧
  (∀ t p d s, (s.link p).ptmUntil = some d → d ≤ max s.now t → s.pending.all (fun c => (ptmEvent p c).isNone) = true →
    Completes (.ptmContextLapse t p) s fun u =>
      (u.link p).ptmUntil = none ∧ u.firn.active = none ∧ u.firn.queued = none) ∧
  (∀ t f s, hostReaches s f = true →
    Completes (.firnBeatLoRead t f) s fun u =>
      u.outbox = .regRead f (s.firn.beat.extractLsb' 0 32) :: s.outbox ∧
      ((u.ctrl? f).map (·.beatHi)) = some (s.firn.beat.extractLsb' 32 32))

/-- Integer instructions of major 0x01 and the immediate majors 0x02 to 0x06 (Tables 7.9 and 7.10): the value that goes
to D[d], one cycle after issue. -/
def Obligations.ColmusIntegerResults : Prop :=
  (∀ r ∈ ([(.add, 0x00, fun x y => x + y), (.sub, 0x01, fun x y => x - y), (.and, 0x02, fun x y => x &&& y),
      (.or, 0x03, fun x y => x ||| y), (.xor, 0x04, fun x y => x ^^^ y), (.andn, 0x05, fun x y => x &&& ~~~y),
      (.shl, 0x06, fun x y => x <<< (y.toNat % 256)), (.shr, 0x07, fun x y => x >>> (y.toNat % 256)),
      (.sar, 0x08, fun x y => x.sshiftRight (y.toNat % 256)), (.ror, 0x09, fun x y => x.rotateRight (y.toNat % 32)),
      (.min, 0x0A, fun x y => if x.toInt ≤ y.toInt then x else y), (.max, 0x0B, fun x y => if x.toInt ≤ y.toInt then y else x),
      (.minu, 0x0C, fun x y => if x.toNat ≤ y.toNat then x else y), (.maxu, 0x0D, fun x y => if x.toNat ≤ y.toNat then y else x)] :
      List ((Nat → RFmt → Instr) × Nat × (Word → Word → Word))),
    ∀ p f, f.rsv = 0 → WritesOnly (r.1 p f) p (encR 0x01 r.2.1 f) [.d f.d.toNat, .d f.s.toNat, .d f.t.toNat] none false
      fun e => [wr (.d f.d.toNat) 1 (r.2.2 (rdD e f.s.toNat) (rdD e f.t.toNat))]) ∧
  (∀ r ∈ ([(.abs, 0x0E, fun x => BitVec.ofInt 32 x.toInt.natAbs), (.sexth, 0x0F, fun x => (x.setWidth 16).signExtend 32),
      (.sextb, 0x10, fun x => (x.setWidth 8).signExtend 32), (.zexth, 0x11, fun x => x &&& 0xFFFF),
      (.zextb, 0x12, fun x => x &&& 0xFF), (.mov, 0x13, fun x => x), (.clz, 0x14, clz), (.popc, 0x15, popc)] :
      List ((Nat → RFmt → Instr) × Nat × (Word → Word))),
    ∀ p f, f.rsv = 0 → f.t = 0 → WritesOnly (r.1 p f) p (encR 0x01 r.2.1 f) [.d f.d.toNat, .d f.s.toNat] none false
      fun e => [wr (.d f.d.toNat) 1 (r.2.2 (rdD e f.s.toNat))]) ∧
  (∀ r ∈ ([(.addi, 0x02, fun x i => x + i.signExtend 32), (.andi, 0x03, fun x i => x &&& i.setWidth 32),
      (.ori, 0x04, fun x i => x ||| i.setWidth 32), (.xori, 0x05, fun x i => x ^^^ i.setWidth 32)] :
      List ((Nat → IFmt → Instr) × Nat × (Word → BitVec 18 → Word))),
    ∀ p f, WritesOnly (r.1 p f) p (encI r.2.1 f) [.d f.d.toNat, .d f.s.toNat] none false
      fun e => [wr (.d f.d.toNat) 1 (r.2.2 (rdD e f.s.toNat) f.imm)]) ∧
  (∀ p f, f.imm.toNat < 128 → WritesOnly (.shi p f) p (encI 0x06 f) [.d f.d.toNat, .d f.s.toNat] none false
    fun e =>
      let k := f.imm.toNat % 32
      let x := rdD e f.s.toNat
      [wr (.d f.d.toNat) 1 (match f.imm.toNat / 32 with
        | 0 => x <<< k
        | 1 => x >>> k
        | 2 => x.sshiftRight k
        | _ => x.rotateRight k)]) ∧
  (∀ p f, WritesOnly (.movi p f) p (encW 0x07 f) [.d f.d.toNat] none false
    fun _ => [wr (.d f.d.toNat) 1 (f.imm.signExtend 32)]) ∧
  (∀ p f, f.imm.toNat < 65536 → WritesOnly (.movhi p f) p (encW 0x08 f) [.d f.d.toNat] none false
    fun _ => [wr (.d f.d.toNat) 1 (f.imm.setWidth 32 <<< 16)])

/-- Flags and the address registers (Table 7.10, R289). -/
def Obligations.ColmusFlagsAndAddresses : Prop :=
  (∀ r ∈ ([(.cmp, 0x09, 0, cmpFlags), (.tst, 0x09, 1, fun x y => tstFlags (x &&& y)),
      (.fcmp, 0x21, 0, fun x y => fcmpFlags (fOrder x y))] :
      List ((Nat → RFmt → Instr) × Nat × Nat × (Word → Word → BitVec 72))),
    ∀ p f, f.rsv = 0 → f.d = 0 → WritesOnly (r.1 p f) p (encR r.2.1 r.2.2.1 f) [.d f.s.toNat, .d f.t.toNat] none false
      fun e => [wrFlags (r.2.2.2 (rdD e f.s.toNat) (rdD e f.t.toNat))]) ∧
  (∀ p f, f.rsv = 0 → f.d = 0 → f.t = 0 → WritesOnly (.fcmpz p f) p (encR 0x21 1 f) [.d f.s.toNat] none false
    fun e => [wrFlags (fcmpFlags (fOrder (rdD e f.s.toNat) 0))]) ∧
  (∀ p f, f.d = 0 → WritesOnly (.cmpi p f) p (encI 0x0A f) [.d f.s.toNat] none false
    fun e => [wrFlags (cmpFlags (rdD e f.s.toNat) (f.imm.signExtend 32))]) ∧
  (∀ p f, f.d = 0 → WritesOnly (.tsti p f) p (encI 0x0B f) [.d f.s.toNat] none false
    fun e => [wrFlags (tstFlags (rdD e f.s.toNat &&& f.imm.setWidth 32))]) ∧
  (∀ p f, f.rsv = 0 → WritesOnly (.adda p f) p (encR 0x0C 0 f) [.a f.d.toNat, .a f.s.toNat, .a f.t.toNat] none false
    fun e => [wr (.a f.d.toNat) 1 (rdA e f.s.toNat + rdA e f.t.toNat)]) ∧
  (∀ p f, f.rsv = 0 → WritesOnly (.suba p f) p (encR 0x0C 1 f) [.a f.d.toNat, .a f.s.toNat, .a f.t.toNat] none false
    fun e => [wr (.a f.d.toNat) 1 (rdA e f.s.toNat - rdA e f.t.toNat)]) ∧
  (∀ p f, f.rsv = 0 → f.t = 0 → WritesOnly (.movaa p f) p (encR 0x0C 2 f) [.a f.d.toNat, .a f.s.toNat] none false
    fun e => [wr (.a f.d.toNat) 1 (rdA e f.s.toNat)]) ∧
  (∀ p f, f.rsv = 0 → f.t = 0 → WritesOnly (.movad p f) p (encR 0x0C 3 f) [.a f.d.toNat, .d f.s.toNat] none false
    fun e => [wr (.a f.d.toNat) 1 (rdD e f.s.toNat)]) ∧
  (∀ p f, f.rsv = 0 → f.t = 0 → WritesOnly (.movda p f) p (encR 0x0C 4 f) [.d f.d.toNat, .a f.s.toNat] none false
    fun e => [wr (.d f.d.toNat) 1 (rdA e f.s.toNat)]) ∧
  (∀ p f, f.rsv = 0 → f.d = 0 → WritesOnly (.cmpa p f) p (encR 0x0C 5 f) [.a f.s.toNat, .a f.t.toNat] none false
    fun e => [wrFlags (cmpFlags (rdA e f.s.toNat) (rdA e f.t.toNat))]) ∧
  (∀ p f, WritesOnly (.addai p f) p (encI 0x0D f) [.a f.d.toNat, .a f.s.toNat] none false
    fun e => [wr (.a f.d.toNat) 1 (rdA e f.s.toNat + f.imm.signExtend 32)]) ∧
  (∀ p f, WritesOnly (.movai p f) p (encW 0x0E f) [.a f.d.toNat] none false
    fun _ => [wr (.a f.d.toNat) 1 (f.imm.setWidth 32)]) ∧
  (∀ p f, f.imm.toNat < 65536 → WritesOnly (.movahi p f) p (encW 0x0F f) [.a f.d.toNat] none false
    fun _ => [wr (.a f.d.toNat) 1 (f.imm.setWidth 32 <<< 16)])

/-- Multiplication, the accumulators and the special registers (R264, R282, R292, R294): products land four cycles
after issue, and an accumulation adds where it lands. -/
def Obligations.ColmusMultiplyResults : Prop :=
  (∀ r ∈ ([(.muls, 0, fun x y => x.signExtend 64 * y.signExtend 64), (.mulu, 1, fun x y => x.setWidth 64 * y.setWidth 64)] :
      List ((Nat → RFmt → Instr) × Nat × (Word → Word → BitVec 64))),
    ∀ p f, f.rsv = 0 → f.d = 0 → WritesOnly (r.1 p f) p (encR 0x18 r.2.1 f) [.d f.s.toNat, .d f.t.toNat] none false
      fun e =>
        let v := r.2.2 (rdD e f.s.toNat) (rdD e f.t.toNat)
        [wr .ph 4 (v.extractLsb' 32 32), wr .pl 4 (v.extractLsb' 0 32)]) ∧
  (∀ r ∈ ([(.macs, 0, fun x y => BitVec.ofInt 72 (x.toInt * y.toInt)), (.macu, 1, fun x y => BitVec.ofNat 72 (x.toNat * y.toNat)),
      (.msus, 2, fun x y => BitVec.ofInt 72 (-(x.toInt * y.toInt))), (.msuu, 3, fun x y => -BitVec.ofNat 72 (x.toNat * y.toNat))] :
      List ((Nat → RFmt → Instr) × Nat × (Word → Word → BitVec 72))),
    ∀ p f, f.rsv = 0 → f.d.toNat < 4 → WritesOnly (r.1 p f) p (encR 0x19 r.2.1 f) [.d f.s.toNat, .d f.t.toNat]
      (some f.d.toNat) false
      fun e => [{ reg := .acc f.d.toNat, lat := 4, value := r.2.2 (rdD e f.s.toNat) (rdD e f.t.toNat), add := true }]) ∧
  (∀ p f, f.rsv = 0 → f.d.toNat < 4 → f.s = 0 → f.t = 0 →
    WritesOnly (.accclr p f) p (encR 0x1B 0 f) [.acc f.d.toNat] none false
      (fun _ => [{ reg := .acc f.d.toNat, lat := 1, value := 0 }]) ∧
    WritesOnly (.accldp p f) p (encR 0x1B 3 f) [.acc f.d.toNat] none false
      (fun e => [{ reg := .acc f.d.toNat, lat := 1, value := (e.ph ++ e.pl).signExtend 72 }]) ∧
    WritesOnly (.accneg p f) p (encR 0x1B 5 f) [.acc f.d.toNat] none false
      (fun e => [{ reg := .acc f.d.toNat, lat := 1, value := -(rdAcc e f.d.toNat) }])) ∧
  (∀ p f, f.rsv = 0 → f.d.toNat < 4 → f.s.toNat < 4 → f.t = 0 →
    WritesOnly (.accmov p f) p (encR 0x1B 1 f) [.acc f.d.toNat, .acc f.s.toNat] none false
      (fun e => [{ reg := .acc f.d.toNat, lat := 1, value := rdAcc e f.s.toNat }]) ∧
    WritesOnly (.accadd p f) p (encR 0x1B 2 f) [.acc f.d.toNat, .acc f.s.toNat] none false
      (fun e => [{ reg := .acc f.d.toNat, lat := 1, value := rdAcc e f.d.toNat + rdAcc e f.s.toNat }])) ∧
  (∀ p f, f.rsv = 0 → f.d.toNat < 4 → f.t = 0 →
    WritesOnly (.accldd p f) p (encR 0x1B 4 f) [.acc f.d.toNat, .d f.s.toNat] none false
      (fun e => [{ reg := .acc f.d.toNat, lat := 1, value := (rdD e f.s.toNat).signExtend 72 }])) ∧
  (∀ p f, f.rsv = 0 → f.t = 0 → f.s.toNat < 6 →
    WritesOnly (.movsRead p f) p (encR 0x1C 0 f) [.d f.d.toNat] none false
      (fun e => [wr (.d f.d.toNat) 1 (special e f.s.toNat)])) ∧
  (∀ p f, f.rsv = 0 → f.t = 0 → ∀ r ∈ ([(0, .ph), (1, .pl), (2, .flags)] : List (BitVec 4 × Reg)), f.d = r.1 →
    WritesOnly (.movsWrite p f) p (encR 0x1C 1 f) [.d f.s.toNat] none false
      (fun e => [wr r.2 1 (rdD e f.s.toNat)]))

/-- ACCRD (R294): the accumulator rounded, shifted right and cut or clamped as the immediate says lands in D[d] two cycles
after issue; a reserved bit or value traps. -/
def Obligations.ColmusAccumulatorRead : Prop :=
  ∀ p f s x, StandsAt s p x (encI 0x1D f) →
    (4 ≤ f.s.toNat ∨ 512 ≤ f.imm.toNat ∨ f.imm.toNat / 128 % 4 = 3 →
      exec (.accrd p f) s = .next (trapEngine x 0x02 0 s)) ∧
    (f.s.toNat < 4 → f.imm.toNat < 512 → f.imm.toNat / 128 < 3 →
      let e := atIssue x [.d f.d.toNat, .acc f.s.toNat] none false
      let amount := f.imm.toNat % 64
      let sum : BitVec 72 := if f.imm.getLsbD 6 = true ∧ 1 ≤ amount then rdAcc e f.s.toNat + BitVec.twoPow 72 (amount - 1)
        else rdAcc e f.s.toNat
      let v := sum.sshiftRight amount
      exec (.accrd p f) s = .next (s.setEngine p fun _ => advance { writes := [wr (.d f.d.toNat) 2
        (if f.imm.toNat / 128 = 0 then v.setWidth 32
         else if f.imm.toNat / 128 = 1 then BitVec.ofInt 32 (max (-2147483648) (min 2147483647 v.toInt))
         else BitVec.ofInt 32 (max (-32768) (min 32767 v.toInt)))] } e))

/-- Float instructions (Table 7.10, R295, R296): the value that goes to D[d] four cycles after issue, conversions two. -/
def Obligations.ColmusFloatResults : Prop :=
  (∀ r ∈ ([(.fadd, 0, fadd), (.fsub, 1, fsub), (.fmul, 2, fmul), (.fmin, 5, fmin), (.fmax, 6, fmax)] :
      List ((Nat → RFmt → Instr) × Nat × (Word → Word → Word))),
    ∀ p f, f.rsv = 0 → WritesOnly (r.1 p f) p (encR 0x20 r.2.1 f) [.d f.d.toNat, .d f.s.toNat, .d f.t.toNat] none false
      fun e => [wr (.d f.d.toNat) 4 (r.2.2 (rdD e f.s.toNat) (rdD e f.t.toNat))]) ∧
  (∀ r ∈ ([(.fma, 3, fma), (.fms, 4, fms)] : List ((Nat → RFmt → Instr) × Nat × (Word → Word → Word → Word))),
    ∀ p f, f.rsv = 0 → WritesOnly (r.1 p f) p (encR 0x20 r.2.1 f) [.d f.d.toNat, .d f.s.toNat, .d f.t.toNat] none false
      fun e => [wr (.d f.d.toNat) 4 (r.2.2 (rdD e f.d.toNat) (rdD e f.s.toNat) (rdD e f.t.toNat))]) ∧
  (∀ r ∈ ([(.fabs, 0x20, 7, 4, fun x => x &&& 0x7FFFFFFF), (.fneg, 0x20, 8, 4, fun x => x ^^^ 0x80000000),
      (.ftoi, 0x22, 0, 2, ftoi false), (.ftoin, 0x22, 1, 2, ftoi true), (.ftou, 0x22, 2, 2, ftou), (.itof, 0x22, 3, 2, itof),
      (.utof, 0x22, 4, 2, utof)] : List ((Nat → RFmt → Instr) × Nat × Nat × Nat × (Word → Word))),
    ∀ p f, f.rsv = 0 → f.t = 0 → WritesOnly (r.1 p f) p (encR r.2.1 r.2.2.1 f) [.d f.d.toNat, .d f.s.toNat] none false
      fun e => [wr (.d f.d.toNat) r.2.2.2.1 (r.2.2.2.2 (rdD e f.s.toNat))])

/-- Loads, stores and the dual-fetch MAC from the banks, and from the cluster window (R265 to R271, R291, R293). -/
def Obligations.ColmusMemoryResults : Prop :=
  (∀ p f s x, StandsAt s p x (encM 0x10 f) → mReserved f true false = false →
    let e := atIssue x (.d f.r.toNat :: mSources f ++ mBaseDst f) none (isLong s p f)
    let addr := (mAddr e f).toNat
    let n := 2 ^ f.size.toNat
    accessCheck e f.a.toNat addr n = none →
    (addr < 0x40000 → bankBad e addr n = false →
      exec (.ld p f) s = .next (s.setEngine p fun _ =>
        advance { writes := baseWrite e f ++ [wr (.d f.r.toNat) 3 (loadValue f (bankRead e addr n))] } e)) ∧
    (∀ run node rep, 0x01000000 ≤ addr → addr < 0x01400000 → engineRun s e = some (run, node, rep) →
      let off := addr - 0x01000000
      windowOk s e run.tenant off n = true →
      s.compute.sramPoison.contains (run.tenant, e.cluster, off / 8 * 8) = false →
      exec (.ld p f) s = .next (s.setEngine p fun _ =>
        advance { writes := baseWrite e f
                    ++ [wr (.d f.r.toNat) (windowCost e) (loadValue f (Memory.readN (sramOf s run.tenant e.cluster) off n))]
                  cost := windowCost e } e))) ∧
  (∀ p f s x, StandsAt s p x (encM 0x12 f) → mReserved f true true = false →
    let e := atIssue x (.a f.r.toNat :: mSources f ++ mBaseDst f) none (isLong s p f)
    let addr := (mAddr e f).toNat
    let n := 2 ^ f.size.toNat
    accessCheck e f.a.toNat addr n = none →
    (addr < 0x40000 → bankBad e addr n = false →
      exec (.lda p f) s = .next (s.setEngine p fun _ =>
        advance { writes := baseWrite e f ++ [wr (.a f.r.toNat) 3 (loadValue f (bankRead e addr n))] } e)) ∧
    (∀ run node rep, 0x01000000 ≤ addr → addr < 0x01400000 → engineRun s e = some (run, node, rep) →
      let off := addr - 0x01000000
      windowOk s e run.tenant off n = true →
      s.compute.sramPoison.contains (run.tenant, e.cluster, off / 8 * 8) = false →
      exec (.lda p f) s = .next (s.setEngine p fun _ =>
        advance { writes := baseWrite e f
                    ++ [wr (.a f.r.toNat) (windowCost e) (loadValue f (Memory.readN (sramOf s run.tenant e.cluster) off n))]
                  cost := windowCost e } e))) ∧
  (∀ p f s x, StandsAt s p x (encM 0x11 f) → mReserved f false false = false →
    let e := atIssue x (.d f.r.toNat :: mSources f ++ mBaseDst f) none (isLong s p f)
    let addr := (mAddr e f).toNat
    let n := 2 ^ f.size.toNat
    let bs := le n (rdD e f.r.toNat).toNat
    accessCheck e f.a.toNat addr n = none →
    (addr < 0x40000 →
      exec (.st p f) s = .next (s.setEngine p fun _ => advance { writes := baseWrite e f } (bankWrite e addr bs))) ∧
    (∀ run node rep, 0x01000000 ≤ addr → addr < 0x01400000 → engineRun s e = some (run, node, rep) →
      let off := addr - 0x01000000
      windowOk s e run.tenant off n = true →
      Completes (.st p f) s fun u =>
        u.engines = (s.setEngine p fun _ => advance { writes := baseWrite e f, cost := windowCost e } e).engines ∧
        sramOf u run.tenant e.cluster = Memory.writeN (sramOf s run.tenant e.cluster) off bs ∧
        (∀ t c, (t, c) ≠ (run.tenant, e.cluster) → sramOf u t c = sramOf s t c))) ∧
  (∀ p f s x, StandsAt s p x (encM 0x13 f) → mReserved f false true = false →
    let e := atIssue x (.a f.r.toNat :: mSources f ++ mBaseDst f) none (isLong s p f)
    let addr := (mAddr e f).toNat
    let n := 2 ^ f.size.toNat
    let bs := le n (rdA e f.r.toNat).toNat
    accessCheck e f.a.toNat addr n = none →
    (addr < 0x40000 →
      exec (.sta p f) s = .next (s.setEngine p fun _ => advance { writes := baseWrite e f } (bankWrite e addr bs))) ∧
    (∀ run node rep, 0x01000000 ≤ addr → addr < 0x01400000 → engineRun s e = some (run, node, rep) →
      let off := addr - 0x01000000
      windowOk s e run.tenant off n = true →
      Completes (.sta p f) s fun u =>
        u.engines = (s.setEngine p fun _ => advance { writes := baseWrite e f, cost := windowCost e } e).engines ∧
        sramOf u run.tenant e.cluster = Memory.writeN (sramOf s run.tenant e.cluster) off bs ∧
        (∀ t c, (t, c) ≠ (run.tenant, e.cluster) → sramOf u t c = sramOf s t c))) ∧
  (∀ p f s x, StandsAt s p x (encD f) → f.rsv = 0 → f.size ≠ 3 →
    let e := atIssue x ([Reg.a f.ax.toNat, Reg.a (4 + f.ay.toNat)] ++
      ((if f.mx == 3 then [Reg.a 8] else []) ++ if f.my == 3 then [Reg.a 9] else [])) (some f.acc.toNat) false
    let n := 2 ^ f.size.toNat
    let xa := rdA e f.ax.toNat
    let ya := rdA e (4 + f.ay.toNat)
    xa.toNat % n = 0 → ya.toNat % n = 0 → xa.toNat < 0x20000 → 0x20000 ≤ ya.toNat → ya.toNat < 0x40000 →
    bankBad e xa.toNat n = false → bankBad e ya.toNat n = false →
    let signed := f.uns == 0
    let v := product signed (element signed (bankRead e xa.toNat n)) (element signed (bankRead e ya.toNat n))
    let upd (r : Nat) (o : Option Word) : List Wr := (o.map fun w => [wr (.a r) 1 w]).getD []
    exec (.dmac p f) s = .next (s.setEngine p fun _ => advance
      { writes := upd f.ax.toNat (dmacStep f.mx n (rdA e 8) xa) ++ upd (4 + f.ay.toNat) (dmacStep f.my n (rdA e 9) ya)
          ++ [{ reg := .acc f.acc.toNat, lat := 4, value := accTerm signed (f.sub == 1) v, add := true }] } e))

/-- The edge ports (Table 7.6, R276 to R278): a load pops or reads the status; a store skips, pushes, flushes or ends.
Afterwards the edge's lanes move, and the engine goes on unless that ended its run. -/
def Obligations.ColmusPortResults : Prop :=
  (∀ (areg : Bool) p f s x, StandsAt s p x (encM (if areg then 0x12 else 0x10) f) → mReserved f true areg = false →
    let dst : Reg := if areg then .a f.r.toNat else .d f.r.toNat
    let e := atIssue x (dst :: mSources f ++ mBaseDst f) none (isLong s p f)
    let addr := (mAddr e f).toNat
    let n := 2 ^ f.size.toNat
    ∀ run node rep port edge, accessCheck e f.a.toNat addr n = none → engineRun s e = some (run, node, rep) →
    port < 4 → port < (gNode run.image node).nin → gIn run.image node port = some edge →
    (addr = 0x0F000000 + 0x100 * port → n ≤ (available run edge rep).length → nextPoisoned run edge rep n = false →
      exec (.inDataPop p f) s = .next (goesOn p e
        { writes := baseWrite e f ++ [wr dst 4 (loadValue f ((available run edge rep).take n))], cost := 4 }
        (pumpFor e (popN run.asn edge rep (n + 1) n s)))) ∧
    (∀ v, addr = 0x0F000004 + 0x100 * port → f.size = 2 → inStat run edge rep = some v →
      exec (.inStatRead p f) s = .next (goesOn p e
        { writes := baseWrite e f ++ [wr dst 4 (loadValue f (le 4 v))], cost := 4 } (pumpFor e s)))) ∧
  (∀ (areg : Bool) p f s x, StandsAt s p x (encM (if areg then 0x13 else 0x11) f) → mReserved f false areg = false →
    let src : Reg := if areg then .a f.r.toNat else .d f.r.toNat
    let e := atIssue x (src :: mSources f ++ mBaseDst f) none (isLong s p f)
    let addr := (mAddr e f).toNat
    let n := 2 ^ f.size.toNat
    let v := (if areg then rdA e f.r.toNat else rdD e f.r.toNat).toNat
    let fx : Fx := { writes := baseWrite e f, cost := 4 }
    ∀ run node rep port edge, accessCheck e f.a.toNat addr n = none → engineRun s e = some (run, node, rep) → port < 4 →
    (port < (gNode run.image node).nin → gIn run.image node port = some edge → addr = 0x0F000008 + 0x100 * port →
      f.size = 2 → (headChunk run edge rep).isSome = true →
      exec (.inSkip p f) s = .next (goesOn p e fx (pumpFor e (popN.pumpMerges run.asn edge (consume run.asn edge rep s))))) ∧
    (port < (gNode run.image node).nout → gOut run.image node port = some edge → outEnded run edge rep = false →
      (addr = 0x0F000800 + 0x100 * port → pushReady run edge rep n = true →
        exec (.outDataPush p f) s = .next (goesOn p e fx (pumpFor e (emitBytes run.asn edge rep (le n v) s)))) ∧
      (addr = 0x0F000808 + 0x100 * port → f.size = 2 → v = 1 → isLong s p f = true →
        exec (.flushPort p f) s = .next (goesOn p e fx (pumpFor e (flushOut run.asn edge rep s)))) ∧
      (addr = 0x0F000808 + 0x100 * port → f.size = 2 → v = 2 → isLong s p f = true →
        exec (.endPort p f) s = .next (goesOn p e fx (pumpFor e (emitEnd run.asn edge rep s))))))

/-- Loops, calls, HALT, the other SYS instructions, and what traps in every state (R279, R285, R287, R298, R300, R301, R305). -/
def Obligations.ColmusControlResults : Prop :=
  (∀ p f s x, StandsAt s p x (encL f) → freeOfSlots x → f.rsv = 0 → f.len ≠ 0 →
    let e := atIssue x [.d f.count.toNat] none false
    let n := (rdD e f.count.toNat).toNat
    let last := e.pc + 4 * f.len.toNat
    last < 0x10000 → (x.loops.length < 2 ∨ n = 0) →
    Completes (.loop p f) s fun u => ∃ y, u.engine? p = some y ∧
      (n = 0 → y.pc = last + 4 ∧ y.cycle = e.cycle + 3 ∧ y.loops = e.loops) ∧
      (n ≠ 0 → y.pc = e.pc + 4 ∧ y.loops = { first := e.pc + 4, last := last, left := n } :: e.loops)) ∧
  (∀ p f s x, StandsAt s p x (encC f) → freeOfSlots x → f.rsv = 0 →
    let e := atIssue x [] none true
    let len := frameLen f.mask
    let base := (rdA e 15).toNat - len
    let target := (rdA e f.target.toNat).toNat
    len + e.slim.toNat ≤ (rdA e 15).toNat → base % 4 = 0 → targetFault target = none → frameFault s e base len false = none →
    let words := frameWords e f.mask
    let done := (List.range words.length).foldl (fun z i => frameWrite (base + 4 * i) (words.getD i 0) z) (e, s)
    exec (.call p f) s = .next (goesOn p done.1
      { writes := [wr (.a 15) 1 (BitVec.ofNat 32 base)], cost := 2 + len / 4, target := some target } done.2)) ∧
  (∀ p s x, StandsAt s p x (encR 0x30 1 ⟨0, 0, 0, 0⟩) → freeOfSlots x →
    let e := atIssue x [] none true
    ∀ run node rep, engineRun s e = some (run, node, rep) →
    let ins := (List.range (gNode run.image node).nin).filterMap (gIn run.image node)
    let outs := (List.range (gNode run.image node).nout).filterMap (gOut run.image node)
    let s1 := outs.foldl (fun s o => if outEnded run o rep then s else emitEnd run.asn o rep s) s
    let s2 := ins.foldl (fun s i => discardInput run.asn i rep 4096 s) s1
    ((s2.run? run.asn).map fun r => ins.all fun i => atEnd r i rep) = some true →
    exec (.halt p ⟨0, 0, 0, 0⟩) s = .next (goesOn p { e with halted := true } { target := some e.pc }
      (pumpFor e (ins.foldl (fun s i => takeEnd run.asn i rep s) s2)))) ∧
  (∀ p, WritesOnly (.nop p ⟨0, 0, 0, 0⟩) p (encR 0x30 0 ⟨0, 0, 0, 0⟩) [] none false fun _ => []) ∧
  (∀ p, WritesOnly (.drain p ⟨0, 0, 0, 0⟩) p (encR 0x30 3 ⟨0, 0, 0, 0⟩) [] none true fun _ => []) ∧
  (∀ p s x, StandsAt s p x (encR 0x30 2 ⟨0, 0, 0, 0⟩) → freeOfSlots x →
    exec (.brk p ⟨0, 0, 0, 0⟩) s = .next (trapEngine (atIssue x [] none false) 0x09 0 s)) ∧
  (∀ p w s x, StandsAt s p x w → undefinedWord w = true →
    exec (.undefinedInstruction p w) s = .next (trapEngine x 0x01 0 s))

/-- The targets of B and JR (R297): B's own address plus four times its immediate when the condition holds, JR's register.
A target that is no multiple of 4 traps MISALIGNED and one at or above 0x1_0000 traps ACCESS, in open mode too when the
branch issues. -/
def Obligations.ColmusBranchTargets : Prop :=
  (∀ p f s x, StandsAt s p x (encB f) → freeOfSlots x → f.cond ≠ 15 →
    let e := atIssue x [.flags] none false
    let target := (BitVec.ofNat 32 e.pc + (f.imm.signExtend 32 <<< 2)).toNat
    (e.openMode = true → slotHoldsLast e = false) →
    (condHolds e f.cond.toNat = true → target % 4 ≠ 0 → exec (.b p f) s = .next (trapEngine e 0x03 target s)) ∧
    (condHolds e f.cond.toNat = true → target % 4 = 0 → 0x10000 ≤ target →
      exec (.b p f) s = .next (trapEngine e 0x04 target s)) ∧
    ((condHolds e f.cond.toNat = true → target % 4 = 0 ∧ target < 0x10000) →
      Completes (.b p f) s fun u => ∃ y, u.engine? p = some y ∧
        (e.openMode = false → y.pc = (if condHolds e f.cond.toNat then target else e.pc + 4) ∧
          y.cycle = e.cycle + (if condHolds e f.cond.toNat then 3 else 1)) ∧
        (e.openMode = true → y.pc = e.pc + 4 ∧
          y.delay = some (if condHolds e f.cond.toNat then some target else none, 2)))) ∧
  (∀ p f s x, StandsAt s p x (encR 0x29 0 f) → freeOfSlots x → f.rsv = 0 → f.d = 0 → f.t = 0 →
    let e := atIssue x [.a f.s.toNat] none false
    let target := (rdA e f.s.toNat).toNat
    (e.openMode = true → slotHoldsLast e = false) →
    (target % 4 ≠ 0 → exec (.jr p f) s = .next (trapEngine e 0x03 target s)) ∧
    (target % 4 = 0 → 0x10000 ≤ target → exec (.jr p f) s = .next (trapEngine e 0x04 target s)) ∧
    (target % 4 = 0 → target < 0x10000 → Completes (.jr p f) s fun u => ∃ y, u.engine? p = some y ∧
      (e.openMode = false → y.pc = target ∧ y.cycle = e.cycle + 3) ∧
      (e.openMode = true → y.pc = e.pc + 4 ∧ y.delay = some (some target, 2))))

/-- RET (R302): the registers that the mask word at A15 names come back from the frame, A15 passes the frame and PC takes the
return address; a return address that breaks R297 traps and restores nothing. -/
def Obligations.ColmusReturn : Prop :=
  ∀ p s x, StandsAt s p x (encRet 0) → freeOfSlots x →
    let e := atIssue x [] none true
    let sp := (rdA e 15).toNat
    let mask : BitVec 16 := (frameRead s e sp).setWidth 16
    let back := (frameRead s e (sp + 4)).toNat
    e.slim.toNat ≤ sp → sp % 4 = 0 → frameFault s e sp 8 true = none →
    (back % 4 ≠ 0 → exec (.ret p 0) s = .next (trapEngine e 0x03 back s)) ∧
    (back % 4 = 0 → 0x10000 ≤ back → exec (.ret p 0) s = .next (trapEngine e 0x04 back s)) ∧
    (back % 4 = 0 → back < 0x10000 → frameFault s e sp (frameLen mask) true = none →
      exec (.ret p 0) s = .next (s.setEngine p fun _ => advance
        { writes := frameRestore mask (fun i => frameRead s e (sp + 4 * i)) ++
            [wr (.a 15) 1 (BitVec.ofNat 32 (sp + frameLen mask))]
          cost := 2 + frameLen mask / 4, target := some back } e))

/-- A write lands in its register exactly its latency after the cycle of issue, and until then the register reads as before
(R280, R281, R283). In product mode an instruction waits until the writes of its registers other than PH and PL have
landed, and in open mode only a barrier waits (R281, R285). -/
def Obligations.ColmusTiming : Prop :=
  (∀ (e : Engine) (i lat : Nat) (v : Word) (c : Nat), i < 16 → 1 ≤ lat → e.cycle < c →
      e.flight.Pairwise (fun a b => a.lands ≤ b.lands) → (e.flight.all fun f => f.reg != .d i) = true →
      rdD (landTo c (advance { writes := [wr (.d i) lat v] } e)) i = if e.cycle + lat ≤ c then v else rdD e i) ∧
  (∀ (x : Engine) (regs : List Reg) (barrier : Bool), x.flight.Pairwise (fun a b => a.lands ≤ b.lands) →
      (∀ f ∈ x.flight, (barrier = true ∨ (x.openMode = false ∧ f.reg ∈ regs ∧ f.reg ≠ .ph ∧ f.reg ≠ .pl)) →
        f.lands ≤ (atIssue x regs none barrier).cycle ∧ f ∉ (atIssue x regs none barrier).flight) ∧
      (x.openMode = true → barrier = false → (atIssue x regs none barrier).cycle = x.cycle))

/-- A word that breaks a form traps and writes nothing: a reserved bit RESERVED_FIELD, a jump in a delay slot or at the
end of a loop body ILLEGAL_OP, and memory accesses in the order of R304. -/
def Obligations.ColmusTraps : Prop :=
  (∀ p f s x, StandsAt s p x (encR 0x01 0x00 f) → f.rsv ≠ 0 →
    exec (.add p f) s = .next (trapEngine x 0x02 0 s)) ∧
  (∀ p f s x, StandsAt s p x (encB f) → (x.delay.isSome = true ∨ atBodyLast x x.pc = true) →
    exec (.b p f) s = .next (trapEngine x 0x01 0 s)) ∧
  (∀ p f s x, StandsAt s p x (encM 0x11 f) → mReserved f false false = false →
    let e := atIssue x (.d f.r.toNat :: mSources f ++ mBaseDst f) none (isLong s p f)
    let addr := (mAddr e f).toNat
    (f.a = 15 → addr < e.slim.toNat → exec (.st p f) s = .next (trapEngine e 0x07 addr s)) ∧
    ((f.a = 15 → e.slim.toNat ≤ addr) → addr % 2 ^ f.size.toNat ≠ 0 →
      exec (.st p f) s = .next (trapEngine e 0x03 addr s)) ∧
    ((f.a = 15 → e.slim.toNat ≤ addr) → addr % 2 ^ f.size.toNat = 0 → regionOf addr = .none →
      exec (.st p f) s = .next (trapEngine e 0x04 addr s)))

/-- Reading and staging a settings set (R447): a record in force or staged with its generation; a stage refused from an
older generation. Live-safe changes and the START values of the plan's windows (R46, R451): each waits for
a beat boundary, enters the staged copy, and answers the beat at which it takes effect. -/
def Obligations.SettingsRequestsComplete : Prop :=
  (∀ t q part src s, Accepted s q 0x0201 8 false → (roleOf s q.ep = .owner ∨ roleOf s q.ep = .admin q.tenant ∧ part = 1 + q.tenant) →
    part ≤ 256 → src ≤ 1 →
    Completes (.setRead t q part src) s fun u => u.settings = s.settings ∧
      Responded q 0x0201 msOk (match src, s.settings.staged with
        | 1, some (g, b) => le 8 g ++ SetBody.part b part
        | _, _ => le 8 s.settings.gen ++ SetBody.part (setInForce s) part) u) ∧
  (∀ t q base part rec s, Accepted s q 0x0202 (16 + (if part = 0 then 512 else 256)) false → roleOf s q.ep = .owner → part ≤ 256 →
    recOk part rec = true →
    let b := match s.settings.staged with
      | some (g, b) => if g = s.settings.gen then b else setInForce s
      | none => setInForce s
    (base ≠ s.settings.gen → Completes (.setStage t q base part rec) s fun u =>
      Responded q 0x0202 msStale [] u ∧ u.settings = s.settings) ∧
    (stageStatus s base part rec b = none → Completes (.setStage t q base part rec) s fun u => Responded q 0x0202 msOk [] u ∧
      u.settings = { s.settings with staged := some (base, match rec with
        | .dev r => { b with dev := r }
        | .ten r => SetBody.put b r) })) ∧
  (∀ t q s, Accepted s q 0x0204 0 true → roleOf s q.ep = .owner →
    Completes (.setDiscard t q) s fun u => Responded q 0x0204 msOk [] u ∧ u.settings = { s.settings with staged := none }) ∧
  (∀ t q s, Accepted s q 0x0501 0 true → roleOf s q.ep = .owner →
    Completes (.planRead t q) s fun u => Responded q 0x0501 msOk (le 8 s.settings.gen ++ s.firn.plan.bytes) u ∧ u.firn = s.firn) ∧
  (∀ t q fld value l s, Accepted s q 0x0205 16 (decide (3 < fld)) → roleOf s q.ep = .owner →
    liveOf s q.tenant fld value = some l →
    (fld ≤ 3 → ((s.tenant? q.tenant).map (·.state == .destroying)).getD true = false) →
    Completes (.setLive t q fld value) s fun u => Responded q 0x0205 msOk (le 8 (liveBeat (s.arrive t))) u ∧
      u.settings = { s.settings with live := s.settings.live ++ [(max s.now t, l)]
                                     staged := s.settings.staged.map fun x => (x.1, liveInto l x.2) }) ∧
  (∀ t q starts s, Accepted s q 0x0502 32 true → roleOf s q.ep = .owner → starts.length = 16 → (∀ x ∈ starts, x ≤ 4095) →
    let n := (setPending s).dev.plan.windows.length
    let l := Live.edges (starts.take n)
    (∀ x ∈ starts.drop n, x = 0) →
    Completes (.firnEdges t q starts) s fun u =>
      match planReason (s.tenants.map (·.num)) (hasStill s) (liveInto l (setPending s)).dev.plan with
      | none => Responded q 0x0502 msOk (le 8 (liveBeat (s.arrive t))) u ∧
        u.settings = { s.settings with live := s.settings.live ++ [(max s.now t, l)]
                                       staged := s.settings.staged.map fun x => (x.1, liveInto l x.2) }
      | some (why, ix) => Responded q 0x0502 msPlan (detailBody (why + 256 * ix)) u ∧ u.settings = s.settings)

/-- A commit that passes every check starts at once when none runs, and waits behind the one that runs (R205, R434, R448);
its first NOR step erases the bank that does not hold the generation in force. -/
def Obligations.SettingsCommitComplete : Prop :=
  ∀ t q base s, Accepted s q 0x0203 8 true → roleOf s q.ep = .owner →
    (s.settings.commit.isSome = true → Completes (.setCommit t q base) s fun u => Executing q 0x0203 u ∧
      u.settings = { s.settings with commitQueue := s.settings.commitQueue ++ [.set q base] }) ∧
    (∀ body, s.settings.commit = none → s.settings.commitQueue = [] → s.settings.staged = some (base, body) →
      base = s.settings.gen → holdingsFit s (SetBody.blanked s body) = true → commitStopped s (SetBody.blanked s body) = true →
      Completes (.setCommit t q base) s fun u =>
        match setReason s (SetBody.blanked s body) true,
            planReason (s.tenants.map (·.num)) (hasStill s) (SetBody.blanked s body).dev.plan with
        | some (why, part), _ => Responded q 0x0203 msSet (detailBody (why + part * 2 ^ 16)) u ∧ u.settings = s.settings
        | none, some (why, ix) => Responded q 0x0203 msPlan (detailBody (why + 256 * ix)) u ∧ u.settings = s.settings
        | none, none => Executing q 0x0203 u ∧ u.settings.staged = none ∧
          u.settings.commit = some (1, SetBody.blanked s body, .set q base) ∧ u.boot.nor = s.boot.nor ++ [.bank] ∧
          (if targetBank s = 0 then u.settings.bankA = none ∧ u.settings.bankB = s.settings.bankB
           else u.settings.bankB = none ∧ u.settings.bankA = s.settings.bankA)) ∧
    (s.settings.commit = none → s.settings.commitQueue = [] → s.settings.staged = none →
      Completes (.setCommit t q base) s fun u => Responded q 0x0203 msStale [] u ∧ u.settings.commit = none)

/-- The map shelf, the board and the device as a whole (R133, R136, R178, R197, R198, R444, R512, Table 11.7). -/
def Obligations.DeviceRequestsComplete : Prop :=
  (∀ t q port ranges s, Accepted s q 0x0206 (8 + 16 * ranges.length) true → roleOf s q.ep = .owner → port ≤ 1 →
    1 ≤ ranges.length → ranges.length ≤ 64 → (∀ r ∈ ranges, r.1 % 2 ^ 21 = 0 ∧ r.2 % 2 ^ 21 = 0 ∧ r.2 ≠ 0) →
    (s.media.cacheMode = true → sumBy (·.2) ranges ≤ 32 * 2 ^ 30 → (port = 1 → s.boot.portcfg = 0) →
      Completes (.shelfGrant t q port ranges) s fun u => Responded q 0x0206 msOk (le 8 (sumBy (·.2) ranges)) u ∧
        u.media.shelf.state = 1 ∧ u.media.shelf.ranges = ranges ∧ u.media.shelf.port = (if port = 1 then .b else .a) ∧
        u.media.shelf.pages = []) ∧
    (s.media.cacheMode = false ∨ 32 * 2 ^ 30 < sumBy (·.2) ranges →
      Completes (.shelfGrant t q port ranges) s fun u => Responded q 0x0206 msNoResource [] u ∧ u.media = s.media)) ∧
  (∀ t q s, Accepted s q 0x0207 0 true → roleOf s q.ep = .owner → Completes (.shelfWithdraw t q) s fun u =>
    Responded q 0x0207 msOk [] u ∧ u.media.shelf.state ≠ 1) ∧
  (∀ t q d s, Accepted s q 0x0A03 32 true → roleOf s q.ep = .board → boardDescBad d = false →
    Completes (.boardDesc t q d) s fun u => Executing q 0x0A03 u ∧ u.boot.nor = s.boot.nor ++ [.desc q d 0, .desc q d 1]) ∧
  (∀ t q mw s, Accepted s q 0x0A04 8 true → (roleOf s q.ep = .owner ∨ roleOf s q.ep = .board) →
    (mw = 0 ∨ 30000 ≤ mw ∧ mw ≤ 86000) →
    Completes (.powerLimit t q mw) s fun u => Responded q 0x0A04 msOk [] u ∧
      u.power.limit = if mw = 0 then 86000 else mw) ∧
  (∀ t q s, Accepted s q 0x0A01 0 true → (roleOf s q.ep = .owner ∨ roleOf s q.ep = .board) →
    Completes (.holdupStatus t q) s fun u => Responded q 0x0A01 msOk (holdupBytes (s.arrive t)) u ∧ u.holdup = s.holdup) ∧
  (∀ t q s, Accepted s q 0x0A02 0 true → (roleOf s q.ep = .owner ∨ roleOf s q.ep = .board) →
    (s.boot.shutdownRq = none → Completes (.shutdown t q) s fun u => Executing q 0x0A02 u ∧ u.boot.shutdownRq = some q) ∧
    (s.boot.shutdownRq.isSome = true → Completes (.shutdown t q) s fun u => Responded q 0x0A02 msBusy [] u ∧
      u.boot.shutdownRq = s.boot.shutdownRq)) ∧
  (∀ t q s, Accepted s q 0x0101 0 true → Completes (.deviceInfo t q) s fun u => ∃ body, Responded q 0x0101 msOk body u ∧
    body.length = 64 ∧ slice body 0 16 = pad 16 orderingCode ∧ field body 16 4 = 0x6440000B ∧ field body 20 1 = 0x42 ∧
    field body 21 1 = DevState.code s.media.dev ∧
    field body 23 1 = Role.code (roleOf s q.ep) ∧ slice body 0x20 8 = le 8 s.settings.gen ∧ field body 0x2E 2 = 4096 ∧
    field body 0x30 4 = 524288) ∧
  (∀ t q offset data s, Accepted s q 0x0105 (8 + data.length) false →
    offset + data.length ≤ 524288 →
    Completes (.bulkWrite t q offset data) s fun u => Responded q 0x0105 msOk [] u ∧
      (u.ep q.ep).bulk = Memory.writeN (s.ep q.ep).bulk offset data)

/-- Namespaces that the mailbox makes and grows (R75, R137 to R141, R372, Table 11.8). -/
def Obligations.NamespaceRequestsComplete : Prop :=
  (∀ t q grain still lbaf assured stretch s, Accepted s q 0x0309 32 false →
    (roleOf s q.ep = .owner ∨ roleOf s q.ep = .admin q.tenant) → grain ≤ 1 → still ≤ 1 → lbaf ≤ 1 →
    (still = 1 → grain = 0 ∧ stretch = 0) → 32 * 2 ^ 20 ≤ assured → assured % (32 * 2 ^ 20) = 0 → stretch % (32 * 2 ^ 20) = 0 →
    assured < 2 ^ 64 → stretch < 2 ^ 64 → ((s.tenant? q.tenant).map (·.state != .destroying)).getD false = true →
    freeNsids s ≠ [] →
    Completes (.nsCreate t q grain still 0 lbaf 0 0 assured stretch) s fun u =>
      if capacityFits s (still == 1) assured stretch (0, 0) = true ∧ (still = 1 → stillOffered s = true) then
        ∃ n x, s.ns? n = none ∧ 1 ≤ n ∧ n ≤ 1024 ∧
          u.ns? n = some x ∧ x.tenant = q.tenant ∧ x.grain32 = (grain == 1) ∧ x.still = (still == 1) ∧ x.lbaf = lbaf ∧
          x.assured = assured ∧ x.stretch = stretch ∧ x.keysrc = 0 ∧ x.key.isSome = true ∧ x.map = [] ∧
          x.attached = [⟨q.tenant, .a⟩, ⟨q.tenant, .b⟩] ∧ Responded q 0x0309 msOk (le 4 n) u ∧
          ∀ m, m ≠ n → (u.ns? m).map Ns.free = (s.ns? m).map Ns.free
      else Responded q 0x0309 msNoResource [] u ∧ u.nss.map Ns.free = s.nss.map Ns.free) ∧
  (∀ t q nsid assured stretch n s, Accepted s q 0x030A 24 false → (roleOf s q.ep = .owner ∨ roleOf s q.ep = .admin q.tenant) →
    1 ≤ nsid → nsid ≤ 1024 → 32 * 2 ^ 20 ≤ assured → assured % (32 * 2 ^ 20) = 0 → stretch % (32 * 2 ^ 20) = 0 →
    assured < 2 ^ 64 → stretch < 2 ^ 64 → s.ns? nsid = some n → n.tenant = q.tenant →
    (n.assured ≤ assured → n.stretch ≤ stretch → (n.still = true → stretch = 0) →
      Completes (.nsResize t q nsid assured stretch) s fun u =>
        if capacityFits s n.still assured stretch (n.assured, n.stretch) = true then Responded q 0x030A msOk [] u ∧
          (u.ns? nsid).map Ns.free = some (Ns.free { n with assured := assured, stretch := stretch }) ∧
          ∀ m, m ≠ nsid → (u.ns? m).map Ns.free = (s.ns? m).map Ns.free
        else Responded q 0x030A msNoResource [] u ∧ u.nss.map Ns.free = s.nss.map Ns.free) ∧
    (assured < n.assured ∨ stretch < n.stretch →
      Completes (.nsResize t q nsid assured stretch) s fun u => Responded q 0x030A msNotPermitted [] u ∧
        u.nss.map Ns.free = s.nss.map Ns.free))

/-- Pins and links of the ports (R71, R73, R573): PERST and a lost link reset every controller of the port; re-equalisation of
a link and its correctable errors (R556, R557). -/
def Obligations.LinksComplete : Prop :=
  (∀ t p s, portUsed s p = true → Completes (.perstAssert t p) s fun u =>
    (u.link p).perst = true ∧ (u.link p).up = false ∧ (u.link p).training = false ∧
    ∀ f c, f.port = p → u.ctrl? f = some c → c.en = false ∧ c.rdy = false ∧ c.sqs = [] ∧ c.cqs = []) ∧
  (∀ t p s, portUsed s p = true → (s.link p).perst = true → Completes (.perstDeassert t p) s fun u =>
    (u.link p).perst = false ∧ (u.link p).training = linksFree s) ∧
  (∀ t p s, (s.link p).up = true → Completes (.linkDown t p) s fun u =>
    (u.link p).up = false ∧ (u.link p).training = (!(s.link p).perst && linksFree s) ∧
    ∀ f c, f.port = p → u.ctrl? f = some c → c.en = false ∧ c.rdy = false ∧ c.sqs = [] ∧ c.cqs = []) ∧
  (∀ t p rate width s, (s.link p).training = true → rate ∈ [2, 5, 8, 16, 32, 64, 128] →
    (width ∈ [1, 2, 4, 8] ∨ (s.boot.portcfg = 1 ∧ p = .a ∧ width = 16)) →
    Completes (.linkUp t p rate width) s fun u =>
      (u.link p).up = true ∧ (u.link p).training = false ∧ (u.link p).rate = rate ∧ (u.link p).width = width) ∧
  (∀ t p s, (s.link p).up = true → Completes (.l12Entry t p) s fun u => (u.link p).l12 = true ∧ (u.link p).clkreq = false) ∧
  (∀ t p s, (s.link p).l12 = true → Completes (.l12Exit t p) s fun u => (u.link p).l12 = false ∧ (u.link p).clkreq = true) ∧
  (∀ t p s, s.serving = true → (s.link p).up = true → (s.link p).reeqDue = true → s.linkA.reeq = false → s.linkB.reeq = false →
    reeqNow (s.arrive t) = true → Completes (.serdesReequalisation t p) s fun u =>
      u.link p = { s.link p with reeq := true, reeqDue := false }) ∧
  (∀ t p rate s, (s.link p).reeq = true → rate ∈ [2, 5, 8, 16, 32, 64, 128] → Completes (.serdesReeqComplete t p rate) s fun u =>
    (u.link p).reeq = false ∧ (u.link p).rate = rate ∧ (u.link p).reeqs = (s.link p).reeqs + 1 ∧
    (u.link p).retryAt = (if rate < (s.link p).rate ∨ (s.link p).retryAt.isSome ∧ rate ≤ (s.link p).rate
      then some (max s.now t + ticksPerHour) else none)) ∧
  (∀ t p s, (s.link p).up = true → Completes (.linkPartnerReequalisation t p) s fun u =>
    u.link p = { s.link p with reeq := true }) ∧
  (∀ t p s, (s.link p).up = true → max s.now t - (s.link p).errorsSince < 60 * ticksPerS → 1 ≤ (s.link p).errors →
    ((s.link p).errors < 64 → Completes (.correctableLinkError t p) s fun u =>
      u.link p = { s.link p with errors := (s.link p).errors + 1 }) ∧
    (64 ≤ (s.link p).errors → Completes (.correctableLinkError t p) s fun u =>
      u.link p = { s.link p with errors := 0, reeqDue := true }))

/-- Resets, enabling and shutdown of a controller (R8, R72, R73, R198, R257). -/
def Obligations.ControllerEventsComplete : Prop :=
  (∀ t f s, hostReaches s f = true → Completes (.functionLevelReset t f) s fun u =>
    (∃ c, u.ctrl? f = some c ∧ c.en = false ∧ c.rdy = false ∧ c.sqs = [] ∧ c.cqs = [] ∧ c.epochLo = 0 ∧
      c.epochCount = 1 ∧ c.msixTable = [] ∧ (s.ctrl? f).map (fun x => (x.beatHi, x.posL)) = some (c.beatHi, c.posL)) ∧
    ∀ sl ∈ u.slots, sl.fn = f → sl.orphan = true) ∧
  (∀ t f css c s, s.ctrl? f = some c → c.en = false → hostReaches s f = true → (css = 0 ∨ css = 6) →
    Completes (.controllerEnable t f css) s fun u => ∃ c, u.ctrl? f = some c ∧ c.en = true ∧ c.css = css ∧
      c.rdy = (s.boot.life == .running)) ∧
  (∀ t f c s, s.ctrl? f = some c → c.en = true → hostReaches s f = true → Completes (.controllerDisable t f) s fun u =>
    (∃ c, u.ctrl? f = some c ∧ c.en = false ∧ c.rdy = false ∧ c.sqs = [] ∧ c.cqs = [] ∧ c.asq.head = 0 ∧ c.asq.tail = 0 ∧
      c.acq.head = 0 ∧ c.aers = []) ∧
    ∀ sl ∈ u.slots, sl.fn = f → sl.orphan = true) ∧
  (∀ t f c s, s.ctrl? f = some c → c.en = true → c.shst = 0 → hostReaches s f = true → quiet s = true →
    Completes (.controllerShutdown t f) s fun u => ∃ c, u.ctrl? f = some c ∧
      c.shst = if (s.staged.any fun p => !p.tomb && p.committed && (tenantNs s f.tenant).contains p.nsid) then 1 else 2)

/-- Doorbells and interrupt messages (R70, R83, R85). A doorbell value beyond the queue raises the event and moves nothing. -/
def Obligations.DoorbellsComplete : Prop :=
  (∀ t f qid tail c q s, s.ctrl? f = some c → c.en = true → hostReaches s f = true → sqOf c qid = some q →
    let fresh := (tail + q.size - q.tail) % max 1 q.size
    let held := (q.tail + q.size - q.head) % max 1 q.size
    (tail < q.size → fresh + held < q.size →
      Completes (.sqDoorbell t f qid tail) s fun u => ∃ q', (u.ctrl? f).bind (sqOf · qid) = some q' ∧
        q'.tail = tail ∧ q'.head = q.head ∧ q'.bells.length = q.bells.length + fresh) ∧
    (q.size ≤ tail ∨ q.size ≤ fresh + held → c.aers = [] →
      Completes (.sqDoorbell t f qid tail) s fun u => (u.ctrl? f).bind (sqOf · qid) = some q ∧
        ∃ c', u.ctrl? f = some c' ∧ .invalidDoorbellValue ∈ c'.events)) ∧
  (∀ t f qid head c q s, s.ctrl? f = some c → c.en = true → hostReaches s f = true → cqAt c qid = some q →
    let taken := (head + q.size - q.head) % max 1 q.size
    let held := (q.tail + q.size - q.head) % max 1 q.size
    (head < q.size → taken ≤ held →
      Completes (.cqDoorbell t f qid head) s fun u => (u.ctrl? f).bind (cqAt · qid) = some { q with head := head }) ∧
    (q.size ≤ head ∨ held < taken → c.aers = [] →
      Completes (.cqDoorbell t f qid head) s fun u => (u.ctrl? f).bind (cqAt · qid) = some q ∧
        ∃ c', u.ctrl? f = some c' ∧ .invalidDoorbellValue ∈ c'.events)) ∧
  (∀ t f v c k since s, s.ctrl? f = some c → get? v c.coalWaiting = some (k, since) →
    since + c.coalTime * 100 * ticksPerUs ≤ max s.now t →
    Completes (.aggregationTimeExpiry t f v) s fun u => ∃ c', u.ctrl? f = some c' ∧ get? v c'.coalWaiting = none ∧
      (if (Memory.read (16 * v + 12) c.msixTable).toNat % 2 = 1 then v ∈ c'.msixPending ∧ u.outbox = s.outbox
       else u.outbox = .msix f v :: s.outbox))

/-- Fetching, the span of sequence numbers, and aborts (R84 to R90, R105, R107). -/
def Obligations.FetchAndAbortComplete : Prop :=
  (∀ t e f qid s1 s, arbitrate (s.arrive t) = some (f, qid, s1) → (s.ctrl? f).isSome = true →
    ((s.slots.any fun x => x.fn == f && x.sqid == qid && x.sqe.cid == e.cid && !x.orphan) = false →
      ∀ ix, freeSlot s (qid == 0) = some ix →
      Completes (.commandFetch t e) s fun u => u.asn = (s.asn + 1) % 2 ^ 48 ∧
        ∃ sl, u.slot? ix = some sl ∧ sl.asn = s.asn ∧ sl.sqe = e ∧ sl.fn = f ∧ sl.sqid = qid ∧ sl.phase = .fetched) ∧
    ((s.slots.any fun x => x.fn == f && x.sqid == qid && x.sqe.cid == e.cid && !x.orphan) = true →
      Completes (.commandFetch t e) s fun u => u.asn = (s.asn + 1) % 2 ^ 48 ∧ u.slots = s.slots ∧
        ∃ cq, Output.cqe f cq qid e.cid stCidConflict 0 ∈ u.outbox)) ∧
  (∀ t sl s, s.slot? sl.ix = some sl → 2 ^ 46 ≤ (s.asn + 2 ^ 48 - sl.asn) % 2 ^ 48 → sl.phase ≠ .posted →
    runOfSlot s sl.ix = none → s.pfail.stopped = false → sl.orphan = false → sl.timers = [] → (s.ctrl? sl.fn).isSome = true →
    quiet s = true →
    Completes (.asnSpanLimit t sl.ix) s fun u => Posted sl stInternal 0 u) ∧
  (∀ t sl x sqid cid s, Ready s sl → sl.sqe.body = .abort sqid cid →
    (s.slots.filter fun y => y.fn == sl.fn && y.phase == .aborting).length < 8 →
    (s.slots.find? fun y => y.fn == sl.fn && y.sqid == sqid && y.sqe.cid == cid && y.ix != sl.ix && !y.orphan) = some x →
    x.phase ≠ .posted → (x.sqid ≠ 0 ∨ x.sqe.body = .aer) → s.slot? x.ix = some x →
    Completes (.abort t sl.ix) s fun u => ((u.slot? sl.ix).map (·.phase)) = some .aborting ∧
      ((u.slot? x.ix).map (·.timers)) = some (x.timers ++ [(sl.ix, max s.now t + 10000)])) ∧
  (∀ t x a ix d s, (s.slots.find? fun y => y.timers.any (·.1 == ix)) = some x → s.slot? x.ix = some x →
    get? ix x.timers = some d → d ≤ max s.now t → s.pfail.stopped = false → completesFirst (s.arrive t) x d = false →
    runOfSlot s x.ix = none → x.orphan = false → (s.ctrl? x.fn).isSome = true → quiet s = true →
    s.slot? ix = some a → x.ix ≠ ix → a.orphan = false → (s.ctrl? a.fn).isSome = true →
    Completes (.abortTimerExpiry t ix) s fun u => Posted x stAborted 0 u ∧ Posted a stOk 0 u)

/-- Event requests and the making and deleting of queues (R82, R83, R85, R92, R109). -/
def Obligations.QueueCommandsComplete : Prop :=
  (∀ t sl c s, Ready s sl → sl.sqe.body = .aer → s.ctrl? sl.fn = some c → c.aers.length < 8 →
    (c.events = [] → Completes (.asynchronousEventRequest t sl.ix) s fun u =>
      (u.slot? sl.ix).map (·.phase) = some .pendingEvent ∧ (u.ctrl? sl.fn).map (·.aers) = some (c.aers ++ [sl.ix])) ∧
    (∀ ev rest, c.events = ev :: rest → Completes (.asynchronousEventRequest t sl.ix) s fun u =>
      Posted sl stOk ev.dword u ∧ (u.ctrl? sl.fn).map (·.events) = some rest)) ∧
  (∀ t sl c qid size vector s, Ready s sl → sl.sqe.body = .createCq qid size vector → s.ctrl? sl.fn = some c →
    1 ≤ qid → qid ≤ c.pairs → c.cqs.any (·.qid == qid) = false → 2 ≤ size → size ≤ 4096 → vector ≤ 2048 →
    Completes (.createIoCq t sl.ix) s fun u => Posted sl stOk 0 u ∧
      (u.ctrl? sl.fn).bind (cqAt · qid) = some { qid := qid, size := size, vector := vector }) ∧
  (∀ t sl c qid size cqid prio s, Ready s sl → sl.sqe.body = .createSq qid size cqid prio → s.ctrl? sl.fn = some c →
    1 ≤ qid → qid ≤ c.pairs → c.sqs.any (·.qid == qid) = false → c.cqs.any (·.qid == cqid) = true → 2 ≤ size → size ≤ 4096 →
    prio ≤ 3 → (prio = 0 → ((s.tenant? sl.fn.tenant).map (·.cfg.urgentOk)) = some true) →
    Completes (.createIoSq t sl.ix) s fun u => Posted sl stOk 0 u ∧
      (u.ctrl? sl.fn).bind (sqOf · qid) = some { qid := qid, size := size, cqid := cqid, prio := prio }) ∧
  (∀ t sl c qid s, Ready s sl → sl.sqe.body = .deleteSq qid → s.ctrl? sl.fn = some c → c.sqs.any (·.qid == qid) = true →
    (s.slots.any fun x => x.fn == sl.fn && x.sqid == qid && !x.orphan) = false →
    Completes (.deleteIoSq t sl.ix) s fun u => Posted sl stOk 0 u ∧
      (u.ctrl? sl.fn).map (·.sqs) = some (c.sqs.filter (·.qid != qid))) ∧
  (∀ t sl c qid s, Ready s sl → sl.sqe.body = .deleteCq qid → s.ctrl? sl.fn = some c → c.cqs.any (·.qid == qid) = true →
    1 ≤ qid → c.sqs.any (·.cqid == qid) = false →
    Completes (.deleteIoCq t sl.ix) s fun u => Posted sl stOk 0 u ∧ (u.ctrl? sl.fn).bind (cqAt · qid) = none) ∧
  (∀ t sl c nsq ncq s, Ready s sl → sl.sqe.body = .setQueues nsq ncq → s.ctrl? sl.fn = some c → c.sqs = [] → c.cqs = [] →
    nsq < 65535 → ncq < 65535 →
    let quota := if exposed s sl.fn then ((s.tenant? sl.fn.tenant).map (·.cfg.ioqQuota)).getD 0 else 0
    let others := pairsOf (s.setCtrl sl.fn fun c => { c with pairs := 0 }) sl.fn.tenant
    others < quota →
    let n := min (max nsq ncq + 1) (quota - others)
    Completes (.setFeaturesNumberOfQueues t sl.ix) s fun u => Posted sl stOk ((n - 1) * 65537) u ∧
      (u.ctrl? sl.fn).map (·.pairs) = some n)

/-- The other features, the mailbox transfer, and an opcode that the device does not support (R80, R83, R91, R99, R438,
R495, R501). -/
def Obligations.FeaturesComplete : Prop :=
  (∀ t sl c ab lpw mpw hpw save s, Ready s sl → sl.sqe.body = .setArb ab lpw mpw hpw save → s.ctrl? sl.fn = some c →
    let a : Arb := { ab := ab % 8, low := lpw % 256, medium := mpw % 256, high := hpw % 256 }
    Completes (.setFeaturesArbitration t sl.ix) s fun u => Posted sl stOk 0 u ∧
      (u.ctrl? sl.fn).map (fun x => (x.arbStaged, x.arb, x.arbSaved)) = some (some (a, max s.now t), c.arb, if save then some a else c.arbSaved)) ∧
  (∀ t sl w s, Ready s sl → sl.sqe.body = .setWce w →
    Completes (.setFeaturesVolatileWriteCache t sl.ix) s fun u => Posted sl stOk 0 u ∧ (u.ctrl? sl.fn).map (·.wce) = some w) ∧
  (∀ t sl c ps s, Ready s sl → sl.sqe.body = .setPm ps 0 → s.ctrl? sl.fn = some c → ps ≤ 4 →
    Completes (.setFeaturesPowerManagement t sl.ix) s fun u => Posted sl stOk 0 u ∧
      (u.ctrl? sl.fn).map (fun x => (x.votePs, x.votePerm)) =
        some (if ps ≤ 2 then (ps, c.votePerm) else (c.votePs, some ps))) ∧
  (∀ t sl ps hint s, Ready s sl → sl.sqe.body = .setPm ps hint → (4 < ps ∨ hint ≠ 0) →
    Completes (.setFeaturesPowerManagement t sl.ix) s fun u => Posted sl stField 0 u) ∧
  (∀ t sl a s, Ready s sl → sl.sqe.body = .setApst a →
    Completes (.setFeaturesApst t sl.ix) s fun u => Posted sl stOk 0 u ∧ (u.ctrl? sl.fn).map (·.apste) = some a) ∧
  (∀ t sl thr time s, Ready s sl → sl.sqe.body = .setCoal thr time → thr < 256 → time < 256 →
    Completes (.setFeaturesInterruptCoalescing t sl.ix) s fun u => Posted sl stOk 0 u ∧
      (u.ctrl? sl.fn).map (fun x => (x.coalThr, x.coalTime)) = some (thr, time)) ∧
  (∀ t sl c s, Ready s sl → s.ctrl? sl.fn = some c →
    ∀ r ∈ ([(0x02, 0, c.lastPs), (0x06, 0, if c.wce then 1 else 0), (0x06, 1, 1), (0x07, 0, (c.pairs - 1) * 65537),
      (0x08, 0, c.coalThr + 256 * c.coalTime), (0x0C, 0, if c.apste then 1 else 0)] : List (Nat × Nat × Nat)),
    sl.sqe.body = .getFeatures r.1 r.2.1 → Completes (.getFeatures t sl.ix) s fun u => Posted sl stOk r.2.2 u) ∧
  (∀ t sl len lo hi rf s, Ready s sl → sl.sqe.body = .mailbox len lo hi → sl.sqe.nsid = 0 → 16 ≤ len → len ≤ 4096 →
    len % 4 = 0 → lo % 4 = 0 → checkData sl.sqe len = none →
    Completes (.mailboxTransfer t sl.ix false rf) s fun u =>
      (u.slot? sl.ix).map (fun x => (x.phase, x.outcome)) = some (.running, if rf then some stDataTransfer else none)) ∧
  (∀ t sl op s, Ready s sl → sl.sqe.body = .unsupported op →
    Completes (.unsupportedNvmeCommand t sl.ix) s fun u => Posted sl stOpcode 0 u)

/-- Reading commands (R94, R95, R98, R104): their versions are chosen at once unless a lower-ASN write must come first,
and what lies on media is read. -/
def Obligations.ReadingCommandsComplete : Prop :=
  (∀ t sl n s, Ready s sl → checkIo (s.arrive t) sl = none → s.ns? sl.sqe.nsid = some n →
    ∀ slba nlb, (Body.ranges sl.sqe.body).head? = some (slba, nlb) →
    let lbas := (List.range nlb).map (· + slba)
    let vs := lbas.map fun l => readVersion (s.arrive t) n sl.asn sl.kept l
    let media := vs.any (·.2)
    let chosen (u : State) : Prop := ∃ x, u.slot? sl.ix = some x ∧ x.chosen = true ∧ x.data = vs.map (·.1) ∧
      x.phase = if media then .media else .dma
    mustWait s sl.asn n.nsid [(slba, nlb)] = false → (∀ l ∈ lbas, s.media.damaged.contains (n.nsid, l) = false) →
    (pagesOf n slba nlb).all (pageResident n) = true →
    (∀ v ∈ lbas.zip vs, v.2.2 = true → OnDies s n (grainOf n v.1)) →
    (∀ fua, sl.sqe.body = .read slba nlb fua → Completes (.read t sl.ix) s chosen) ∧
    (∀ data, sl.sqe.body = .compare slba nlb → Completes (.compare t sl.ix data) s fun u =>
      if media then chosen u else Posted sl (if data = vs.map (·.1) then stOk else stCompare) 0 u) ∧
    (sl.sqe.body = .verify slba nlb → Completes (.verify t sl.ix) s fun u =>
      if media then chosen u else Posted sl stOk 0 u)) ∧
  (∀ t sl n slba nlb fua s, Ready s sl → checkIo (s.arrive t) sl = none → s.ns? sl.sqe.nsid = some n →
    sl.sqe.body = .read slba nlb fua → mustWait s sl.asn n.nsid [(slba, nlb)] = true →
    Completes (.read t sl.ix) s fun u => (u.slot? sl.ix).map (·.phase) = some .waiting) ∧
  (∀ t sl n slba nlb fua s, s.slot? sl.ix = some sl → s.serving = true → sl.phase = .waiting → quiet s = true →
    s.ns? sl.sqe.nsid = some n → sl.sqe.body = .read slba nlb fua → mustWait s sl.asn n.nsid [(slba, nlb)] = false →
    (∀ l, slba ≤ l → l < slba + nlb → s.media.damaged.contains (n.nsid, l) = false ∧
      ((readVersion (s.arrive t) n sl.asn sl.kept l).2 = true → OnDies s n (grainOf n l))) →
    (pagesOf n slba nlb).all (pageResident n) = true →
    Completes (.readWaitRelease t sl.ix) s fun u => ∃ x, u.slot? sl.ix = some x ∧ x.chosen = true ∧
      x.data = (List.range nlb).map fun i => (readVersion (s.arrive t) n sl.asn sl.kept (i + slba)).1) ∧
  (∀ t sl s, s.slot? sl.ix = some sl → s.serving = true → sl.phase = .dma → sl.orphan = false → sl.timers = [] →
    (s.ctrl? sl.fn).isSome = true → quiet s = true →
    Completes (.hostDmaComplete t sl.ix) s fun u => Posted sl (sl.outcome.getD stOk) sl.dw0 u ∧
      .hostWrite sl.fn sl.data ∈ u.outbox)

/-- Writing commands (R20, R93, R99, R102, R110, R112, R143, R145). -/
def Obligations.WritingCommandsComplete : Prop :=
  (∀ t sl n slba nlb fua s, Ready s sl → Alone s sl → checkIo (s.arrive t) sl = none → s.ns? sl.sqe.nsid = some n →
    sl.sqe.body = .write slba nlb fua → ((touched n sl.sqe.body).all fun g => pageResident n (pageOf g)) = true →
    (∀ c ∈ s.ctrls, sl.ix ∉ c.aers) → sl.outcome = none → piecesOf n slba nlb ≠ [] →
    Completes (.write t sl.ix) s fun u =>
      if StaysWritable s n.nsid (chargeOf n (touched n sl.sqe.body)) then
        ∃ x, u.slot? sl.ix = some x ∧ x.phase = .dataIn ∧
          x.pieces.map (fun p => (p.lba, p.count)) = (piecesOf n slba nlb).map (fun p => (p.lba, p.count)) ∧
          x.charge = chargeOf n (touched n sl.sqe.body)
      else Posted sl stProtected 0 u) ∧
  (∀ t sl i p s, s.serving = true → waitingPiece (s.arrive t) = some (sl, i) → s.slot? sl.ix = some sl →
    sl.pieces[i]? = some p → roomTaken (s.arrive t) + pieceBytes (s.arrive t) sl p ≤ s.repair.stagingKib * 1024 →
    Completes (.stagingRoomGrant t) s fun u =>
      (u.slot? sl.ix).map (·.pieces) = some (sl.pieces.set i { p with room := true })) ∧
  (∀ t sl n i p data s, s.slot? sl.ix = some sl → Alone s sl → s.serving = true → quiet s = true → s.ns? sl.sqe.nsid = some n →
    sl.phase = .dataIn → sl.pieces[i]? = some p → p.room = true → p.arrived = none → p.faulted = false → p.committed = false →
    data.length = p.count → isStaged s sl.asn n.nsid p.lba = false → (∀ q ∈ sl.pieces, q.faulted = false) →
    (sl.pieces.map (·.lba)).Nodup →
    (cacheInForce (s.arrive t) sl.fn = true → ∀ q ∈ sl.pieces, (q.step < p.step → q.committed = true) ∧
      (q.step = p.step → q.lba = p.lba ∨ q.arrived.isSome = true)) →
    Completes (.writeDataArrival t sl.ix i data) s fun u => ∃ q ∈ u.staged, q.asn = sl.asn ∧ q.nsid = n.nsid ∧
      q.lba = p.lba ∧ q.data = data ∧ q.committed = cacheInForce (s.arrive t) sl.fn) ∧
  (∀ t sl i p s, s.slot? sl.ix = some sl → Alone s sl → s.serving = true → quiet s = true → sl.orphan = false → sl.timers = [] →
    (s.ctrl? sl.fn).isSome = true → (∃ a b f, sl.sqe.body = .write a b f) → sl.outcome = none →
    sl.phase = .dataIn → sl.pieces[i]? = some p → p.arrived = none →
    (∀ q ∈ sl.pieces.take i, q.committed = true ∧ q.faulted = false) → p.committed = false →
    Completes (.dataFetchFault t sl.ix i) s fun u => Posted sl stDataTransfer 0 u) ∧
  (∀ t sl n s, Ready s sl → Alone s sl → checkIo (s.arrive t) sl = none → s.ns? sl.sqe.nsid = some n →
    ((touched n sl.sqe.body).all fun g => pageResident n (pageOf g)) = true → (∀ q ∈ s.staged, q.asn ≠ sl.asn) →
    (∀ c ∈ s.ctrls, sl.ix ∉ c.aers) → sl.outcome = none → zeroPieces n (Body.ranges sl.sqe.body) ≠ [] →
    let zeroed (ranges : List (Nat × Nat)) (u : State) : Prop :=
      if StaysWritable s n.nsid (chargeOf n (touched n sl.sqe.body)) then
        (cacheInForce (s.arrive t) sl.fn = true → Posted sl stOk 0 u) ∧
        ∀ p ∈ zeroPieces n ranges, (∃ g ∈ grainsOf n p.lba p.count, g * lbasPerGrain n < p.lba ∨
            p.lba + p.count < (g + 1) * lbasPerGrain n) →
          ∃ q ∈ u.staged, q.asn = sl.asn ∧ q.nsid = n.nsid ∧ q.lba = p.lba ∧
            q.data = List.replicate p.count (zeros (lbaBytes n)) ∧ q.committed = cacheInForce (s.arrive t) sl.fn
      else Posted sl stProtected 0 u
    (∀ slba nlb, sl.sqe.body = .writeZeroes slba nlb → Completes (.writeZeroes t sl.ix) s (zeroed [(slba, nlb)])) ∧
    (∀ rs, sl.sqe.body = .dsm true rs → Completes (.datasetManagement t sl.ix) s (zeroed rs))) ∧
  (∀ t sl rs s, Ready s sl → checkIo (s.arrive t) sl = none → (s.ns? sl.sqe.nsid).isSome = true → sl.sqe.body = .dsm false rs →
    Completes (.datasetManagement t sl.ix) s fun u => Posted sl stOk 0 u ∧ u.nss.map (·.map) = s.nss.map (·.map))

/-- Flush and the reservation commands (R78, R101). -/
def Obligations.FlushAndReservationsComplete : Prop :=
  (∀ t sl s, Ready s sl → Alone s sl → sl.sqe.body = .flush →
    (∀ k ∈ namedNs s sl.fn sl.sqe.nsid, checkNs s sl k = none) →
    Completes (.flush t sl.ix) s fun u =>
      if flushPending s sl.asn (namedNs s sl.fn sl.sqe.nsid) then (u.slot? sl.ix).map (·.phase) = some .waitEarlier
      else Posted sl stOk 0 u) ∧
  (∀ t sl n s, Ready s sl → resvCheck s sl = none → s.ns? sl.sqe.nsid = some n →
    (∀ a k k', sl.sqe.body = .resvRegister a k k' →
      let r := resvRegister a k k' n.resv sl.fn
      Completes (.reservationRegister t sl.ix) s fun u => Posted sl r.1 0 u ∧
        (u.ns? n.nsid).map (·.resv) = some (if r.1 = stOk then r.2 else n.resv)) ∧
    (∀ a ty k p, sl.sqe.body = .resvAcquire a ty k p →
      let r := resvAcquire a ty k p n.resv sl.fn
      Completes (.reservationAcquire t sl.ix) s fun u => Posted sl r.1 0 u ∧
        (u.ns? n.nsid).map (·.resv) = some (if r.1 = stOk then r.2 else n.resv)) ∧
    (∀ a ty k, sl.sqe.body = .resvRelease a ty k →
      let r := resvRelease a ty k n.resv sl.fn
      Completes (.reservationRelease t sl.ix) s fun u => Posted sl r.1 0 u ∧
        (u.ns? n.nsid).map (·.resv) = some (if r.1 = stOk then r.2 else n.resv)) ∧
    (sl.sqe.body = .resvReport → Completes (.reservationReport t sl.ix) s fun u =>
      (u.slot? sl.ix).map (fun x => (x.phase, x.data)) = some (.dma, [resvReport n.resv])))

/-- Admin commands that show the device (R74 to R77, R172, R401) and those whose course another standard gives. -/
def Obligations.AdminReadsComplete : Prop :=
  ∀ t sl c s, Ready s sl → s.ctrl? sl.fn = some c →
    (∀ cns csi, sl.sqe.body = .identify cns csi →
      (∀ bs, identifyData (s.arrive t) c sl.sqe.nsid cns csi = .ok bs → checkData sl.sqe 4096 = none →
        Completes (.identify t sl.ix) s fun u => Posted sl stOk 0 u ∧ Output.identify sl.fn bs ∈ u.outbox) ∧
      (∀ st, identifyData (s.arrive t) c sl.sqe.nsid cns csi = .error st → Completes (.identify t sl.ix) s fun u =>
        Posted sl st 0 u)) ∧
    (∀ lid off len, sl.sqe.body = .getLog lid off len →
      (∀ bs, (logVendor (s.arrive t) (.ten sl.fn.tenant) lid = some bs ∨
          logVendor (s.arrive t) (.ten sl.fn.tenant) lid = none ∧ logNvme (s.arrive t) c lid = some bs) →
        off ≤ bs.length → off % 4 = 0 → checkData sl.sqe len = none →
        Completes (.getLogPage t sl.ix) s fun u => Posted sl stOk 0 u ∧ Output.identify sl.fn (slice bs off len) ∈ u.outbox) ∧
      (logVendor (s.arrive t) (.ten sl.fn.tenant) lid = none → logNvme (s.arrive t) c lid = none →
        Completes (.getLogPage t sl.ix) s fun u => Posted sl stLogPage 0 u)) ∧
    (∀ code, sl.sqe.body = .selfTest code →
      (code = 1 ∨ code = 2 ∨ code = 14 → Completes (.deviceSelfTest t sl.ix) s fun u => Posted sl stOk 0 u ∧
        (u.boot.selfTests.head?.map fun x => (x.1, x.2.1)) = some (code, (s.arrive t).hours)) ∧
      (code = 15 → Completes (.deviceSelfTest t sl.ix) s fun u => Posted sl stOk 0 u ∧ u.boot.selfTests = s.boot.selfTests)) ∧
    (sl.sqe.body = .miSend → Completes (.nvmeMiSend t sl.ix) s fun u => ∃ d, Posted sl stOk d u) ∧
    (sl.sqe.body = .miReceive → Completes (.nvmeMiReceive t sl.ix) s fun u => ∃ d, Posted sl stOk d u) ∧
    (∀ action x, sl.sqe.body = .virtMgmt action x → action ∈ [1, 7, 8, 9] →
      Completes (.virtualizationManagement t sl.ix) s fun u => ∃ d, Posted sl stOk d u)

/-- Admin commands on namespaces (R78, R97, R138 to R141, R400, R413, R414): creation, deletion, attachment, Format NVM and
Sanitize; without the HOST_ADMIN bit each is prohibited. -/
def Obligations.NamespaceCommandsComplete : Prop :=
  ∀ t sl s, Ready s sl → Alone s sl →
    let same (u : State) : Prop := u.nss.map Ns.free = s.nss.map Ns.free
    (∀ bit c, (bit, c) ∈ [(0, Instr.namespaceManagement t sl.ix), (1, .formatNvm t sl.ix), (2, .sanitize t sl.ix)] →
      (match c with
        | .namespaceManagement .. => sl.sqe.body = .nsDelete
        | .formatNvm .. => ∃ l, sl.sqe.body = .format l
        | _ => ∃ a, sl.sqe.body = .sanitize a) →
      adminMay s sl.fn bit = false → Completes c s fun u => Posted sl stLockdown 0 u ∧ same u) ∧
    (∀ nsze ncap lbaf, sl.sqe.body = .nsCreate nsze ncap lbaf → adminMay s sl.fn 0 = true → checkData sl.sqe 4096 = none →
      lbaf ≤ 1 →
      let lb := if lbaf = 0 then 4096 else 512
      0 < nsze → ncap ≤ nsze → nsze * lb % 2 ^ 25 = 0 → ncap * lb % 2 ^ 25 = 0 →
      freeNsids s ≠ [] → Completes (.namespaceManagement t sl.ix) s fun u =>
        if capacityFits s false (ncap * lb) (nsze * lb - ncap * lb) (0, 0) then
          ∃ n x, s.ns? n = none ∧ u.ns? n = some x ∧ Posted sl stOk n u ∧
            x.tenant = sl.fn.tenant ∧ x.assured = ncap * lb ∧ x.stretch = nsze * lb - ncap * lb ∧ x.lbaf = lbaf ∧
            x.grain32 = false ∧ x.still = false ∧ x.keysrc = 0 ∧ x.attached = []
        else Posted sl stNsCapacity 0 u ∧ same u) ∧
    (∀ attach ids n, sl.sqe.body = .nsAttach attach ids → s.ns? sl.sqe.nsid = some n → adminMay s sl.fn 0 = true →
      n.tenant = sl.fn.tenant → checkData sl.sqe 4096 = none → ids = [cntlid sl.fn] → s.hasFn sl.fn = true →
      n.attached.contains sl.fn = !attach → Completes (.namespaceAttachment t sl.ix) s fun u => Posted sl stOk 0 u ∧
        (u.ns? n.nsid).map (·.attached) = some (if attach then n.attached ++ [sl.fn] else n.attached.filter (· != sl.fn))) ∧
    (∀ lbaf n, sl.sqe.body = .format lbaf → adminMay s sl.fn 1 = true → lbaf ≤ 1 → s.media.dev ≠ .preserve →
      s.ns? sl.sqe.nsid = some n → sl.sqe.nsid ≠ 0xFFFFFFFF → n.tenant = sl.fn.tenant → n.attached.contains sl.fn = true →
      opRunning s sl.fn.tenant [sl.sqe.nsid] = none → ioPending s sl.asn [sl.sqe.nsid] = false →
      Completes (.formatNvm t sl.ix) s fun u => Posted sl stOk 0 u ∧ (u.ns? sl.sqe.nsid).map (fun x => (x.map, x.lbaf)) =
        some (n.map.map fun e => (e.1, if e.2.dealloc then e.2 else { dealloc := true, gen := e.2.gen + 1 }), lbaf)) ∧
    (∀ lbaf n, sl.sqe.body = .format lbaf → adminMay s sl.fn 1 = true → lbaf ≤ 1 → s.media.dev = .preserve →
      s.ns? sl.sqe.nsid = some n → n.tenant = sl.fn.tenant → n.attached.contains sl.fn = true → sl.sqe.nsid ≠ 0xFFFFFFFF →
      Completes (.formatNvm t sl.ix) s fun u => Posted sl stProtected 0 u ∧ same u) ∧
    (∀ action, sl.sqe.body = .sanitize action → adminMay s sl.fn 2 = true →
      opRunning s sl.fn.tenant (tenantNs s sl.fn.tenant) = none → ioPending s sl.asn (tenantNs s sl.fn.tenant) = false →
      action = 4 → Completes (.sanitize t sl.ix) s fun u => Posted sl stOk 0 u ∧
        (u.tenant? sl.fn.tenant).map (·.sanitized) = (s.tenant? sl.fn.tenant).map fun _ => true) ∧
    (sl.sqe.body = .sanitize 1 → adminMay s sl.fn 2 = true → Completes (.sanitize t sl.ix) s fun u =>
      Posted sl stOk 0 u ∧ same u)

/-- Programs and runs (R216, R224, R231, R239, R257). -/
def Obligations.ProgramCommandsComplete : Prop :=
  (∀ t sl im s, Ready s sl → sl.sqe.body = .loadProgram true im → im.length ≤ 2 ^ 20 →
    computeCheck s sl (computeNsid sl.fn.tenant) im.length = none → (tenantCfg s sl.fn.tenant).opQuota ≠ 0 →
    (imagesOf s sl.fn.tenant).length < (tenantCfg s sl.fn.tenant).imageQuota → s.compute.images.length < 1024 →
    Completes (.loadProgram t sl.ix) s fun u => match imageCheck s sl.fn.tenant im with
      | some (true, i) => Posted sl stNodeType i u
      | some (false, r) => Posted sl stImageInvalid r u
      | none => Posted sl stOk (freeIndex s sl.fn.tenant) u ∧ image? u sl.fn.tenant (freeIndex s sl.fn.tenant) =
          some { tenant := sl.fn.tenant, index := freeIndex s sl.fn.tenant, bytes := im }) ∧
  (∀ t sl k s, Ready s sl → Alone s sl → sl.sqe.body = .unloadProgram k → computeCheck s sl (computeNsid sl.fn.tenant) 0 = none →
    (image? s sl.fn.tenant k).isSome = true → Completes (.programUnload t sl.ix) s fun u =>
      if indexIdle s sl.fn.tenant k then Posted sl stOk 0 u ∧ image? u sl.fn.tenant k = none
      else (u.slot? sl.ix).map (·.phase) = some .waitEarlier ∧ (image? u sl.fn.tenant k).map (·.unloading) = some true) ∧
  (∀ t sl k on s, Ready s sl → Alone s sl → sl.sqe.body = .activate k on → computeCheck s sl (computeNsid sl.fn.tenant) 0 = none →
    (image? s sl.fn.tenant k).isSome = true → Completes (.programActivationManagement t sl.ix) s fun u =>
      if on || indexIdle s sl.fn.tenant k then Posted sl stOk 0 u ∧ (image? u sl.fn.tenant k).map (·.active) = some on
      else (u.slot? sl.ix).map (·.phase) = some .waitEarlier ∧ (image? u sl.fn.tenant k).map (·.deactivating) = some true) ∧
  (∀ t sl k args data i s, Ready s sl → sl.sqe.body = .execute k args data →
    computeCheck s sl (computeNsid sl.fn.tenant) args.length = none → image? s sl.fn.tenant k = some i → i.active = true →
    i.deactivating = false → i.unloading = false → argsOk s sl.fn.tenant i.bytes args = true →
    ((List.range (gNProgs i.bytes)).all fun q => (progOf s sl.fn.tenant (gProgId i.bytes q)).isSome) = true →
    s.run? sl.asn = none → firnActs (s.arrive t) ≠ some .work → neverFits s sl.fn.tenant i.bytes = false →
    Completes (.executeProgram t sl.ix) s fun u => (u.slot? sl.ix).map (·.phase) = some .held ∧
      ∃ r, u.run? sl.asn = some r ∧ r.tenant = sl.fn.tenant ∧ r.index = k ∧ r.image = i.bytes ∧ r.args = args ∧
        r.slot = sl.ix ∧ r.released = none ∧ r.fetchedAt = max s.now t)

/-- Memory range sets and the commands on subsystem-local memory (R246, R255, R257). -/
def Obligations.MemoryCommandsComplete : Prop :=
  (∀ t sl rs s, Ready s sl → sl.sqe.body = .rangeSetCreate rs →
    computeCheck s sl (computeNsid sl.fn.tenant) (16 * rs.length) = none → rs.length ≤ 16 →
    (s.compute.sets.filter (·.tenant == sl.fn.tenant)).length < 64 →
    (∀ r ∈ rs, r.1 + r.2 ≤ (tenantCfg s sl.fn.tenant).slmSize) →
    Completes (.memoryRangeSetManagement t sl.ix) s fun u => ∃ id, Posted sl stOk id u ∧
      (∀ q ∈ s.compute.sets, q.tenant = sl.fn.tenant → q.id ≠ id) ∧
      u.compute.sets = s.compute.sets ++ [{ tenant := sl.fn.tenant, id := id, ranges := rs }]) ∧
  (∀ t sl id s, Ready s sl → sl.sqe.body = .rangeSetDelete id → computeCheck s sl (computeNsid sl.fn.tenant) 0 = none →
    (s.compute.sets.any fun q => q.tenant == sl.fn.tenant && q.id == id) = true →
    (s.compute.runs.any fun r => r.tenant == sl.fn.tenant && field r.args 8 4 == id) = false →
    Completes (.memoryRangeSetManagement t sl.ix) s fun u => Posted sl stOk 0 u ∧
      u.compute.sets = s.compute.sets.filter fun q => !(q.tenant == sl.fn.tenant && q.id == id)) ∧
  (∀ t sl s, Ready s sl → slmMustWait s sl = false →
    let size := (tenantCfg s sl.fn.tenant).slmSize
    let m := slmOf s sl.fn.tenant
    (∀ o l, sl.sqe.body = .slmRead o l → computeCheck s sl (memoryNsid sl.fn.tenant) l = none → o + l ≤ size →
      slmBad s sl.fn.tenant o l = [] →
      Completes (.memoryRead t sl.ix) s fun u =>
        (u.slot? sl.ix).map (fun x => (x.phase, x.data)) = some (.dma, [Memory.readN m o l])) ∧
    (∀ o d, sl.sqe.body = .slmWrite o d → computeCheck s sl (memoryNsid sl.fn.tenant) d.length = none → o + d.length ≤ size →
      Completes (.memoryWrite t sl.ix) s fun u => Posted sl stOk 0 u ∧ slmOf u sl.fn.tenant = Memory.writeN m o d) ∧
    (∀ o l p, sl.sqe.body = .slmFill o l p → computeCheck s sl (memoryNsid sl.fn.tenant) 0 = none → o + l ≤ size →
      Completes (.memoryFill t sl.ix) s fun u => Posted sl stOk 0 u ∧
        slmOf u sl.fn.tenant = Memory.writeN m o ((List.range l).map fun i => p.getD (i % max 1 p.length) 0)) ∧
    (∀ a b l, sl.sqe.body = .slmCopy a b l → computeCheck s sl (memoryNsid sl.fn.tenant) 32 = none → a + l ≤ size →
      b + l ≤ size → slmBad s sl.fn.tenant a l = [] →
      Completes (.memoryCopy t sl.ix) s fun u => Posted sl stOk 0 u ∧
        slmOf u sl.fn.tenant = Memory.writeN m b (Memory.readN m a l)))

/-- Release, dispatch, credits and the ends of nodes and runs (R237 to R253, R307, R308). -/
def Obligations.RunControlComplete : Prop :=
  (∀ t asn r asg bufs s, s.run? asn = some r → mayRelease (s.arrive t) r = true →
    placeRun (s.arrive t) r.tenant r.image s.compute.runs = some (asg, bufs) → releaseFault s r = none →
    (∀ i < gNNodes r.image, classOut s (gNode r.image i).typ = false) →
    ∃ v, exec (.runRelease t asn) s = .next (settle (pump asn (startSources asn v))) ∧
      (v.slots = s.slots.map fun x => if x.ix = r.slot then { x with phase := .running } else x) ∧
      ∃ q, v.run? asn = some q ∧ q.released = some (max s.now t) ∧ q.buffers = bufs ∧ q.replicas.length = gOps r.image ∧
        ∀ l ∈ q.lanes, l.credits = (gEdge r.image l.edge).depth) ∧
  (∀ t pos e asn node rep rest r s, engineAt s pos = some e → s.engine? e.ix = some e →
    get? pos s.compute.ready = some ((asn, node, rep) :: rest) → s.serving = true → e.job = none → e.testing = false →
    s.run? asn = some r →
    Completes (.engineDispatch t pos true) s fun u => get? pos u.compute.ready = some rest ∧
      (pos, asn, node, rep) ∈ u.compute.dispatched ∧ ∃ y, u.engine? e.ix = some y ∧ y.job = some (asn, node, rep) ∧
        y.halted = false ∧ y.trap = none ∧ y.flight = [] ∧ y.pc = field (nodeProg s r node) 0x10 4) ∧
  (∀ t asn edge lane r c s, s.run? asn = some r → s.serving = true → edge < gNEdges r.image →
    let node := (gEdge r.image edge).dst
    let typ := (gNode r.image node).typ
    inLane r.image edge 0 (r.turn edge) = lane → headChunk r edge 0 = some c → c.poison = [] →
    (typ ∈ [ntHostSink, ntSlmSink, ntCountSink] →
      exec (.creditReturn t asn edge lane) s = .next (settle (pump asn (sinkTake asn edge node c (s.arrive t))))) ∧
    (typ = ntFork →
      let outs := (List.range (gNode r.image node).nout).filterMap (gOut r.image node)
      (∀ o ∈ outs, hasCredit r o 0 = true ∧ (r.lane o 0).backlog = []) →
      exec (.creditReturn t asn edge lane) s = .next (settle (pump asn (consume asn edge 0
        (outs.foldl (fun s o => emitBytes asn o 0 c.bytes s) (startRep asn node 0 (s.arrive t)))))))) ∧
  (∀ t asn node rep r s, s.run? asn = some r → s.serving = true → r.released.isSome = true → node < gNNodes r.image →
    (r.rep node rep).state ≠ .ended → repDone s r node rep = true →
    (∃ x ∈ r.replicas, x.node = node ∧ x.ix = rep) →
    Completes (.nodeEnd t asn node rep 0 0) s fun u =>
      u.run? asn = none ∨ (u.run? asn).map (fun q => (q.rep node rep).state) = some .ended) ∧
  (∀ t asn node rep r d sl s, s.run? asn = some r → (r.rep node rep).state = .running → (r.rep node rep).watchdogAt = some d →
    d ≤ max s.now t → (s.awaited (nodeEndEvent asn node rep) d && repDone s r node rep) = false →
    lowerFails (s.arrive t) asn node = false → s.slot? r.slot = some sl → sl.ix = r.slot →
    sl.orphan = false → sl.timers = [] → s.pfail.stopped = false → (s.ctrl? sl.fn).isSome = true → quiet s = true →
    Completes (.nodeWatchdog t asn node rep) s fun u => u.run? asn = none ∧
      Posted sl ⟨7, 0xC7, true⟩
        (node + (if (gNode r.image node).typ = ntEngine then 2 ^ 16 + 0x08 * 2 ^ 24 else 2 * 2 ^ 16)) u) ∧
  (∀ t tenant x d s, s.tenant? tenant = some x → x.graceAt = some d → d ≤ max s.now t → s.pfail.stopped = false →
    Completes (.tenantStopGraceExpiry t tenant) s fun u => (u.tenant? tenant).map (·.graceAt) = some none ∧
      ∀ r ∈ u.compute.runs, r.tenant = tenant → r.released = none)

/-- Dies, the journal and the map pages (R129, R131, R149, R154, R166, R182, R310). -/
def Obligations.MediaEventsComplete : Prop :=
  (∀ t d asn nsid g serial row ch step weak f sl slba nlb fua s,
    (s.die d).op = some (.read (.host asn nsid g) serial row ch step) → (s.die d).resetting = false →
    step ≠ 18 → step ≠ 19 → (s.media.fetches.find? (·.use == .host asn nsid g)) = some f → f.left = [(row, ch)] →
    f.inflating = false → (s.slots.find? (·.asn == asn)) = some sl → s.slot? sl.ix = some sl →
    sl.sqe.body = .read slba nlb fua → sl.phase = .media → sl.reads = [g] → sl.lost = none → quiet s = true →
    firnActs (s.arrive t) ≠ some .still →
    Completes (.dieReadComplete t d ⟨true, weak⟩) s fun u =>
      if f.entry.raw then (u.slot? sl.ix).map (·.phase) = some .dma
      else ∃ x ∈ u.media.fetches, x.use = .host asn nsid g ∧ x.left = [] ∧ x.inflating = true) ∧
  (∀ t d u₀ serial row ch step weak s, (s.die d).op = some (.read u₀ serial row ch step) → (s.die d).resetting = false →
    step < 20 → firnActs (s.arrive t) ≠ some .still →
    Completes (.dieReadComplete t d ⟨false, weak⟩) s fun u => u.pins.led1Until = some (max s.now t + 50 * ticksPerMs) ∧
      ((d, .read u₀ serial row ch (step + 1)) ∈ u.media.waiting ∨
        (u.die d).op = some (.read u₀ serial row ch (step + 1)))) ∧
  (∀ t asn nsid g f sl slba nlb fua s,
    (s.media.fetches.find? fun f => f.inflating && f.use.grain == some (nsid, g)) = some f → f.use = .host asn nsid g →
    (s.units.felts.any fun f => 4 ≤ f.ix && f.inService) = true → (s.slots.find? (·.asn == asn)) = some sl →
    s.slot? sl.ix = some sl → sl.sqe.body = .read slba nlb fua →
    sl.phase = .media → sl.reads = [g] → sl.lost = none → quiet s = true →
    Completes (.grainInflate t nsid g true) s fun u => (u.slot? sl.ix).map (·.phase) = some .dma) ∧
  (∀ t d num s, (s.die d).op = some (.erase num) → (s.die d).resetting = false →
    Completes (.eraseComplete t d true) s fun u => (block? u d num).erases = (block? s d num).erases + 1 ∧
      (block? u d num).reads = 0) ∧
  (∀ t d num s, (s.die d).op = some (.erase num) → (s.die d).resetting = false →
    Completes (.eraseComplete t d false) s fun u => u.media.eraseFails = s.media.eraseFails + 1) ∧
  (∀ t d o p s, (s.die d).op = some o → (s.die d).pollAt = some p → p ≤ max s.now t → s.awaited (dieEvent d) p = false →
    (s.die d).resetting = false →
    Completes (.diePollTimeout t d) s fun u => (u.die d).resetting = true ∧ (u.die d).op = none) ∧
  (∀ t d p silent driven s, (s.die d).pollAt = some p → (s.die d).resetting = true → p ≤ max s.now t →
    s.awaited (dieResetEvent d) p = false →
    Completes (.dieResetTimeout t d ⟨silent, driven⟩) s fun u => .channel d.ch ∈ u.repair.fenced ∧
      ∀ x ∈ silent ++ driven, x < Config.diesOn d.ch → (u.die ⟨d.ch, x⟩).isolated.isSome = true) ∧
  (∀ t ch silent driven s, s.pins.pwrgd = true →
    Completes (.channelBusFault t ⟨ch, silent, driven⟩) s fun u => .channel ch ∈ u.repair.fenced ∧
      ∀ x ∈ silent ++ driven, x < Config.diesOn ch → (u.die ⟨ch, x⟩).isolated.isSome = true) ∧
  (∀ t s, s.serving = true → 262144 ≤ s.media.delta →
    Completes (.journalWrite t) s fun u => u.media.liveRecs = s.settings.journalled ∧ u.media.undo = [] ∧
      s.media.journalPages + ceilDiv s.media.delta 4096 ≤ u.media.journalPages) ∧
  (∀ t nsid page n s, s.ns? nsid = some n → page ∈ n.loading → s.fw.pauseSince = none →
    Completes (.mapPageLoadComplete t nsid page false true) s fun u => u.media.mapLoads = s.media.mapLoads + 1 ∧
      (s.media.cacheMode = false → ∃ m, u.ns? nsid = some m ∧ page ∈ m.resident ∧ page ∉ m.loading)) ∧
  (∀ t nsid grain inst n p s, s.ns? nsid = some n → n.still = false → drainable s n grain = some p →
    (∃ x ∈ s.units.felts, x.ix = inst ∧ inst < 4 ∧ x.inService = true) → s.fw.pauseSince = none →
    pinsShort s n grain p = false → s.serving = true → n.key.isSome = true → 150 ≤ freeShare s (domainOf grain) →
    grainBusy s nsid grain = false → pageResident n (pageOf grain) = true → mergeReads s n p grain = false →
    (mergeGrain s n p grain).2.2 = false →
    Completes (.grainDrain t nsid grain ⟨inst, true⟩) s fun u => ∃ x ∈ u.media.placed ++ u.media.unplaced,
      x.asn = p.asn ∧ x.lba = p.lba ∧ x.source = none ∧ x.run.nsid = nsid ∧ x.run.grain = grain ∧
      x.run.data = (mergeGrain s n p grain).1)

/-- SIEVE and Felt chunks, and the cipher lanes and digest engines (R308 to R312, R327 to R334, R371 to R373, R387): the
answer goes to the outputs and the input is consumed; then the run's lanes move. -/
def Obligations.UnitCommandsComplete : Prop :=
  (∀ t unit asn node rep r e c s, s.run? asn = some r → gIn r.image node 0 = some e → headChunk r e rep = some c →
    s.serving = true → (gNode r.image node).typ = ntSieve → unit < 16 → s.units.sievesOut.contains unit = false →
    chunkReady r node rep = true → unitMayServe (s.arrive t) 0 asn = true → c.poison = [] →
    let as := sieveAnswers (gParam r.image (gNode r.image node)) c.bytes
    exec (.sieveChunk t unit asn node rep) s = .next (settle (pump asn (consume asn e rep
      ((List.range (gNode r.image node).nout).foldl (fun s k => match gOut r.image node k with
        | none => s
        | some o => emitAnswer asn o rep (as.getD k []) s)
        (startRep asn node rep (noteUnit 0 r.tenant c.bytes.length (s.arrive t)))))))) ∧
  (∀ t inst asn node rep ver r e c s, s.run? asn = some r → gIn r.image node 0 = some e → headChunk r e rep = some c →
    s.serving = true → chunkReady r node rep = true → c.poison = [] →
    (s.units.felts.find? (·.ix == inst)).map (·.inService) = some true →
    let stream := field (gParam r.image (gNode r.image node)) 1 1 = 0
    let s0 (cls : Nat) (s : State) : State := startRep asn node rep (noteUnit cls r.tenant c.bytes.length s)
    ((gNode r.image node).typ = ntFeltPack → inst < 4 → unitMayServe (s.arrive t) 1 asn = true →
      (¬ stream → exec (.feltPackChunk t inst asn node rep ver) s =
        .next (settle (pump asn (packChunk inst asn node rep e c ver (s0 1 (s.arrive t)))))) ∧
      (stream → ∀ b, feltBind inst asn node rep (s.arrive t) = some b →
        exec (.feltPackChunk t inst asn node rep ver) s =
          .next (settle (pump asn (packStream inst asn node rep e (some c) ver (s0 1 b)))))) ∧
    ((gNode r.image node).typ = ntFeltUnpack → 4 ≤ inst → inst ≤ 7 → unitMayServe (s.arrive t) 2 asn = true →
      feltFree s = true →
      (¬ stream → exec (.feltUnpackChunk t inst asn node rep) s =
        .next (settle (pump asn (unpackChunk asn node rep e c (s0 2 (s.arrive t)))))) ∧
      (stream → ∀ b, feltBind inst asn node rep (s.arrive t) = some b →
        exec (.feltUnpackChunk t inst asn node rep) s =
          .next (settle (pump asn (unpackStream asn node rep e (some c) (s0 2 b))))))) ∧
  (∀ t u asn node rep ok x r key ks kg s, unit? s u = some x → s.run? asn = some r → s.serving = true → x.inService = true →
    x.job = none → nextJob (s.arrive t) u = some (asn, node, rep) → (x.store.find? fun j => j.is asn node rep) = none →
    (s.units.wrapped.find? fun w => w.2.2.is asn node rep) = none → jobKey s r node = some (key, ks, kg) →
    ((gNode r.image node).typ = ntDigest → field (gParam r.image (gNode r.image node)) 1 1 ≠ 1) → quiet s = true →
    Completes (.jobResume t u asn node rep ok) s fun v => ∃ y j, unit? v u = some y ∧ y.job = some j ∧ j.asn = asn ∧
      j.node = node ∧ j.replica = rep ∧ j.key = key ∧ j.input = [] ∧ j.quantum = 0) ∧
  (∀ t u asn node rep ok x r j s, unit? s u = some x → s.run? asn = some r → s.serving = true → x.inService = true →
    x.job = none → nextJob (s.arrive t) u = some (asn, node, rep) → (x.store.find? fun j => j.is asn node rep) = some j →
    (j.kslot = 0 ∨ (keySlot s j.kslot).gen = j.kgen) → quiet s = true →
    Completes (.jobResume t u asn node rep ok) s fun v => ∃ y, unit? v u = some y ∧ y.job = some { j with quantum := 0 }) ∧
  (∀ t u x j r e bs s, unit? s u = some x → x.job = some j → s.run? j.asn = some r → gIn r.image j.node 0 = some e →
    s.serving = true → x.inService = true → jobReady (s.arrive t) r j.node j.replica = true →
    jobTake r e j.replica (if u < 4 then 64 else 128) = (bs, false) →
    ((jobConsume j.asn e j.replica bs.length (s.arrive t)).run? j.asn).map (fun r => atEnd r e j.replica) = some false →
    ∀ c, ((u < 4 ∧ c = .cipherUnit t u) ∨ (4 ≤ u ∧ u < 8 ∧ c = .digestBlock t (u - 4))) →
    ∃ v y k, exec c s = .next (settle (if preemptible (pump j.asn v) u then saveJob u (pump j.asn v) else pump j.asn v)) ∧
      unit? v u = some y ∧ y.job = some k ∧ k.input = j.input ++ bs ∧ k.quantum = j.quantum + bs.length ∧
      k.asn = j.asn ∧ k.node = j.node ∧ k.key = j.key)

/-- Twill (R335 to R350): lookups answer from the array and leave it; updates change one key; then the run's lanes move. -/
def Obligations.TwillCommandsComplete : Prop :=
  (∀ t asn node r e bs old s, outBacklog s asn node 0 = some old → (twPart s r.tenant).bad = [] →
    let q := twReq bs
    let es := (twPart s r.tenant).entries
    let answers (c : Instr) (ans : List Byte) : Prop :=
      ∃ v, exec c s = .next (settle (pump asn v)) ∧ v.twill = s.twill ∧ outBacklog v asn node 0 = some (old ++ ans)
    let reply (o : Option TwEntry) : List Byte := match o with
      | some x => twResult 0 0 q.tag x.value x.key
      | none => twResult 1 0 q.tag 0 q.key
    (TwillReady (s.arrive t) 1 asn node r e bs → answers (.twillGet t asn node) (reply (es.find? (·.key == q.key)))) ∧
    (TwillReady (s.arrive t) 2 asn node r e bs →
      answers (.twillFloor t asn node) (reply ((es.filter (·.key ≤ q.key)).getLast?))) ∧
    (TwillReady (s.arrive t) 3 asn node r e bs →
      answers (.twillCeil t asn node) (reply ((es.filter (q.key ≤ ·.key)).head?))) ∧
    (TwillReady (s.arrive t) 4 asn node r e bs →
      answers (.twillNext t asn node) (reply ((es.filter (q.key < ·.key)).head?))) ∧
    (TwillReady (s.arrive t) 5 asn node r e bs →
      let found := (es.filter (q.key ≤ ·.key)).take q.count
      answers (.twillScan t asn node) (if found = [] then reply none else
        (found.zip (List.range found.length)).flatMap fun x => twResult 0 x.2 q.tag x.1.value x.1.key))) ∧
  (∀ t asn node r e bs old s, outBacklog s asn node 0 = some old → (twPart s r.tenant).bad = [] →
    field (gParam r.image (gNode r.image node)) 0 4 % 2 = 1 →
    let q := twReq bs
    let now := (twPart s r.tenant).entries.find? (·.key == q.key)
    let val : BitVec 64 := BitVec.ofNat 64 q.value
    let after (c : Instr) (ans : List Byte) (is : Option (BitVec 64)) : Prop :=
      ∃ v, exec c s = .next (settle (pump asn v)) ∧ outBacklog v asn node 0 = some (old ++ ans) ∧
        (((twPart v r.tenant).entries.find? (·.key == q.key)).map (·.value)) = is
    let absent := twResult 1 0 q.tag 0 q.key
    let made := twResult 2 0 q.tag val q.key
    (TwillReady (s.arrive t) 0x10 asn node r e bs →
      (∀ x, now = some x → after (.twillInsert t asn node) (twResult 5 0 q.tag x.value x.key) (some x.value)) ∧
      (now = none → twRoom s r.tenant = true → after (.twillInsert t asn node) made (some val)) ∧
      (now = none → twRoom s r.tenant = false → after (.twillInsert t asn node) (twResult 6 0 q.tag 0 q.key) none)) ∧
    (TwillReady (s.arrive t) 0x11 asn node r e bs →
      (∀ x, now = some x → after (.twillPut t asn node) (twResult 3 0 q.tag x.value x.key) (some val)) ∧
      (now = none → twRoom s r.tenant = true → after (.twillPut t asn node) made (some val))) ∧
    (TwillReady (s.arrive t) 0x12 asn node r e bs →
      (∀ x, now = some x → after (.twillReplace t asn node) (twResult 3 0 q.tag x.value x.key) (some val)) ∧
      (now = none → after (.twillReplace t asn node) absent none)) ∧
    (TwillReady (s.arrive t) 0x13 asn node r e bs →
      (∀ x, now = some x → after (.twillDelete t asn node) (twResult 4 0 q.tag x.value x.key) none) ∧
      (now = none → after (.twillDelete t asn node) absent none))) ∧
  (∀ t asn node r e bs s, s.run? asn = some r → s.serving = true → (gNode r.image node).typ = ntTwill →
    s.units.twillIn = true → workPort r node 0 = 1 → gIn r.image node 1 = some e → chunkReady r node 0 = true →
    unitMayServe (s.arrive t) 3 asn = true → twHead r node = some (e, bs, false) → field bs 24 8 = 0 →
    let key := unbe (slice bs 0 16)
    (∀ k, (r.rep node 0).bulkLast = some k → k < key) → (twPart s r.tenant).bad = [] →
    (((twPart s r.tenant).entries.find? (·.key == key)).isSome = true ∨ twRoom s r.tenant = true) →
    ∃ v, exec (.twillBulkEntry t asn node) s = .next (settle (pump asn v)) ∧
      (((twPart v r.tenant).entries.find? (·.key == key)).map (·.value)) = some (BitVec.ofNat 64 (field bs 16 8))) ∧
  (∀ t bad s, s.boot.life = .running → s.units.twillIn = true →
    Completes (.twillBackgroundScan t bad) s fun u => u.twill.scannedAt = max s.now t ∧
      ∀ b ∈ bad, ∀ tn k, twLocate s b = some (tn, k) → ∀ x ∈ (twPart u tn).entries, x.slot ≠ k)

/-- What the order of checks answers before an opcode runs (R430 to R433): a short message, a busy endpoint, a repeated
request, a wrong length, a reserved field, a role that may not ask. A request that passes them waits while an earlier one on
another endpoint changes the same thing, and runs once none does (R434); which opcodes change the same thing is the model's
reading (log entry 111). -/
def Obligations.MailboxChecksInOrder : Prop :=
  (∀ fm q run s, isParked s q fm.code = true → mailboxAwake s = true →
    waitsBehind s q fm.code ((s.ep q.ep).parked.getD 0) = false →
    request fm q run s = touchIdle (run (roleOf s q.ep) (unpark q s))) ∧
  (∀ fm q run s, isParked s q fm.code = false → mailboxAwake s = true → carried s q = true →
    (q.delivered < 16 → Output.mbx q.ep 0 msLength q.tag q.seq [] ∈ (request fm q run s).outbox) ∧
    (16 ≤ q.delivered → q.delivered ≠ q.length → Output.mbx q.ep fm.code msLength q.tag q.seq [] ∈ (request fm q run s).outbox) ∧
    (16 ≤ q.delivered → q.delivered = q.length →
      (epBusy s q = true → Output.mbx q.ep fm.code msBusy q.tag q.seq [] ∈ (request fm q run s).outbox) ∧
      (epBusy s q = false → (s.ep q.ep).executing = none →
        (∀ st body, (s.ep q.ep).stored = some (q.seq, fm.code, st, body) →
          Output.mbx q.ep fm.code st q.tag q.seq body ∈ (request fm q run s).outbox) ∧
        ((∀ y, (s.ep q.ep).stored = some y → ¬ (y.1 = q.seq ∧ y.2.1 = fm.code)) →
          (answersNow s fm.code = false → Responded q fm.code msNotReady [] (request fm q run s)) ∧
          (answersNow s fm.code = true → q.length ≠ 16 + fm.body → Responded q fm.code msLength [] (request fm q run s)) ∧
          (answersNow s fm.code = true → q.length = 16 + fm.body → q.length % 4 = 0 → q.length ≤ 4096 →
            (1 < q.flags → Responded q fm.code msReserved [] (request fm q run s)) ∧
            (q.flags ≤ 1 → q.bodyReserved = false → fm.badField = false →
              (if fm.device then q.tenant = 0xFFFF else q.tenant ≤ 255) → 
              (fm.roles (roleOf s q.ep) = false → Responded q fm.code msNotPermitted [] (request fm q run s)) ∧
              (fm.roles (roleOf s q.ep) = true → notForTenant s q fm (roleOf s q.ep) = false →
                waitsBehind s q fm.code (s.now + 1) = true → Waits q fm.code s.now (request fm q run s))))))))

/-- Time-outs of the mailbox and its sessions, opcodes that the device does not know, and DEVWIN_ERR (R396, R397, R426,
R430, R442, R453). -/
def Obligations.MailboxEventsComplete : Prop :=
  (∀ t ep q op limit s, (s.ep ep).executing = some (q, op, limit, false) → limit ≤ max s.now t → s.pfail.stopped = false →
    (((s.arrive t).replay answerEvents limit).ep ep).executing.map (·.1) = some q →
    Completes (.mailboxTimeout t ep) s fun u => Output.mbx q.ep op msTimeout q.tag q.seq [] ∈ u.outbox ∧
      (¬ (op = 0x0802 ∧ s.fw.handover = none) → (u.ep ep).executing = some (q, op, limit, true))) ∧
  (∀ t ep k tn last s, (s.ep ep).session = some (k, tn, last) → last + 900 * ticksPerS ≤ max s.now t →
    Completes (.sessionTimeout t ep) s fun u => (u.ep ep).session = none ∧ (u.ep ep).bulk = []) ∧
  (∀ t ep n at_ s, (s.ep ep).nonce = some (n, at_) → at_ + 60 * ticksPerS ≤ max s.now t →
    Completes (.nonceLapse t ep) s fun u => (u.ep ep).nonce = none) ∧
  (∀ t ep n at_ s, s.owner.debugNonce = some (n, at_) → at_ + 600 * ticksPerS ≤ max s.now t →
    Completes (.nonceLapse t ep) s fun u => u.owner.debugNonce = none) ∧
  (∀ t ep d s, (s.ep ep).lockout = some d → d ≤ max s.now t →
    Completes (.sessionLockoutEnd t ep) s fun u => (u.ep ep).lockout = none) ∧
  (∀ t q op body s, Accepted s q op body true ∨ Accepted s q op body false → s.boot.life = .running →
    Completes (.unknownMailboxRequest t q op) s fun u => Responded q op msUnknownOp [] u) ∧
  (∀ t f multi c s, hostReaches s f = true → s.ctrl? f = some c →
    Completes (.devwinErrClear t f multi) s fun u => (u.ctrl? f).map (·.devErr) =
      some { c.devErr with regErr := false, offset := 0, multi := c.devErr.multi && !multi })

/-- Challenges, proofs and sessions (R394 to R397): a nonce, the session that a good proof opens, and its end; stopping and
starting tenants (R89, R253, R403, R450), and what an administrator reads of its own. -/
def Obligations.TenantRequestsComplete : Prop :=
  (∀ t q role tenant s, Accepted s q 0x0102 4 false → roleBad role tenant = false →
    (sessionPlace role tenant q.ep = true → ((s.ep q.ep).lockout.map fun d => decide (max s.now t < d)).getD false = false →
      Completes (.challenge t q role tenant) s fun u => ∃ n, n.length = 48 ∧ Responded q 0x0102 msOk n u ∧
        (u.ep q.ep).nonce = some (n, max s.now t)) ∧
    (∀ d, (s.ep q.ep).lockout = some d → max s.now t < d → Completes (.challenge t q role tenant) s fun u =>
      Responded q 0x0102 msNotPermitted [] u ∧ (u.ep q.ep).nonce = (s.ep q.ep).nonce)) ∧
  (∀ t q role tenant s, Accepted s q 0x0103 8 false → roleBad role tenant = false → sessionPlace role tenant q.ep = true →
    let cred := if role = 1 then s.owner.cred else ((s.tenant? tenant).map (·.cred)).getD []
    (∀ n at_, (s.ep q.ep).nonce = some (n, at_) → max s.now t ≤ at_ + 60 * ticksPerS →
      Completes (.prove t q role tenant 4723) s fun u => (u.ep q.ep).nonce = none ∧
        if proofOk cred (sessionBytes n role tenant q.ep) (bulkOf s q 4723) then Responded q 0x0103 msOk [] u ∧
          (u.ep q.ep).session = some (role, tenant, max s.now t) ∧ (u.ep q.ep).bulk = []
        else Responded q 0x0103 msAuthFail [] u ∧
          (u.ep q.ep).session.map (fun x => (x.1, x.2.1)) = (s.ep q.ep).session.map (fun x => (x.1, x.2.1))) ∧
    ((s.ep q.ep).nonce = none → Completes (.prove t q role tenant 4723) s fun u => Responded q 0x0103 msAuthFail [] u ∧
      (u.ep q.ep).session.map (fun x => (x.1, x.2.1)) = (s.ep q.ep).session.map (fun x => (x.1, x.2.1)))) ∧
  (∀ t q s, Accepted s q 0x0104 0 false → (s.ep q.ep).session.isSome = true → Completes (.close t q) s fun u =>
    Responded q 0x0104 msOk [] u ∧ (u.ep q.ep).session = none ∧ (u.ep q.ep).bulk = []) ∧
  (∀ t tn x s, s.tenant? tn = some x → x.draining = true → drained s tn = true → Completes (.tenantDrainComplete t tn) s fun u =>
    u.tenant? tn = some { x with draining := false, graceAt := none, stopRq := none } ∧
    ∀ q l, x.stopRq = some q → (s.ep q.ep).executing = some (q, 0x0303, l, false) → Responded q 0x0303 msOk [] u) ∧
  (∀ t q graceMs x s, Accepted s q 0x0303 4 false → roleOf s q.ep = .owner → graceMs ≤ 60000 → s.tenant? q.tenant = some x →
    x.state = .running → x.draining = false →
    (drained s q.tenant = true → Completes (.tenantStop t q graceMs) s fun u => Responded q 0x0303 msOk [] u ∧
      u.tenant? q.tenant = some { x with state := .stopped, draining := false, graceAt := none, stopRq := none }) ∧
    (drained s q.tenant = false → Completes (.tenantStop t q graceMs) s fun u => Executing q 0x0303 u ∧
      u.tenant? q.tenant = some { x with state := .stopped, draining := true, stopRq := some q
                                         graceAt := some (max s.now t + graceMs * ticksPerMs) })) ∧
  (∀ t q x s, Accepted s q 0x0304 0 false → roleOf s q.ep = .owner → s.tenant? q.tenant = some x → x.state = .stopped →
    (x.draining = false → Completes (.tenantStart t q) s fun u => Responded q 0x0304 msOk [] u ∧
      (u.tenant? q.tenant).map (·.state) = some .running) ∧
    (x.draining = true → Completes (.tenantStart t q) s fun u => Responded q 0x0304 msBusy [] u ∧
      u.tenants = s.tenants)) ∧
  (∀ t q s, (roleOf s q.ep = .owner ∨ roleOf s q.ep = .admin q.tenant) →
    (Accepted s q 0x0305 0 false → Completes (.tenantState t q) s fun u => u.tenants = s.tenants ∧ Responded q 0x0305 msOk
      (match s.tenant? q.tenant with
        | none => zeros 8
        | some x => le 1 (TState.code x.state) ++ le 1 (if x.draining then 1 else 0) ++ zeros 2 ++ le 4 x.creation) u) ∧
    (Accepted s q 0x0604 0 false → (s.tenant? q.tenant).isSome = true → Completes (.twillStatus t q) s fun u =>
      Responded q 0x0604 msOk (twStatus (s.arrive t) q.tenant) u ∧ u.twill = s.twill))

/-- Creating a tenant and changing its credentials, each a commit of the settings set (R404, R434, R449); program images of a
tenant (R274, R275, R420). -/
def Obligations.CredentialAndImageRequestsComplete : Prop :=
  (∀ t q rec s, Accepted s q 0x0301 260 false → roleOf s q.ep = .owner → s.settings.commit = none →
    s.settings.commitQueue = [] → tenRecOk rec = true → rec.tenant = q.tenant → s.tenant? q.tenant = none →
    let r := { rec with progCred := [] }
    let b := SetBody.put (setInForce s) { r with tenantCred := Config.sha384 (bulkOf s q 2689) }
    Completes (.tenantCreate t q rec 2689) s fun u => (u.ep q.ep).bulk = [] ∧ match setReason s b false with
      | none => Executing q 0x0301 u ∧ u.settings.commit = some (1, b, .create q r (bulkOf s q 2689))
      | some (3, part) => Responded q 0x0301 msSet (detailBody (3 + part * 2 ^ 16)) u ∧ u.settings = s.settings
      | some _ => Responded q 0x0301 msNoResource [] u ∧ u.settings = s.settings) ∧
  (∀ t q x s, Accepted s q 0x0306 4 false → (roleOf s q.ep = .owner ∨ roleOf s q.ep = .admin q.tenant) →
    s.tenant? q.tenant = some x → x.state ≠ .destroying →
    (s.settings.commit = none → s.settings.commitQueue = [] →
      Completes (.tenantCred t q 2689) s fun u => Executing q 0x0306 u ∧
        (∃ b, u.settings.commit = some (1, b, .cred q q.tenant false (bulkOf s q 2689)) ∧
          (SetBody.ten b x.cfg.tenant).tenantCred = Config.sha384 (bulkOf s q 2689)) ∧ (u.ep q.ep).bulk = []) ∧
    (∀ c, s.settings.commit = some c → Completes (.tenantCred t q 2689) s fun u =>
      Executing q 0x0306 u ∧ u.settings.commit = some c ∧
      u.settings.commitQueue = s.settings.commitQueue ++ [.cred q q.tenant false (bulkOf s q 2689)])) ∧
  (∀ t q x s, Accepted s q 0x0307 4 false → roleOf s q.ep = .admin q.tenant → s.tenant? q.tenant = some x →
    x.state ≠ .destroying →
    (s.settings.commit = none → s.settings.commitQueue = [] →
      Completes (.progsignCred t q 2689) s fun u => Executing q 0x0307 u ∧
        (∃ b, u.settings.commit = some (1, b, .cred q q.tenant true (bulkOf s q 2689)) ∧
          (SetBody.ten b x.cfg.tenant).progCred = Config.sha384 (bulkOf s q 2689)) ∧ (u.ep q.ep).bulk = []) ∧
    (∀ c, s.settings.commit = some c → Completes (.progsignCred t q 2689) s fun u =>
      Executing q 0x0307 u ∧ u.settings.commit = some c ∧
      u.settings.commitQueue = s.settings.commitQueue ++ [.cred q q.tenant true (bulkOf s q 2689)])) ∧
  (∀ t q x bulkLen s, Accepted s q 0x0601 4 false → (roleOf s q.ep = .owner ∨ roleOf s q.ep = .admin q.tenant) →
    s.tenant? q.tenant = some x → x.state ≠ .destroying → bulkLen ≤ 524288 →
    let bs := bulkOf s q bulkLen
    Completes (.progInstall t q bulkLen) s fun u => match progReason s q.tenant bs, progReserved bs, progFault bs with
      | 0, false, none => ∃ id, Responded q 0x0601 msOk (le 4 id) u ∧ (∀ p ∈ x.progs, p.id ≠ id) ∧
        u.tenant? q.tenant = some { x with progs := x.progs ++ [{ id := id, bytes := bs }] }
      | 0, false, some off => Responded q 0x0601 msProgram (detailBody off) u ∧ u.tenants = s.tenants
      | 0, true, _ => Responded q 0x0601 msReserved [] u ∧ u.tenants = s.tenants
      | 1, _, _ => Responded q 0x0601 msProgram (detailBody 8) u ∧ u.tenants = s.tenants
      | why, _, _ => Responded q 0x0601 msImage (detailBody why) u ∧ u.tenants = s.tenants) ∧
  (∀ t q x id s, Accepted s q 0x0602 4 false → (roleOf s q.ep = .owner ∨ roleOf s q.ep = .admin q.tenant) →
    s.tenant? q.tenant = some x → (progOf s q.tenant id).isSome = true →
    Completes (.progRemove t q id) s fun u =>
      Responded q 0x0602 msOk [] u ∧ u.tenant? q.tenant = some { x with progs := x.progs.filter (·.id != id) } ∧
      progOf u q.tenant id = none) ∧
  (∀ t q x s, Accepted s q 0x0603 0 false → (roleOf s q.ep = .owner ∨ roleOf s q.ep = .admin q.tenant) →
    s.tenant? q.tenant = some x → x.progs.length ≤ 72 →
    Completes (.progList t q) s fun u => u.tenants = s.tenants ∧
      Responded q 0x0603 msOk (le 4 x.progs.length ++ zeros 4 ++ x.progs.flatMap fun p =>
        le 4 p.id ++ le 4 (field p.bytes 8 4) ++ slice (signBlock p.bytes) 0x20 48) u)

/-- Requests that erase (R406, R411, R412, R415, R416, R418, R426): with no other erasure queued, each takes its tenants out
of service and awaits the verification of its intent record. -/
def Obligations.ErasureRequestsComplete : Prop :=
  ∀ t q s, s.owner.erasures = [] →
    let starts (c : Instr) (code : Nat) (kind : EraseKind) (destroys erases : List Nat) : Prop := Completes c s fun u =>
      Executing q code u ∧ (∀ d ∈ destroys, ∀ x, u.tenant? d = some x → x.state = .destroying) ∧
      u.owner.erasures.map (fun e => (e.q, e.kind, e.destroys.map (·.1), e.erases, e.step)) = [(q, kind, destroys, erases, 3)]
    (∀ x, Accepted s q 0x0302 0 false → roleOf s q.ep = .owner → q.tenant ≠ 0 → s.tenant? q.tenant = some x →
      x.state ≠ .destroying → x.stopRq = none → starts (.tenantDestroy t q) 0x0302 .destroy [q.tenant] []) ∧
    (∀ x, Accepted s q 0x0308 0 false → roleOf s q.ep = .owner → s.tenant? q.tenant = some x → stoppedNow x = true →
      starts (.tenantErase t q) 0x0308 .erase [] [q.tenant]) ∧
    (Accepted s q 0x0310 4 true → (roleOf s q.ep = .board ∨ ∃ p, roleOf s q.ep = .host ⟨0, p⟩) → s.owner.cred = [] →
      (∀ sl ∈ s.slots, 8128 ≤ sl.ix) →
      starts (.ownClaim t q 2689) 0x0310 (.claim (bulkOf s q 2689)) [] (s.tenants.map (·.num))) ∧
    (roleOf s q.ep = .owner → s.tenants.all stoppedNow = true →
      (Accepted s q 0x0311 4 true → starts (.ownTransfer t q 2689) 0x0311 (.transfer (bulkOf s q 2689)) (others s) [0]) ∧
      (Accepted s q 0x0312 0 true → starts (.ownRelease t q) 0x0312 .release (others s) [0]) ∧
      (Accepted s q 0x0313 0 true → starts (.factoryRestore t q) 0x0313 .restore (others s) [0]) ∧
      (Accepted s q 0x0315 4 true → Completes (.debugUnlock t q 9554) s fun u => u.owner.debugNonce = none ∧
        let st := tokenStatus (s.arrive t) s.owner.debugNonce (bulkOf s q 9554)
        if st = msOk then Executing q 0x0315 u ∧ u.owner.erasures.map (fun e => (e.q, e.kind, e.destroys, e.erases, e.step)) =
          [(q, .debug (field (bulkOf s q 9554) 104 1), [], s.tenants.map (·.num), 3)]
        else Responded q 0x0315 st [] u ∧ u.owner.erasures = [] ∧ u.owner.unlocked = s.owner.unlocked)) ∧
    (Accepted s q 0x0314 0 true → roleOf s q.ep = .owner → Completes (.debugNonce t q) s fun u => ∃ n, n.length = 48 ∧
      Responded q 0x0314 msOk n u ∧ u.owner.debugNonce = some (n, max s.now t))

/-- A page program that ends: on a die with no media operation it verifies the next record of the erasure under way (R406,
R412); on the others it lights LED1 for 50 ms, counts a failure, and moves the map entry of a copied grain whose entry still
stands (R150, R161, R564). -/
def Obligations.ProgramEndsComplete : Prop :=
  (∀ t d e s, s.pins.pwrgd = true → s.pfail.step = 0 → s.serving = true → (s.die d).op = none → s.owner.erasures = [e] →
    (e.step = 3 → Completes (.programComplete t d true) s fun u =>
      u.owner.intent = some (e.destroys.map (·.1), e.erases) ∧ u.owner.erasures = [{ e with step := 4 }] ∧
      ∀ tn ∈ e.destroys.map (·.1) ++ e.erases, (∀ im ∈ u.compute.images, im.tenant ≠ tn) ∧
        (∀ x ∈ u.compute.slm, x.1 ≠ tn) ∧ ∀ k ∈ u.units.keys, k.owner = tn → 16 ≤ k.slot → k.valid = false) ∧
    (e.step = 4 → e.destroys ≠ [] → Completes (.programComplete t d true) s fun u =>
      u.owner.erasures = [{ e with step := 6 }]) ∧
    (e.step = 6 → e.kind = .destroy → (s.ep e.q.ep).executing = none → quiet s = true →
      Completes (.programComplete t d true) s fun u =>
        (∀ x ∈ e.destroys, u.tenant? x.1 = none ∧ ∀ n ∈ u.nss, n.tenant ≠ x.1) ∧ u.owner.intent = none ∧
        u.owner.erasures = [] ∧ Responded e.q 0x0302 msOk [] u)) ∧
  (∀ t d serial row ch b ok s, s.pins.pwrgd = true → s.boot.life ≠ .starting → s.pfail.step = 0 →
    (s.die d).op = some (.program serial row ch) → (s.die d).resetting = false → band? s serial = some b →
    Completes (.programComplete t d ok) s fun u =>
      u.pins.led1Until = some (max s.now t + 50 * ticksPerMs) ∧
      u.media.programFails = s.media.programFails + (if ok then 0 else 1)) ∧
  (∀ t d serial row ch b p e n s, s.pins.pwrgd = true → s.boot.life ≠ .starting → s.pfail.step = 0 →
    (s.die d).op = some (.program serial row ch) → (s.die d).resetting = false → band? s serial = some b →
    s.media.placed = [p] → p.source = some e → p.run.serial = serial →
    p.run.pages.all (Band.verified { b with passed := b.passed ++ [(row, ch)] }) = true → quiet s = true →
    s.ns? p.run.nsid = some n → (entryOf n p.run.grain).dealloc = false → (entryOf n p.run.grain).frame = e.frame →
    (entryOf n p.run.grain).gen = e.gen →
    Completes (.programComplete t d true) s fun u =>
      (u.ns? p.run.nsid).map (entryOf · p.run.grain) =
        some { frame := p.run.frame, len := p.run.len, dealloc := false, raw := p.run.raw, gen := e.gen + 1 } ∧
      u.media.relocBytes = s.media.relocBytes + 64 * p.run.len)

/-- Key requests of a tenant's administrator (R359 to R368, R372): the slot afterwards, and the answer. -/
def Obligations.KeyRequestsComplete : Prop :=
  (∀ t q slot gen p s, Accepted s q 0x0401 48 false → roleOf s q.ep = .admin q.tenant → slot ≤ 1023 → gen ≤ 65535 →
    policyBad p = false → slotStatus s slot gen q.tenant = none → p.owner = q.tenant → (keySlot s slot).valid = false →
    (keySlot s slot).claimed = none → slotsHeld s q.tenant < ((s.tenant? q.tenant).map (·.cfg.keyQuota)).getD 0 →
    let filled (u : State) (origin : Nat) : Prop := (keySlot u slot).valid = true ∧ (keySlot u slot).owner = q.tenant ∧
      (keySlot u slot).size = p.size ∧ (keySlot u slot).origin = origin ∧ (keySlot u slot).exportable = p.exportable ∧
      (keySlot u slot).persist = p.persist ∧ (keySlot u slot).uMedia = p.uMedia ∧ (keySlot u slot).uKdf = false
    Completes (.generate t q slot gen p) s fun u => filled u 0 ∧ Responded q 0x0401 msOk (le 2 (keySlot u slot).gen) u) ∧
  (∀ t q slot gen p label s, Accepted s q 0x0402 48 false → roleOf s q.ep = .admin q.tenant → slot ≤ 1023 → gen ≤ 65535 →
    policyBad p = false → label.length = 32 → slotStatus s slot gen q.tenant = none → p.owner = q.tenant →
    (keySlot s slot).valid = false → (keySlot s slot).claimed = none →
    slotsHeld s q.tenant < ((s.tenant? q.tenant).map (·.cfg.keyQuota)).getD 0 →
    Completes (.derive t q slot gen p label) s fun u => (keySlot u slot).valid = true ∧ (keySlot u slot).owner = q.tenant ∧
      (keySlot u slot).key = pad 64 (kdf s q.tenant 4 label (8 * keyBytes p.size)) ∧
      Responded q 0x0402 msOk (le 2 (keySlot u slot).gen) u) ∧
  (∀ t q slot gen b s, Accepted s q 0x0403 (48 + (80 + (if b.keyLen = 64 then 64 else 32))) false →
    roleOf s q.ep = .admin q.tenant → slot ≤ 1023 → gen ≤ 65535 → blobBad b = false →
    slotStatus s slot gen q.tenant = none → b.policy.owner = q.tenant → (keySlot s slot).valid = false →
    (keySlot s slot).claimed = none → slotsHeld s q.tenant < ((s.tenant? q.tenant).map (·.cfg.keyQuota)).getD 0 →
    let kek := kdf s q.tenant 3 b.label 256
    let key := gcmText kek b.nonce b.key
    Completes (.unwrap t q slot gen b) s fun u =>
      if gcmTag kek b.nonce (blobHead b) b.key ≠ b.tag then
        (keySlot u slot).valid = false ∧ Responded q 0x0403 msAuthFail [] u
      else if allZero (key.drop (keyBytes b.policy.size)) = false then
        (keySlot u slot).valid = false ∧ Responded q 0x0403 msReserved [] u
      else (keySlot u slot).valid = true ∧ (keySlot u slot).key = pad 64 key ∧
        Responded q 0x0403 msOk (le 2 (keySlot u slot).gen) u) ∧
  (∀ t q slot gen label s, Accepted s q 0x0404 48 false → roleOf s q.ep = .admin q.tenant → slot ≤ 1023 → gen ≤ 65535 →
    label.length = 32 → slotStatus s slot gen q.tenant = none → (keySlot s slot).valid = true →
    (keySlot s slot).exportable = true →
    Completes (.wrap t q slot gen label) s fun u => u.units.keys = s.units.keys ∧ ∃ nonce head ct tag,
      Responded q 0x0404 msOk (head ++ ct ++ tag) u ∧
      ct = gcmText (kdf s q.tenant 3 label 256) nonce (pad (blobKeyLen (keySlot s slot).size)
        ((keySlot s slot).key.take (keyBytes (keySlot s slot).size))) ∧
      tag = gcmTag (kdf s q.tenant 3 label 256) nonce head ct) ∧
  (∀ t q slot gen p s, Accepted s q 0x0405 48 false → roleOf s q.ep = .admin q.tenant → slot ≤ 1023 → gen ≤ 65535 →
    policyBad p = false → slotStatus s slot gen q.tenant = none →
    let x := keySlot s slot
    x.valid = true → p.owner = x.owner → p.size = x.size → (p.persist → x.persist) → (p.uMedia → x.uMedia) →
    (p.uEnc → x.uEnc) → (p.uDec → x.uDec) → (p.uHmac → x.uHmac) → (p.exportable → x.exportable) →
    Completes (.restrict t q slot gen p) s fun u => Responded q 0x0405 msOk [] u ∧
      keySlot u slot = { x with persist := p.persist, uMedia := p.uMedia, uEnc := p.uEnc, uDec := p.uDec
                                uHmac := p.uHmac, exportable := p.exportable }) ∧
  (∀ t q slot gen s, Accepted s q 0x0406 48 false → (roleOf s q.ep = .admin q.tenant ∨ roleOf s q.ep = .owner) →
    slot ≤ 1023 → gen ≤ 65535 → slotStatus s slot gen q.tenant = none →
    Completes (.clear t q slot gen) s fun u => Responded q 0x0406 msOk [] u ∧ (keySlot u slot).valid = false ∧
      (keySlot u slot).key = (({ slot := slot } : KeySlot)).key) ∧
  (∀ t q slot gen s, Accepted s q 0x0407 48 false → (roleOf s q.ep = .admin q.tenant ∨ roleOf s q.ep = .owner) →
    slot ≤ 1023 → gen ≤ 65535 → slotStatus s slot gen q.tenant = none →
    Completes (.query t q slot gen) s fun u => Responded q 0x0407 msOk (le 8 (policyWord (keySlot s slot))) u ∧
      u.units.keys = s.units.keys) ∧
  (∀ t q slot gen nsid n s, Accepted s q 0x0408 48 false → roleOf s q.ep = .admin q.tenant → slot ≤ 1023 → gen ≤ 65535 →
    1 ≤ nsid → nsid ≤ 1024 → slotStatus s slot gen q.tenant = none → s.ns? nsid = some n → n.tenant = q.tenant →
    n.keysrc = 1 → (keySlot s slot).valid = true → (keySlot s slot).uMedia = true → (keySlot s slot).size = 2 →
    Completes (.loadNsKey t q slot gen nsid) s fun u =>
      if nsVerifier (keySlot s slot).key = n.verifier then Responded q 0x0408 msOk [] u ∧
        (u.ns? nsid).map (·.key) = some (some (keySlot s slot).key)
      else Responded q 0x0408 msAuthFail [] u ∧ (u.ns? nsid).map (·.key) = some n.key)

/-- Supervisor pairs, hand-over and microcode (R541 to R547, R550, R552): a serving pair at fault is taken over at once by a
standby pair, or is fatal without one; the steps of a hand-over; the loading of the next cluster. -/
def Obligations.PairsAndHandoverComplete : Prop :=
  (∀ t i cause s, i ≤ 1 → cause ≤ 3 → s.boot.life = .running → s.moraine.fatal = none → pairOf s i = .serving →
    let again : Bool := ((if i = 0 then s.fw.faulted0 else s.fw.faulted1).map fun x =>
      decide ((s.arrive t).rime.opTicks - x < 24 * ticksPerHour)).getD false
    (pairOf s (1 - i) = .standby → Completes (.pairFault t i cause) s fun u => pairOf u (1 - i) = .serving ∧
      pairOf u i = (if again then .out else .fenced) ∧ u.fw.takeovers = s.fw.takeovers + 1 ∧
      u.fw.heartbeatAt = max s.now t + ticksPerMs) ∧
    (pairOf s (1 - i) ≠ .standby → Completes (.pairFault t i cause) s fun u => u.moraine.fatal = some 2 ∧
      u.pins.fault = true ∧ u.pfail.stopped = true)) ∧
  (∀ t s, s.fw.heartbeatAt ≤ max s.now t → s.boot.life = .running → s.moraine.fatal = none →
    pairOf s (servingPair s) = .serving → pairOf s (1 - servingPair s) = .standby →
    Completes (.lockstepWatchdogExpiry t) s fun u => pairOf u (1 - servingPair s) = .serving ∧
      pairOf u (servingPair s) ≠ .serving ∧ u.fw.takeovers = s.fw.takeovers + 1) ∧
  (∀ t i s, i ≤ 1 → pairOf s i = .reloading → Completes (.pairStandbyReady t i) s fun u => pairOf u i = .standby ∧
    Party.pair i ∉ u.repair.fenced ∧ (0x12, i) ∉ u.repair.work ∧ pairOf u (1 - i) = pairOf s (1 - i)) ∧
  (∀ t q slot s, s.fw.handover = some (1, q, slot) → (fwSlot s (1 - s.fw.active)).isSome = true →
    pairOf s (1 - servingPair s) = .standby → Completes (.handoverStandbyReady t true) s fun u =>
      u.fw = { s.fw with handover := some (2, q, slot) }) ∧
  (∀ t q slot s, s.fw.handover = some (1, q, slot) → Completes (.handoverStandbyReady t false) s fun u =>
    u.fw.handover = none ∧ u.fw.active = s.fw.active) ∧
  (∀ t q slot began s, s.fw.handover = some (3, q, slot) → s.fw.pauseSince = some began → s.pfail.stopped = false →
    Completes (.handoverPauseEnd t) s fun u => u.fw.active = 1 - s.fw.active ∧ u.fw.handover = some (5, none, none) ∧
      u.fw.pauseSince = none ∧ u.fw.trial = some (s.arrive t).rime.opTicks ∧ u.fw.handovers = s.fw.handovers + 1 ∧
      u.fw.lastPause = (max s.now t - began) / ticksPerUs ∧
      ∀ r l, q = some r → (s.ep r.ep).executing = some (r, 0x0802, l, false) → Responded r 0x0802 msOk [] u) ∧
  (∀ t c rest s, s.serving = true → s.fw.microcode = c :: rest → Completes (.microcodeLoad t c) s fun u =>
    u.fw.microcode = rest ∧ ∀ e ∈ u.engines, e.cluster = c → e.job = none → e.newMicrocode = true)

/-- Staging, activating and committing firmware, and the rise of MIN_SVN (R400, R421, R422, R443 to R445, R544, R548). -/
def Obligations.FirmwareRequestsComplete : Prop :=
  (∀ t q offset total data s, roleOf s q.ep ∈ [Role.owner, .board] ∨ hostMay s 3 (roleOf s q.ep) = true →
    chunkFits s offset total data = true → s.fw.trial = none →
    (Accepted s q 0x0801 (8 + data.length) true → s.fw.handover = none →
      Completes (.fwStage t q offset total data) s fun u => Executing q 0x0801 u ∧ fwSlot u (1 - s.fw.active) = none ∧
        u.fw.staging = some (total, (if offset = 0 then [] else (s.fw.staging.map (·.2)).getD []) ++ data) ∧
        u.boot.nor = s.boot.nor ++ [.fw q false offset total data]) ∧
    (Accepted s q 0x0801 (8 + data.length) true → s.fw.handover.isSome = true →
      Completes (.fwStage t q offset total data) s fun u => Responded q 0x0801 msBusy [] u ∧ u.fw = s.fw) ∧
    (Accepted s q 0x0805 (8 + data.length) true → s.fw.handover = none → roleOf s q.ep = .board → q.path = .mctp →
      Completes (.recoveryStage t q offset total data) s fun u => Executing q 0x0805 u ∧ fwSlot u (1 - s.fw.active) = none ∧
        u.boot.nor = s.boot.nor ++ [.fw q true offset total data])) ∧
  (∀ t q s, roleOf s q.ep ∈ [Role.owner, .board] ∨ hostMay s 3 (roleOf s q.ep) = true →
    (Accepted s q 0x0802 0 true → s.fw.handover = none → Completes (.fwActivate t q) s fun u => Executing q 0x0802 u ∧
      u.fw = { s.fw with handover := some (1, some q, none) }) ∧
    (Accepted s q 0x0803 0 true → Completes (.fwStatus t q) s fun u => ∃ body, Responded q 0x0803 msOk body u ∧
      body.length = 32 ∧ slice body 0 8 = le 8 (fwVersion s 0) ∧ slice body 12 8 = le 8 (fwVersion s 1) ∧
      slice body 24 4 = le 4 s.fw.minSvn ∧ slice body 28 1 = le 1 s.fw.active ∧ slice body 29 1 = le 1 (stagedCode s) ∧
      u.fw = s.fw)) ∧
  (∀ t q im s, Accepted s q 0x0804 0 true → roleOf s q.ep = .owner → fwSlot s s.fw.active = some im →
    Completes (.svnCommit t q) s fun u => Responded q 0x0804 msOk [] u ∧ u.fw =
      { s.fw with minSvn := max s.fw.minSvn im.svn, revoked := s.fw.revoked ||| (im.revoke % 16), trial := none }) ∧
  (∀ t began im s, s.fw.trial = some began → 24 * ticksPerHour ≤ (s.arrive t).rime.opTicks - began →
    (∀ x ∈ s.moraine.fatals, x < began) → fwSlot s s.fw.active = some im → Completes (.svnRaise t) s fun u => u.fw =
      { s.fw with minSvn := max s.fw.minSvn im.svn, revoked := s.fw.revoked ||| (im.revoke % 16), trial := none }) ∧
  (∀ t sl off data s, Ready s sl → sl.sqe.body = .fwDownload off data → sl.fn.tenant = 0 → adminMay s sl.fn 3 = true →
    checkData sl.sqe data.length = none → Completes (.firmwareImageDownload t sl.ix) s fun u => Posted sl stOk 0 u ∧
      u.fw.download = pad off (if off = 0 then [] else s.fw.download) ++ data ++
        (if off = 0 then [] else s.fw.download).drop (off + data.length)) ∧
  (∀ t sl slot ca s, Ready s sl → sl.sqe.body = .fwCommit slot ca → sl.fn.tenant = 0 → adminMay s sl.fn 3 = true →
    s.fw.handover = none → s.fw.trial = none → slot ≤ 2 →
    let target := if slot = 0 then 1 - s.fw.active else slot - 1
    (3 < ca → Completes (.firmwareCommit t sl.ix) s fun u => Posted sl stField 0 u ∧ u.fw = s.fw) ∧
    (target ≠ s.fw.active → ca = 2 → (fwSlot s target).isSome = true → Completes (.firmwareCommit t sl.ix) s fun u =>
      Posted sl stOk 0 u ∧ u.fw = { s.fw with nextActive := some target }) ∧
    (target ≠ s.fw.active → (ca ≤ 1 ∨ ca = 3) → Completes (.firmwareCommit t sl.ix) s fun u =>
      if fwReason s s.fw.download ≠ 0 then Posted sl stFwImage 0 u ∧ u.fw = s.fw
      else fwSlot u target = some (fwImageOf s s.fw.download) ∧
        if ca = 3 then u.fw.handover = some (1, none, some sl.ix) ∧ (u.slot? sl.ix).map (·.phase) = some .running
        else Posted sl stOk 0 u ∧ u.fw.nextActive = (if ca = 1 then some target else s.fw.nextActive)))

/-- REPAIR requests (R460, R468, R481, R491, R556, R558): each queues its work, and a request whose work is queued already is
answered BUSY. -/
def Obligations.RepairRequestsComplete : Prop :=
  (∀ t q unit e s, Accepted s q 0x0903 8 true → (roleOf s q.ep = .owner ∨ roleOf s q.ep = .board) → unit < 72 →
    (0x01, unit) ∉ s.repair.work → s.engine? unit = some e →
    Completes (.calve t q unit) s fun u => Responded q 0x0903 msOk [] u ∧ (u.engine? unit).map (·.status) = some 2) ∧
  (∀ t q unit e s, Accepted s q 0x0903 8 true → (roleOf s q.ep = .owner ∨ roleOf s q.ep = .board) → unit < 72 →
    (0x02, unit) ∉ s.repair.work → s.engine? unit = some e → e.status < 2 →
    Completes (.engineTest t q unit) s fun u => Responded q 0x0903 msOk [] u ∧ (0x02, unit) ∈ u.repair.work ∧
      u.engine? unit = some { e with testDue := true }) ∧
  (∀ t q unit c s, Accepted s q 0x0903 8 true → (roleOf s q.ep = .owner ∨ roleOf s q.ep = .board) → unit < 4 →
    (0x03, unit) ∉ s.repair.work → chan? s unit = some c → c.inService = true →
    Completes (.dramRetrain t q unit) s fun u => Responded q 0x0903 msOk [] u ∧ (0x03, unit) ∈ u.repair.work ∧
      chan? u unit = some { c with due := some (c.due.getD 3) }) ∧
  (∀ t q unit c s, Accepted s q 0x0903 8 true → (roleOf s q.ep = .owner ∨ roleOf s q.ep = .board) → unit < 4 →
    (0x04, unit) ∉ s.repair.work → chan? s unit = some c →
    (s.tenants.all stoppedNow = true → c.soft ≠ [] → Completes (.hppr t q unit) s fun u => Responded q 0x0903 msOk [] u ∧
      (0x04, unit) ∈ u.repair.work ∧ chan? u unit = some { c with hardQueue := c.soft }) ∧
    (s.tenants.all stoppedNow = false → Completes (.hppr t q unit) s fun u => Responded q 0x0903 msNotStopped [] u ∧
      u.repair = s.repair)) ∧
  (∀ t q unit s, Accepted s q 0x0903 8 true → (roleOf s q.ep = .owner ∨ roleOf s q.ep = .board) → unit < 256 →
    (0x05, unit) ∉ s.repair.work → Completes (.pageIdle t q unit) s fun u => Responded q 0x0903 msOk [] u ∧
      (0x05, unit) ∈ u.repair.work ∧ u.repair.pageIdleNext = some unit ∧ u.repair.pageIdle = s.repair.pageIdle) ∧
  (∀ t q unit s, Accepted s q 0x0903 8 true → (roleOf s q.ep = .owner ∨ roleOf s q.ep = .board) → 8 ≤ unit → unit ≤ 16 →
    (0x06, unit) ∉ s.repair.work → Completes (.nrrLog2 t q unit) s fun u => Responded q 0x0903 msOk [] u ∧
      (0x06, unit) ∈ u.repair.work ∧ u.repair.nrrLog2Next = some unit ∧ u.repair.nrrLog2 = s.repair.nrrLog2) ∧
  (∀ t q unit s, Accepted s q 0x0903 8 true → (roleOf s q.ep = .owner ∨ roleOf s q.ep = .board) → unit < 32 →
    (0x10, unit) ∉ s.repair.work → Completes (.nandRecal t q unit) s fun u => Responded q 0x0903 msOk [] u ∧
      (0x10, unit) ∈ u.repair.work ∧ ∀ d ∈ diesOf unit, (s.die d).isolated = none → (u.die d).recalDue = true) ∧
  (∀ t q unit s, Accepted s q 0x0903 8 true → (roleOf s q.ep = .owner ∨ roleOf s q.ep = .board) → unit < 2 →
    (0x11, unit) ∉ s.repair.work → Completes (.serdesReeq t q unit) s fun u => Responded q 0x0903 msOk [] u ∧
      (0x11, unit) ∈ u.repair.work ∧ (u.link (if unit = 0 then .a else .b)).reeqDue = true) ∧
  (∀ t q unit s, Accepted s q 0x0903 8 true → (roleOf s q.ep = .owner ∨ roleOf s q.ep = .board) → unit < 2 →
    (0x12, unit) ∉ s.repair.work →
    (pairOf s unit ≠ .serving → Completes (.pairTest t q unit) s fun u =>
      Responded q 0x0903 msOk [] u ∧ (0x12, unit) ∈ u.repair.work) ∧
    (pairOf s unit = .serving → Completes (.pairTest t q unit) s fun u =>
      Responded q 0x0903 msNotPermitted [] u ∧ u.repair = s.repair)) ∧
  (∀ t q unit s, Accepted s q 0x0903 8 true → (roleOf s q.ep = .owner ∨ roleOf s q.ep = .board) →
    ∀ k lo hi c, (k, lo, hi, c) ∈ [(0x01, 0, 72, Instr.calve t q unit), (0x02, 0, 72, .engineTest t q unit),
        (0x03, 0, 4, .dramRetrain t q unit), (0x04, 0, 4, .hppr t q unit), (0x05, 0, 256, .pageIdle t q unit),
        (0x06, 8, 17, .nrrLog2 t q unit), (0x10, 0, 32, .nandRecal t q unit), (0x11, 0, 2, .serdesReeq t q unit),
        (0x12, 0, 2, .pairTest t q unit)] → lo ≤ unit → unit < hi → (k, unit) ∈ s.repair.work →
      Completes c s fun u => Responded q 0x0903 msBusy [] u ∧ u.repair = s.repair)

/-- Errors of DRAM and of the on-die memories (R457, R462 to R475): what is counted, what becomes due, and what is lost. -/
def Obligations.MemoryErrorsComplete : Prop :=
  (∀ t ch row user c s, s.boot.life = .running → chan? s ch = some c → c.inService = true →
    (user = .readCache ∨ user = .heldTwice true → Completes (.dramUncorrectable t ch row user) s fun u =>
      (∃ c', chan? u ch = some c' ∧ (row ∈ c'.failing ∨ row ∈ c.soft ∨ row ∈ c.hard ∨ c.repairing.map (·.1) = some row)) ∧
      get? 7 u.repair.uncorrected = some ((get? 7 s.repair.uncorrected).getD 0 + 1)) ∧
    (∀ nsid page n, user = .mapPageClean nsid page → s.ns? nsid = some n → page ∉ n.dirty → page ∈ n.resident → page ∈ n.written →
      Completes (.dramUncorrectable t ch row user) s fun u => ∃ n', u.ns? nsid = some n' ∧ page ∉ n'.resident ∧ page ∈ n'.loading ∧
        n'.map = n.map) ∧
    (∀ tn addr, user = .slm tn addr → (s.tenant? tn).isSome = true → Completes (.dramUncorrectable t ch row user) s fun u =>
      (tn, addr / 64) ∈ u.compute.slmPoison) ∧
    (user = .heldTwice false → s.moraine.fatal = none → Completes (.dramUncorrectable t ch row user) s fun u =>
      u.moraine.fatal = some 1)) ∧
  (∀ t ok us c s, s.repair.chans.find? (·.retraining) = some c → s.pfail.stopped = false → Completes (.dramRetrainingComplete t ok us) s fun u =>
    ∃ c', chan? u c.ix = some c' ∧ c'.retraining = false ∧ c'.due = none ∧
      (if ok then c'.trainedAt = (s.arrive t).rime.opTicks ∧ c'.retry = (chan? s c.ix).bind (·.retry)
       else c'.retry = some ((s.arrive t).rime.opTicks, c.due.getD 0))) ∧
  (∀ t ok us c s, s.repair.chans.find? (·.retraining) = some c → s.pfail.stopped = true → s.pfail.step ≠ 1 →
    Completes (.dramRetrainingComplete t ok us) s fun u => (chan? u c.ix).map (fun x => (x.retraining, x.due, x.trainedAt)) =
      (chan? s c.ix).map fun x => (false, x.due, x.trainedAt)) ∧
  (∀ t ch row hard c s, chan? s ch = some c → c.repairing = some (row, hard) →
    Completes (.postPackageRepairComplete t ch) s fun u => ∃ c', chan? u ch = some c' ∧
      (hard = 1 → c.hardQueue = [] → c'.repairing = none ∧ row ∈ c'.hard ∧ row ∉ c'.soft) ∧
      (hard = 0 → c'.repairing = none ∧ c'.hard = c.hard ∧
        (c.soft.length + c.hard.length < Config.repairResources ch → c'.soft = c.soft ++ [row]) ∧
        (Config.repairResources ch ≤ c.soft.length + c.hard.length → c'.soft = c.soft ∧
          u.repair.retiredBytes = s.repair.retiredBytes + Config.dramRowBytes))) ∧
  (∀ t cls mcr offset fails s, s.boot.life = .running → cls ≠ mcDram → mcr < (macrosOf cls).1 → offset < (macrosOf cls).2 →
    cls ≠ mcTwill → Completes (.sramCorrection t cls mcr offset false fails) s fun u =>
      get? cls u.repair.corrected = some ((get? cls s.repair.corrected).getD 0 + 1) ∧
      (cls, mcr, offset, (s.arrive t).rime.opTicks) ∈ u.repair.seen) ∧
  (∀ t dram s, s.boot.life = .running → Completes (.scrubPatrol t dram) s fun u =>
    (if dram then u.repair.dramPatrol else u.repair.sramPatrol) = (s.arrive t).rime.opTicks)

/-- Scrub passes (R476, R477): at most eight queued or running, one at a time, with its result kept. Self-tests of engines and
the reclaim of fenced parties (R481, R482, R486 to R490). -/
def Obligations.ScrubsAndTestsComplete : Prop :=
  (∀ t q target start count s, Accepted s q 0x0901 24 true → (roleOf s q.ep = .owner ∨ roleOf s q.ep = .board) →
    scrubOk s target start count = true →
    ((s.repair.passes.filter (·.state < 2)).length < 8 → Completes (.scrubStart t q target start count) s fun u =>
      Responded q 0x0901 msOk (le 4 s.repair.nextPass) u ∧ u.repair.nextPass = (s.repair.nextPass + 1) % 2 ^ 32 ∧
      ∃ p ∈ u.repair.passes, p.id = s.repair.nextPass ∧ p.target = target ∧ p.start = start ∧ p.count = count ∧
        (p.state = 1 ↔ s.repair.passes.filter (·.state < 2) = [])) ∧
    (8 ≤ (s.repair.passes.filter (·.state < 2)).length → Completes (.scrubStart t q target start count) s fun u =>
      Responded q 0x0901 msNoResource [] u ∧ u.repair = s.repair)) ∧
  (∀ t a b c p s, s.repair.passes.find? (·.state == 1) = some p → (s.repair.passes.filter (2 ≤ ·.state)).length ≤ 15 →
    Completes (.scrubPassComplete t a b c) s fun u =>
      { p with state := 2, corrected := a, uncorrectable := b, remapped := c } ∈ u.repair.passes) ∧
  (∀ t q p s, Accepted s q 0x0902 4 true → (roleOf s q.ep = .owner ∨ roleOf s q.ep = .board) →
    s.repair.passes.find? (·.id == p.id) = some p → Completes (.scrubResult t q p.id) s fun u => u.repair = s.repair ∧
      Responded q 0x0902 msOk (le 1 p.state ++ le 3 0 ++ le 4 (sat 4 p.corrected) ++ le 4 (sat 4 p.uncorrectable) ++
        le 4 (sat 4 p.remapped)) u) ∧
  (∀ t p e s, s.engine? p = some e → e.testing = true → e.ix = p →
    (23 ≤ e.quanta → s.firn.ovr = none → Completes (.engineSelfTestQuantumEnd t p true) s fun u =>
      u.engine? p = some { e with testing := false, testDue := false, quanta := 0, passedAt := some (s.arrive t).rime.opTicks } ∧
      (2, p) ∉ u.repair.work) ∧
    (e.quanta < 23 → s.firn.ovr = none → Completes (.engineSelfTestQuantumEnd t p true) s fun u =>
      u.engine? p = some { e with testing := false, quanta := e.quanta + 1 } ∧ u.repair = s.repair) ∧
    (Completes (.engineSelfTestQuantumEnd t p false) s fun u => (u.engine? p).map (·.status) = some 2 ∧
      u.repair.testFails = s.repair.testFails + 1)) ∧
  (∀ t p s, s.boot.life = .running → partyExists s p = true → s.repair.reclaimDue.any (·.1 == p) = true →
    Completes (.ownershipReclaim t p) s fun u => p ∉ u.repair.reclaimDue.map (·.1) ∧ u.repair.reclaims = s.repair.reclaims + 1 ∧
      (∀ c, p = .channel c → p ∉ u.repair.fenced) ∧ ∀ i, p = .pair i → pairOf s i = .fenced → pairOf u i = .reloading) ∧
  (∀ t i s, s.boot.life = .running → i < 16 → Party.sieve i ∉ s.repair.fenced → s.repair.reclaimDue = [] →
    Completes (.ownershipReclaim t (.sieve i)) s fun u => i ∈ u.units.sievesOut ∧ Party.sieve i ∈ u.repair.fenced ∧
      u.repair.reclaims = s.repair.reclaims + 1)

/-- What the device shows through its mailbox (R401, R452, R529, R536 to R539) and when it takes its telemetry (R54, R261). -/
def Obligations.ViewsComplete : Prop :=
  (∀ t q offset count s, Accepted s q 0x0106 12 false → count ≤ 4072 →
    let f : Fn := ⟨q.tenant, match q.ep with
      | .fn g => g.port
      | .mctp .. => .a⟩
    offset + count ≤ windowBytes f → Completes (.viewRead t q 0 0 offset count) s fun u => ∃ v, Woken (s.arrive t) v ∧
      Responded q 0x0106 msOk (devBytes v (viewOf (roleOf s q.ep)) f offset count) u) ∧
  (∀ t q lid offset count bs s, Accepted s q 0x0106 12 false → count ≤ 4072 → 0xC0 ≤ lid → lid ≤ 0xC7 →
    logVendor (s.arrive t) .owner lid = some bs → offset + count ≤ bs.length →
    Completes (.viewRead t q 1 lid offset count) s fun u => ∃ v page, Woken (s.arrive t) v ∧
      logVendor v (viewOf (roleOf s q.ep)) lid = some page ∧ Responded q 0x0106 msOk (slice page offset count) u) ∧
  (∀ t q fromSeq count s, Accepted s q 0x0701 8 false → count ≤ 127 →
    let v := viewOf (roleOf s q.ep)
    let start := match viewRecs s v with
      | [] => fromSeq
      | x :: _ => if fromSeq = 0 ∨ seqGe fromSeq x.1 = false then x.1 else fromSeq
    let got := ((viewRecs s v).filter fun x => seqGe x.1 start).take count
    Completes (.rimeRead t q fromSeq count) s fun u => u.rime.ring = s.rime.ring ∧ Responded q 0x0701 msOk
      (le 4 ((got.head?.map (·.1)).getD (viewNext s v)) ++ le 4 got.length ++ got.flatMap recBytes) u) ∧
  (∀ t q s, Accepted s q 0x0702 0 true → roleOf s q.ep = .owner → Completes (.moraineInfo t q) s fun u =>
    u.moraine = s.moraine ∧ Responded q 0x0702 msOk (match s.moraine.dump with
      | none => le 1 0 ++ le 1 s.moraine.summaries.length ++ le 2 0
      | some d => le 1 (if d.partialDump then 2 else 1) ++ le 1 s.moraine.summaries.length ++ le 2 0 ++ dumpHeader d ++
        (dumpBody d).take 112) u) ∧
  (∀ t q offset count d s, Accepted s q 0x0703 8 true → roleOf s q.ep = .owner → count ≤ 4072 → s.moraine.dump = some d →
    offset + count ≤ dumpLength d → Completes (.moraineRead t q offset count) s fun u => u.moraine = s.moraine ∧
      Responded q 0x0703 msOk (slice (dumpHeader d ++ dumpBody d) offset count) u) ∧
  (∀ t s, telemetryDue (s.arrive t) = true →
    Completes (.telemetrySnapshot t) s fun u => u.compute.beatAt = max s.now t ∧
      (s.settings.dev.telemMask.testBit 0 = true → get? 256 u.compute.snapshot = some (dspWords (s.arrive t) none)) ∧
      (∀ x ∈ u.compute.counts, x.waitMax = 0) ∧ ∀ x ∈ u.compute.engUse, x.beat = 0)

/-- A 32-bit write to a BAR of a function (R8 to R10, R29, R66, R70, R435, R453): what each register takes, and that every
other register stays. -/
def Obligations.RegisterWritesComplete : Prop :=
  ∀ t f c s, s.ctrl? f = some c → hostReaches s f = true →
    let sets (bar offset : Nat) (value : Word) (c' : Ctrl) : Prop :=
      Completes (.registerWrite t f bar offset value) s fun u => u.ctrl? f = some c'
    (∀ v : Word, 16 ≤ v.toNat % 8192 → v.toNat % 8192 ≤ 4096 → v.toNat % 4 = 0 →
      (c.mbx.busy = false → sets 2 0 v { c with mbx := { c.mbx with busy := true, doorbell := some (v.toNat % 8192) } }) ∧
      (c.mbx.busy = true → sets 2 0 v { c with mbx := { c.mbx with overrun := true } })) ∧
    (∀ v : Word, (v.toNat % 8192 < 16 ∨ 4096 < v.toNat % 8192 ∨ v.toNat % 4 ≠ 0) → c.devErr.regErr = false →
      sets 2 0 v { c with devErr := { c.devErr with regErr := true, offset := 0 } }) ∧
    (∀ v : Word, sets 2 4 v (if v.toNat.testBit 1 then { c with mbx := { c.mbx with overrun := false } } else c)) ∧
    (∀ v : Word, v.toNat / 2 % 4096 ≤ 2048 → sets 2 8 v
      { c with mbx := { c.mbx with irqEn := v.toNat.testBit 0, vector := v.toNat / 2 % 4096 } }) ∧
    (∀ v : Word, sets 2 12 v (if v.toNat.testBit 0 then { c with mbx := { c.mbx with done := false } } else c)) ∧
    (∀ o (v : Word), 0x1000 ≤ o → o < 0x2000 → o % 4 = 0 → sets 2 o v { c with mbx := { c.mbx with
      reqBuf := Memory.writeN c.mbx.reqBuf (o - 0x1000) (le 4 v.toNat) } }) ∧
    (∀ v : Word, sets 2 0x3020 v (if epochFunction s f then { c with epochLo := v } else c)) ∧
    (∀ v : Word, sets 2 0x3024 v (if epochFunction s f then { c with epochHi := v } else c)) ∧
    (∀ v : Word, v.toNat.testBit 16 = false → v.toNat % 65536 ≠ 0 →
      sets 2 0x3028 v (if epochFunction s f then { c with epochCount := v.toNat % 65536 } else c)) ∧
    (∀ v : Word, v.toNat.testBit 16 = true →
      exec (.registerWrite t f 2 0x3028 v) s = exec (.firnEpochGo t f (v.toNat % 65536) (v.toNat / 2 ^ 17)) s) ∧
    (∀ v : Word, v.toNat.testBit 16 = false → v.toNat % 65536 = 0 → epochFunction s f = true → c.devErr.regErr = false →
      sets 2 0x3028 v { c with devErr := { c.devErr with regErr := true, offset := 0x3028 } }) ∧
    (∀ v : Word, sets 2 0x8000 v { c with devErr :=
      { regErr := c.devErr.regErr && !v.toNat.testBit 0, multi := c.devErr.multi && !v.toNat.testBit 1
        offset := if v.toNat.testBit 0 then 0 else c.devErr.offset } }) ∧
    (∀ o (v : Word), o % 4 = 0 → o ∉ [0, 4, 8, 12, 0x3020, 0x3024, 0x3028, 0x8000] → ¬ (0x1000 ≤ o ∧ o < 0x2000) →
      sets 2 o v c) ∧
    (∀ v : Word,
      sets 0 0x0C v { c with intMask := c.intMask ||| v.toNat } ∧
      sets 0 0x10 v { c with intMask := c.intMask &&& (0xFFFFFFFF - v.toNat) } ∧
      (c.en = false →
        sets 0 0x14 v { c with ccBits := v.toNat &&& 0x00FF3F80 } ∧
        sets 0 0x24 v { c with asq := { c.asq with size := v.toNat % 4096 + 1 }
                               acq := { c.acq with size := v.toNat / 65536 % 4096 + 1 } } ∧
        sets 0 0x28 v { c with asqBase := c.asqBase / 2 ^ 32 * 2 ^ 32 + v.toNat / 4096 * 4096 } ∧
        sets 0 0x2C v { c with asqBase := v.toNat * 2 ^ 32 + c.asqBase % 2 ^ 32 } ∧
        sets 0 0x30 v { c with acqBase := c.acqBase / 2 ^ 32 * 2 ^ 32 + v.toNat / 4096 * 4096 } ∧
        sets 0 0x34 v { c with acqBase := v.toNat * 2 ^ 32 + c.acqBase % 2 ^ 32 })) ∧
    (∀ o (v : Word), o % 4 = 0 → o ∉ [0x0C, 0x10, 0x14, 0x24, 0x28, 0x2C, 0x30, 0x34] → sets 0 o v c) ∧
    (∀ o ∈ [0x14, 0x24, 0x28, 0x2C, 0x30, 0x34], ∀ v : Word, c.en = true → sets 0 o v c) ∧
    (∀ o (v : Word), o % 4 = 0 → o < 2049 * 16 → c.msixPending = [] →
      sets 4 o v { c with msixTable := Memory.writeN c.msixTable o (le 4 v.toNat) })

/-- NVMe-MI, SPDM and the TAP (R423, R424, R439, R578): each message is answered on the endpoint it came from. -/
def Obligations.SidebandComplete : Prop :=
  (∀ t b p e s, sidebandOpen s (.mctp b p e) = true →
    let ep := Endpoint.mctp b p e
    let served (c : Instr) (ok : Bool) : Prop := Completes c s fun u => ∃ data, u.outbox.head? = some (.mi ep ok data)
    (∀ kind, served (.readNvmeMiDataStructure t ep kind) (decide (kind ≤ 5))) ∧
    served (.nvmSubsystemHealthStatusPoll t ep) true ∧ served (.controllerHealthStatusPoll t ep) true ∧
    (∀ id, served (.configurationGet t ep id) (decide (1 ≤ id ∧ id ≤ 3))) ∧
    Completes (.unsupportedNvmeMiMessage t ep) s fun u => u.outbox.head? = some (.mi ep false [])) ∧
  (∀ t ep s, sidebandOpen s ep = true → (∀ f, ep = .fn f → f.tenant = 0) →
    let said (c : Instr) (o : Output) : Prop := Completes c s fun u => u.outbox.head? = some o
    said (.getVersion t ep) (.spdm ep 0x04 ([0, 2] ++ le 2 0x1200 ++ le 2 0x1300)) ∧
    said (.getCapabilities t ep) (.spdm ep 0x61 (le 4 22)) ∧
    said (.negotiateAlgorithms t ep true true) (.spdm ep 0x63 (le 4 0x80 ++ le 4 2)) ∧
    (∀ a b, (a && b) = false → said (.negotiateAlgorithms t ep a b) (.spdm ep 0x7F [])) ∧
    said (.getDigests t ep) (.spdm ep 0x01 (le 1 1 ++ Config.sha384 (Config.certificate 0))) ∧
    (∀ o n, let part := ((Config.certificate 0).drop o).take n
      said (.getCertificate t ep 0 o n) (if o < (Config.certificate 0).length then
        .spdm ep 0x02 (le 2 part.length ++ le 2 ((Config.certificate 0).length - o - part.length) ++ part)
      else .spdm ep 0x7F [])) ∧
    (∀ slot o n, slot ≠ 0 → said (.getCertificate t ep slot o n) (.spdm ep 0x7F [])) ∧
    (∀ nonce, Completes (.spdmChallenge t ep 0 nonce) s fun u => ∃ mine : List Byte, mine.length = 32 ∧
      let said := Config.sha384 (Config.certificate 0) ++ mine ++ Config.sha384 (measurementList s 0xFF)
      u.outbox.head? = some (.spdm ep 0x03 (said ++ Config.spdmSign (nonce ++ said)))) ∧
    (∀ ix nonce, ix ≤ 8 ∨ ix = 0xFF → Completes (.getMeasurements t ep ix nonce) s fun u => ∃ mine : List Byte, mine.length = 32 ∧
      let said := le 1 (if ix = 0 ∨ ix = 0xFF then 8 else 1) ++ measurementList s ix ++ mine
      u.outbox.head? = some (.spdm ep 0x60 (said ++ Config.spdmSign (nonce ++ said))))) ∧
  (∀ t s, Completes (.jtagTapReset t) s fun u => u.tap = .idcode)
end

