-- ==== Sys2Proof/Laws/Cipher.lean ====
section
/-! SUPPORT. What the modes of the cipher lanes rest on: a decrypted block is the block that was encrypted (FIPS 197), and the
XTS form of one sector of whole blocks is undone by its inverse (R373). -/

namespace Sys2Proof.Machine

@[simp] theorem aesBlock_toList (v : Vector Byte 16) : Config.aesBlock v.toList = v := by
  ext i hi
  simp [Config.aesBlock]

theorem toList_aesBlock (bs : List Byte) (h : bs.length = 16) : (Config.aesBlock bs).toList = bs := by
  apply List.ext_getElem
  · simp [h]
  · intro i h1 h2
    simp [Config.aesBlock, h2]

@[simp] theorem aesEnc_length (key bs : List Byte) : (Config.aesEnc key bs).length = 16 := by simp [Config.aesEnc]

@[simp] theorem aesDec_length (key bs : List Byte) : (Config.aesDec key bs).length = 16 := by simp [Config.aesDec]

/-- Decryption under a key undoes encryption under it. -/
@[simp] theorem aesDec_aesEnc (key bs : List Byte) (h : bs.length = 16) : Config.aesDec key (Config.aesEnc key bs) = bs := by
  unfold Config.aesDec Config.aesEnc
  rw [aesBlock_toList, Equiv.symm_apply_apply, toList_aesBlock bs h]

/-- Encryption under a key undoes decryption under it. -/
@[simp] theorem aesEnc_aesDec (key bs : List Byte) (h : bs.length = 16) : Config.aesEnc key (Config.aesDec key bs) = bs := by
  unfold Config.aesDec Config.aesEnc
  rw [aesBlock_toList, Equiv.apply_symm_apply, toList_aesBlock bs h]

@[simp] theorem xorBytes_length (a b : List Byte) : (xorBytes a b).length = min a.length b.length := by simp [xorBytes]

/-- A mask of the same length applied twice is gone. -/
theorem xorBytes_twice (a m : List Byte) (h : a.length = m.length) : xorBytes (xorBytes a m) m = a := by
  apply List.ext_getElem
  · simp [h]
  · intro i h1 h2
    simp [xorBytes]

@[simp] theorem le_length (n v : Nat) : (le n v).length = n := by simp [le]

@[simp] theorem xtsBlock_length (enc : Bool) (key : List Byte) (t : Nat) (b : List Byte) :
    (xtsBlock enc key t b).length = 16 := by
  unfold xtsBlock
  cases enc <;> simp

/-- A block under a tweak is undone under that tweak. -/
theorem xtsBlock_undo (key : List Byte) (t : Nat) (b : List Byte) (h : b.length = 16) :
    xtsBlock false key t (xtsBlock true key t b) = b := by
  unfold xtsBlock
  dsimp only
  rw [if_pos rfl, if_neg (by simp), xorBytes_twice _ _ (by simp), aesDec_aesEnc _ _ (by simp [h]), xorBytes_twice _ _ (by simp [h])]

/-- The blocks of a text that is made of blocks. -/
theorem blocks_flatMap (f : Nat → List Byte) (hf : ∀ i, (f i).length = 16) (n : Nat) :
    blocks16 ((List.range n).flatMap f) = (List.range n).map f := by
  have len : ∀ n, ((List.range n).flatMap f).length = 16 * n := by
    intro n
    induction n with
    | zero => rfl
    | succ n ih => rw [List.range_succ, List.flatMap_append, List.length_append, ih]; simp [hf]; omega
  have part : ∀ n i, i < n → (((List.range n).flatMap f).drop (16 * i)).take 16 = f i := by
    intro n
    induction n with
    | zero => intro i hi; omega
    | succ n ih =>
      intro i hi
      rw [List.range_succ, List.flatMap_append, List.drop_append_of_le_length (by rw [len]; omega)]
      by_cases e : i = n
      · subst e
        rw [List.drop_of_length_le (by rw [len])]
        simp [hf, List.take_of_length_le]
      · rw [List.take_append_of_le_length (by rw [List.length_drop, len]; omega)]
        exact ih i (by omega)
  unfold blocks16 ceilDiv
  rw [len, show (16 * n + 16 - 1) / 16 = n by omega]
  exact List.map_congr_left fun i hi => part n i (List.mem_range.1 hi)

/-- XTS of whole blocks, block by block. -/
theorem xtsUnit_whole (enc : Bool) (key : List Byte) (tweak n : Nat) (text : List Byte) (h : text.length = 16 * n) :
    xtsUnit enc key tweak text = (List.range n).flatMap fun i =>
      xtsBlock enc (key.take 32) (iterate xtsNext i (unle (Config.aesEnc (key.drop 32) (le 16 (tweak % 2 ^ 128)))))
        ((blocks16 text).getD i []) := by
  unfold xtsUnit
  dsimp only
  rw [if_pos (by omega), show text.length / 16 = n by omega]

/-- XTS of a data unit of whole blocks is undone under the same key and tweak: what the media holds of a grain reads as the
grain (R370, R373). -/
theorem xtsUnit_undo (key : List Byte) (tweak n : Nat) (text : List Byte) (h : text.length = 16 * n) :
    xtsUnit false key tweak (xtsUnit true key tweak text) = text := by
  have cut : ∀ k, ((List.range k).flatMap fun i => (text.drop (16 * i)).take 16) = text.take (16 * k) := by
    intro k
    induction k with
    | zero => rfl
    | succ k ih =>
      rw [List.range_succ, List.flatMap_append, ih, show 16 * (k + 1) = 16 * k + 16 by omega, List.take_add]
      simp
  have piece : ∀ i, i < n → (blocks16 text).getD i [] = (text.drop (16 * i)).take 16 := by
    intro i hi
    have : i < ceilDiv text.length 16 := by unfold ceilDiv; omega
    simp [blocks16, List.getD_eq_getElem?_getD, this]
  rw [xtsUnit_whole true key tweak n text h, xtsUnit_whole false key tweak n _ (by simp [Nat.mul_comm]),
    blocks_flatMap _ (fun i => xtsBlock_length ..)]
  conv_rhs => rw [← List.take_of_length_le (l := text) (i := 16 * n) (by omega), ← cut n]
  refine List.flatMap_congr fun i hi => ?_
  have hi := List.mem_range.1 hi
  rw [show ((List.range n).map fun i => xtsBlock true (key.take 32) (iterate xtsNext i
      (unle (Config.aesEnc (key.drop 32) (le 16 (tweak % 2 ^ 128))))) ((blocks16 text).getD i [])).getD i [] =
      xtsBlock true (key.take 32) (iterate xtsNext i (unle (Config.aesEnc (key.drop 32) (le 16 (tweak % 2 ^ 128)))))
        ((blocks16 text).getD i []) by simp [List.getD_eq_getElem?_getD, hi], piece i hi]
  exact xtsBlock_undo _ _ _ (by simp; omega)

end Sys2Proof.Machine
end

