-- ==== Sys2Proof/Laws/Colmus.lean ====
section
/-! SUPPORT. The issue of an instruction that only writes registers. -/

namespace Sys2Proof.Machine

/-- An instruction without a side only writes its registers, in the cycle in which it issues. -/
theorem issue_plain {s : State} {p : Nat} {x : Engine} {w : Word} {regs accum bar ws} (h : StandsAt s p x w) :
    issue p w false false regs accum bar (plain ws) s = s.setEngine p fun _ =>
      advance { writes := ws (atIssue x regs accum bar) } (atIssue x regs accum bar) := by
  obtain ⟨h1, h2, h3⟩ := h
  have hj : ∀ c y, (landTo c y).job = y.job := by
    intro c y; unfold landTo
    generalize List.takeWhile _ _ = l
    have : ∀ (l : List Flight) (y : Engine), (l.foldl landOne y).job = y.job := by
      intro l; induction l with
      | nil => intro y; rfl
      | cons a l ih => intro y; rw [List.foldl_cons, ih]; unfold landOne; cases a.reg <;> rfl
    rw [this]
  unfold issue
  simp [h1, h2, h3, plain, atIssue, hj]


theorem wr_congr {r l} {v w : Word} (h : v = w) : wr r l v = wr r l w := by rw [h]
/-- A command that is such an instruction writes only what its writes name. -/
theorem writesOnly_of_issue {c : Instr} {p w regs accum bar ws ws'} (h : ∀ s, exec c s = .next (issue p w false false regs accum bar (plain ws') s))
    (e : ∀ x, ws' x = ws x) : WritesOnly c p w regs accum bar ws := by
  intro s x hx
  rw [h, issue_plain hx]
  have : ws' = ws := funext e
  rw [this]

end Sys2Proof.Machine
end

