-- ==== Sys2Proof/Laws/State.lean ====
section
/-! SUPPORT. One lemma per field of the state per named update, and what a lookup gives after an update. -/

namespace Sys2Proof.Machine

@[simp] theorem State.arrive_pending (s : State) (t : Tick) : (s.arrive t).pending = s.pending := rfl
@[simp] theorem State.arrive_pins (s : State) (t : Tick) : (s.arrive t).pins = s.pins := rfl
@[simp] theorem State.arrive_boot (s : State) (t : Tick) : (s.arrive t).boot = s.boot := rfl
@[simp] theorem State.arrive_pfail (s : State) (t : Tick) : (s.arrive t).pfail = s.pfail := rfl
@[simp] theorem State.arrive_holdup (s : State) (t : Tick) : (s.arrive t).holdup = s.holdup := rfl
@[simp] theorem State.arrive_firn (s : State) (t : Tick) : (s.arrive t).firn = s.firn := rfl
@[simp] theorem State.arrive_linkA (s : State) (t : Tick) : (s.arrive t).linkA = s.linkA := rfl
@[simp] theorem State.arrive_linkB (s : State) (t : Tick) : (s.arrive t).linkB = s.linkB := rfl
@[simp] theorem State.arrive_ctrls (s : State) (t : Tick) : (s.arrive t).ctrls = s.ctrls := rfl
@[simp] theorem State.arrive_slots (s : State) (t : Tick) : (s.arrive t).slots = s.slots := rfl
@[simp] theorem State.arrive_stillLog (s : State) (t : Tick) : (s.arrive t).stillLog = s.stillLog := rfl
@[simp] theorem State.arrive_asn (s : State) (t : Tick) : (s.arrive t).asn = s.asn := rfl
@[simp] theorem State.arrive_rrAdmin (s : State) (t : Tick) : (s.arrive t).rrAdmin = s.rrAdmin := rfl
@[simp] theorem State.arrive_rrUrgent (s : State) (t : Tick) : (s.arrive t).rrUrgent = s.rrUrgent := rfl
@[simp] theorem State.arrive_rrTenant (s : State) (t : Tick) : (s.arrive t).rrTenant = s.rrTenant := rfl
@[simp] theorem State.arrive_rrTurn (s : State) (t : Tick) : (s.arrive t).rrTurn = s.rrTurn := rfl
@[simp] theorem State.arrive_rrSq (s : State) (t : Tick) : (s.arrive t).rrSq = s.rrSq := rfl
@[simp] theorem State.arrive_staged (s : State) (t : Tick) : (s.arrive t).staged = s.staged := rfl
@[simp] theorem State.arrive_nss (s : State) (t : Tick) : (s.arrive t).nss = s.nss := rfl
@[simp] theorem State.arrive_media (s : State) (t : Tick) : (s.arrive t).media = s.media := rfl
@[simp] theorem State.arrive_compute (s : State) (t : Tick) : (s.arrive t).compute = s.compute := rfl
@[simp] theorem State.arrive_engines (s : State) (t : Tick) : (s.arrive t).engines = s.engines := rfl
@[simp] theorem State.arrive_twill (s : State) (t : Tick) : (s.arrive t).twill = s.twill := rfl
@[simp] theorem State.arrive_units (s : State) (t : Tick) : (s.arrive t).units = s.units := rfl
@[simp] theorem State.arrive_tenants (s : State) (t : Tick) : (s.arrive t).tenants = s.tenants := rfl
@[simp] theorem State.arrive_settings (s : State) (t : Tick) : (s.arrive t).settings = s.settings := rfl
@[simp] theorem State.arrive_eps (s : State) (t : Tick) : (s.arrive t).eps = s.eps := rfl
@[simp] theorem State.arrive_owner (s : State) (t : Tick) : (s.arrive t).owner = s.owner := rfl
@[simp] theorem State.arrive_repair (s : State) (t : Tick) : (s.arrive t).repair = s.repair := rfl
@[simp] theorem State.arrive_power (s : State) (t : Tick) : (s.arrive t).power = s.power := rfl
@[simp] theorem State.arrive_moraine (s : State) (t : Tick) : (s.arrive t).moraine = s.moraine := rfl
@[simp] theorem State.arrive_fw (s : State) (t : Tick) : (s.arrive t).fw = s.fw := rfl
@[simp] theorem State.arrive_tap (s : State) (t : Tick) : (s.arrive t).tap = s.tap := rfl
@[simp] theorem State.arrive_outbox (s : State) (t : Tick) : (s.arrive t).outbox = s.outbox := rfl
@[simp] theorem State.arrive_drawn (s : State) (t : Tick) : (s.arrive t).drawn = s.drawn := rfl
@[simp] theorem State.emit_now (s : State) (o : Output) : (s.emit o).now = s.now := rfl
@[simp] theorem State.emit_pending (s : State) (o : Output) : (s.emit o).pending = s.pending := rfl
@[simp] theorem State.emit_pins (s : State) (o : Output) : (s.emit o).pins = s.pins := rfl
@[simp] theorem State.emit_boot (s : State) (o : Output) : (s.emit o).boot = s.boot := rfl
@[simp] theorem State.emit_pfail (s : State) (o : Output) : (s.emit o).pfail = s.pfail := rfl
@[simp] theorem State.emit_holdup (s : State) (o : Output) : (s.emit o).holdup = s.holdup := rfl
@[simp] theorem State.emit_firn (s : State) (o : Output) : (s.emit o).firn = s.firn := rfl
@[simp] theorem State.emit_linkA (s : State) (o : Output) : (s.emit o).linkA = s.linkA := rfl
@[simp] theorem State.emit_linkB (s : State) (o : Output) : (s.emit o).linkB = s.linkB := rfl
@[simp] theorem State.emit_ctrls (s : State) (o : Output) : (s.emit o).ctrls = s.ctrls := rfl
@[simp] theorem State.emit_slots (s : State) (o : Output) : (s.emit o).slots = s.slots := rfl
@[simp] theorem State.emit_stillLog (s : State) (o : Output) : (s.emit o).stillLog = s.stillLog := rfl
@[simp] theorem State.emit_asn (s : State) (o : Output) : (s.emit o).asn = s.asn := rfl
@[simp] theorem State.emit_rrAdmin (s : State) (o : Output) : (s.emit o).rrAdmin = s.rrAdmin := rfl
@[simp] theorem State.emit_rrUrgent (s : State) (o : Output) : (s.emit o).rrUrgent = s.rrUrgent := rfl
@[simp] theorem State.emit_rrTenant (s : State) (o : Output) : (s.emit o).rrTenant = s.rrTenant := rfl
@[simp] theorem State.emit_rrTurn (s : State) (o : Output) : (s.emit o).rrTurn = s.rrTurn := rfl
@[simp] theorem State.emit_rrSq (s : State) (o : Output) : (s.emit o).rrSq = s.rrSq := rfl
@[simp] theorem State.emit_staged (s : State) (o : Output) : (s.emit o).staged = s.staged := rfl
@[simp] theorem State.emit_nss (s : State) (o : Output) : (s.emit o).nss = s.nss := rfl
@[simp] theorem State.emit_media (s : State) (o : Output) : (s.emit o).media = s.media := rfl
@[simp] theorem State.emit_compute (s : State) (o : Output) : (s.emit o).compute = s.compute := rfl
@[simp] theorem State.emit_engines (s : State) (o : Output) : (s.emit o).engines = s.engines := rfl
@[simp] theorem State.emit_twill (s : State) (o : Output) : (s.emit o).twill = s.twill := rfl
@[simp] theorem State.emit_units (s : State) (o : Output) : (s.emit o).units = s.units := rfl
@[simp] theorem State.emit_tenants (s : State) (o : Output) : (s.emit o).tenants = s.tenants := rfl
@[simp] theorem State.emit_settings (s : State) (o : Output) : (s.emit o).settings = s.settings := rfl
@[simp] theorem State.emit_eps (s : State) (o : Output) : (s.emit o).eps = s.eps := rfl
@[simp] theorem State.emit_owner (s : State) (o : Output) : (s.emit o).owner = s.owner := rfl
@[simp] theorem State.emit_repair (s : State) (o : Output) : (s.emit o).repair = s.repair := rfl
@[simp] theorem State.emit_power (s : State) (o : Output) : (s.emit o).power = s.power := rfl
@[simp] theorem State.emit_rime (s : State) (o : Output) : (s.emit o).rime = s.rime := rfl
@[simp] theorem State.emit_moraine (s : State) (o : Output) : (s.emit o).moraine = s.moraine := rfl
@[simp] theorem State.emit_fw (s : State) (o : Output) : (s.emit o).fw = s.fw := rfl
@[simp] theorem State.emit_tap (s : State) (o : Output) : (s.emit o).tap = s.tap := rfl
@[simp] theorem State.emit_drawn (s : State) (o : Output) : (s.emit o).drawn = s.drawn := rfl
@[simp] theorem State.setCtrl_now (s : State) (f : Fn) (g : Ctrl → Ctrl) : (s.setCtrl f g).now = s.now := rfl
@[simp] theorem State.setCtrl_pending (s : State) (f : Fn) (g : Ctrl → Ctrl) :
    (s.setCtrl f g).pending = s.pending := rfl
@[simp] theorem State.setCtrl_pins (s : State) (f : Fn) (g : Ctrl → Ctrl) : (s.setCtrl f g).pins = s.pins := rfl
@[simp] theorem State.setCtrl_boot (s : State) (f : Fn) (g : Ctrl → Ctrl) : (s.setCtrl f g).boot = s.boot := rfl
@[simp] theorem State.setCtrl_pfail (s : State) (f : Fn) (g : Ctrl → Ctrl) : (s.setCtrl f g).pfail = s.pfail := rfl
@[simp] theorem State.setCtrl_holdup (s : State) (f : Fn) (g : Ctrl → Ctrl) : (s.setCtrl f g).holdup = s.holdup := rfl
@[simp] theorem State.setCtrl_firn (s : State) (f : Fn) (g : Ctrl → Ctrl) : (s.setCtrl f g).firn = s.firn := rfl
@[simp] theorem State.setCtrl_linkA (s : State) (f : Fn) (g : Ctrl → Ctrl) : (s.setCtrl f g).linkA = s.linkA := rfl
@[simp] theorem State.setCtrl_linkB (s : State) (f : Fn) (g : Ctrl → Ctrl) : (s.setCtrl f g).linkB = s.linkB := rfl
@[simp] theorem State.setCtrl_slots (s : State) (f : Fn) (g : Ctrl → Ctrl) : (s.setCtrl f g).slots = s.slots := rfl
@[simp] theorem State.setCtrl_stillLog (s : State) (f : Fn) (g : Ctrl → Ctrl) :
    (s.setCtrl f g).stillLog = s.stillLog := rfl
@[simp] theorem State.setCtrl_asn (s : State) (f : Fn) (g : Ctrl → Ctrl) : (s.setCtrl f g).asn = s.asn := rfl
@[simp] theorem State.setCtrl_rrAdmin (s : State) (f : Fn) (g : Ctrl → Ctrl) :
    (s.setCtrl f g).rrAdmin = s.rrAdmin := rfl
@[simp] theorem State.setCtrl_rrUrgent (s : State) (f : Fn) (g : Ctrl → Ctrl) :
    (s.setCtrl f g).rrUrgent = s.rrUrgent := rfl
@[simp] theorem State.setCtrl_rrTenant (s : State) (f : Fn) (g : Ctrl → Ctrl) :
    (s.setCtrl f g).rrTenant = s.rrTenant := rfl
@[simp] theorem State.setCtrl_rrTurn (s : State) (f : Fn) (g : Ctrl → Ctrl) : (s.setCtrl f g).rrTurn = s.rrTurn := rfl
@[simp] theorem State.setCtrl_rrSq (s : State) (f : Fn) (g : Ctrl → Ctrl) : (s.setCtrl f g).rrSq = s.rrSq := rfl
@[simp] theorem State.setCtrl_staged (s : State) (f : Fn) (g : Ctrl → Ctrl) : (s.setCtrl f g).staged = s.staged := rfl
@[simp] theorem State.setCtrl_nss (s : State) (f : Fn) (g : Ctrl → Ctrl) : (s.setCtrl f g).nss = s.nss := rfl
@[simp] theorem State.setCtrl_media (s : State) (f : Fn) (g : Ctrl → Ctrl) : (s.setCtrl f g).media = s.media := rfl
@[simp] theorem State.setCtrl_compute (s : State) (f : Fn) (g : Ctrl → Ctrl) :
    (s.setCtrl f g).compute = s.compute := rfl
@[simp] theorem State.setCtrl_engines (s : State) (f : Fn) (g : Ctrl → Ctrl) :
    (s.setCtrl f g).engines = s.engines := rfl
@[simp] theorem State.setCtrl_twill (s : State) (f : Fn) (g : Ctrl → Ctrl) : (s.setCtrl f g).twill = s.twill := rfl
@[simp] theorem State.setCtrl_units (s : State) (f : Fn) (g : Ctrl → Ctrl) : (s.setCtrl f g).units = s.units := rfl
@[simp] theorem State.setCtrl_tenants (s : State) (f : Fn) (g : Ctrl → Ctrl) :
    (s.setCtrl f g).tenants = s.tenants := rfl
@[simp] theorem State.setCtrl_settings (s : State) (f : Fn) (g : Ctrl → Ctrl) :
    (s.setCtrl f g).settings = s.settings := rfl
@[simp] theorem State.setCtrl_eps (s : State) (f : Fn) (g : Ctrl → Ctrl) : (s.setCtrl f g).eps = s.eps := rfl
@[simp] theorem State.setCtrl_owner (s : State) (f : Fn) (g : Ctrl → Ctrl) : (s.setCtrl f g).owner = s.owner := rfl
@[simp] theorem State.setCtrl_repair (s : State) (f : Fn) (g : Ctrl → Ctrl) : (s.setCtrl f g).repair = s.repair := rfl
@[simp] theorem State.setCtrl_power (s : State) (f : Fn) (g : Ctrl → Ctrl) : (s.setCtrl f g).power = s.power := rfl
@[simp] theorem State.setCtrl_rime (s : State) (f : Fn) (g : Ctrl → Ctrl) : (s.setCtrl f g).rime = s.rime := rfl
@[simp] theorem State.setCtrl_moraine (s : State) (f : Fn) (g : Ctrl → Ctrl) :
    (s.setCtrl f g).moraine = s.moraine := rfl
@[simp] theorem State.setCtrl_fw (s : State) (f : Fn) (g : Ctrl → Ctrl) : (s.setCtrl f g).fw = s.fw := rfl
@[simp] theorem State.setCtrl_tap (s : State) (f : Fn) (g : Ctrl → Ctrl) : (s.setCtrl f g).tap = s.tap := rfl
@[simp] theorem State.setCtrl_outbox (s : State) (f : Fn) (g : Ctrl → Ctrl) : (s.setCtrl f g).outbox = s.outbox := rfl
@[simp] theorem State.setCtrl_drawn (s : State) (f : Fn) (g : Ctrl → Ctrl) : (s.setCtrl f g).drawn = s.drawn := rfl
@[simp] theorem State.setSlot_now (s : State) (i : Nat) (g : Slot → Slot) : (s.setSlot i g).now = s.now := rfl
@[simp] theorem State.setSlot_pending (s : State) (i : Nat) (g : Slot → Slot) :
    (s.setSlot i g).pending = s.pending := rfl
@[simp] theorem State.setSlot_pins (s : State) (i : Nat) (g : Slot → Slot) : (s.setSlot i g).pins = s.pins := rfl
@[simp] theorem State.setSlot_boot (s : State) (i : Nat) (g : Slot → Slot) : (s.setSlot i g).boot = s.boot := rfl
@[simp] theorem State.setSlot_pfail (s : State) (i : Nat) (g : Slot → Slot) : (s.setSlot i g).pfail = s.pfail := rfl
@[simp] theorem State.setSlot_holdup (s : State) (i : Nat) (g : Slot → Slot) : (s.setSlot i g).holdup = s.holdup := rfl
@[simp] theorem State.setSlot_firn (s : State) (i : Nat) (g : Slot → Slot) : (s.setSlot i g).firn = s.firn := rfl
@[simp] theorem State.setSlot_linkA (s : State) (i : Nat) (g : Slot → Slot) : (s.setSlot i g).linkA = s.linkA := rfl
@[simp] theorem State.setSlot_linkB (s : State) (i : Nat) (g : Slot → Slot) : (s.setSlot i g).linkB = s.linkB := rfl
@[simp] theorem State.setSlot_ctrls (s : State) (i : Nat) (g : Slot → Slot) : (s.setSlot i g).ctrls = s.ctrls := rfl
@[simp] theorem State.setSlot_stillLog (s : State) (i : Nat) (g : Slot → Slot) :
    (s.setSlot i g).stillLog = s.stillLog := rfl
@[simp] theorem State.setSlot_asn (s : State) (i : Nat) (g : Slot → Slot) : (s.setSlot i g).asn = s.asn := rfl
@[simp] theorem State.setSlot_rrAdmin (s : State) (i : Nat) (g : Slot → Slot) :
    (s.setSlot i g).rrAdmin = s.rrAdmin := rfl
@[simp] theorem State.setSlot_rrUrgent (s : State) (i : Nat) (g : Slot → Slot) :
    (s.setSlot i g).rrUrgent = s.rrUrgent := rfl
@[simp] theorem State.setSlot_rrTenant (s : State) (i : Nat) (g : Slot → Slot) :
    (s.setSlot i g).rrTenant = s.rrTenant := rfl
@[simp] theorem State.setSlot_rrTurn (s : State) (i : Nat) (g : Slot → Slot) : (s.setSlot i g).rrTurn = s.rrTurn := rfl
@[simp] theorem State.setSlot_rrSq (s : State) (i : Nat) (g : Slot → Slot) : (s.setSlot i g).rrSq = s.rrSq := rfl
@[simp] theorem State.setSlot_staged (s : State) (i : Nat) (g : Slot → Slot) : (s.setSlot i g).staged = s.staged := rfl
@[simp] theorem State.setSlot_nss (s : State) (i : Nat) (g : Slot → Slot) : (s.setSlot i g).nss = s.nss := rfl
@[simp] theorem State.setSlot_media (s : State) (i : Nat) (g : Slot → Slot) : (s.setSlot i g).media = s.media := rfl
@[simp] theorem State.setSlot_compute (s : State) (i : Nat) (g : Slot → Slot) :
    (s.setSlot i g).compute = s.compute := rfl
@[simp] theorem State.setSlot_engines (s : State) (i : Nat) (g : Slot → Slot) :
    (s.setSlot i g).engines = s.engines := rfl
@[simp] theorem State.setSlot_twill (s : State) (i : Nat) (g : Slot → Slot) : (s.setSlot i g).twill = s.twill := rfl
@[simp] theorem State.setSlot_units (s : State) (i : Nat) (g : Slot → Slot) : (s.setSlot i g).units = s.units := rfl
@[simp] theorem State.setSlot_tenants (s : State) (i : Nat) (g : Slot → Slot) :
    (s.setSlot i g).tenants = s.tenants := rfl
@[simp] theorem State.setSlot_settings (s : State) (i : Nat) (g : Slot → Slot) :
    (s.setSlot i g).settings = s.settings := rfl
@[simp] theorem State.setSlot_eps (s : State) (i : Nat) (g : Slot → Slot) : (s.setSlot i g).eps = s.eps := rfl
@[simp] theorem State.setSlot_owner (s : State) (i : Nat) (g : Slot → Slot) : (s.setSlot i g).owner = s.owner := rfl
@[simp] theorem State.setSlot_repair (s : State) (i : Nat) (g : Slot → Slot) : (s.setSlot i g).repair = s.repair := rfl
@[simp] theorem State.setSlot_power (s : State) (i : Nat) (g : Slot → Slot) : (s.setSlot i g).power = s.power := rfl
@[simp] theorem State.setSlot_rime (s : State) (i : Nat) (g : Slot → Slot) : (s.setSlot i g).rime = s.rime := rfl
@[simp] theorem State.setSlot_moraine (s : State) (i : Nat) (g : Slot → Slot) :
    (s.setSlot i g).moraine = s.moraine := rfl
@[simp] theorem State.setSlot_fw (s : State) (i : Nat) (g : Slot → Slot) : (s.setSlot i g).fw = s.fw := rfl
@[simp] theorem State.setSlot_tap (s : State) (i : Nat) (g : Slot → Slot) : (s.setSlot i g).tap = s.tap := rfl
@[simp] theorem State.setSlot_outbox (s : State) (i : Nat) (g : Slot → Slot) : (s.setSlot i g).outbox = s.outbox := rfl
@[simp] theorem State.setSlot_drawn (s : State) (i : Nat) (g : Slot → Slot) : (s.setSlot i g).drawn = s.drawn := rfl
@[simp] theorem State.dropSlot_now (s : State) (i : Nat) : (s.dropSlot i).now = s.now := rfl
@[simp] theorem State.dropSlot_pending (s : State) (i : Nat) : (s.dropSlot i).pending = s.pending := rfl
@[simp] theorem State.dropSlot_pins (s : State) (i : Nat) : (s.dropSlot i).pins = s.pins := rfl
@[simp] theorem State.dropSlot_boot (s : State) (i : Nat) : (s.dropSlot i).boot = s.boot := rfl
@[simp] theorem State.dropSlot_pfail (s : State) (i : Nat) : (s.dropSlot i).pfail = s.pfail := rfl
@[simp] theorem State.dropSlot_holdup (s : State) (i : Nat) : (s.dropSlot i).holdup = s.holdup := rfl
@[simp] theorem State.dropSlot_firn (s : State) (i : Nat) : (s.dropSlot i).firn = s.firn := rfl
@[simp] theorem State.dropSlot_linkA (s : State) (i : Nat) : (s.dropSlot i).linkA = s.linkA := rfl
@[simp] theorem State.dropSlot_linkB (s : State) (i : Nat) : (s.dropSlot i).linkB = s.linkB := rfl
@[simp] theorem State.dropSlot_ctrls (s : State) (i : Nat) : (s.dropSlot i).ctrls = s.ctrls := rfl
@[simp] theorem State.dropSlot_stillLog (s : State) (i : Nat) : (s.dropSlot i).stillLog = s.stillLog := rfl
@[simp] theorem State.dropSlot_asn (s : State) (i : Nat) : (s.dropSlot i).asn = s.asn := rfl
@[simp] theorem State.dropSlot_rrAdmin (s : State) (i : Nat) : (s.dropSlot i).rrAdmin = s.rrAdmin := rfl
@[simp] theorem State.dropSlot_rrUrgent (s : State) (i : Nat) : (s.dropSlot i).rrUrgent = s.rrUrgent := rfl
@[simp] theorem State.dropSlot_rrTenant (s : State) (i : Nat) : (s.dropSlot i).rrTenant = s.rrTenant := rfl
@[simp] theorem State.dropSlot_rrTurn (s : State) (i : Nat) : (s.dropSlot i).rrTurn = s.rrTurn := rfl
@[simp] theorem State.dropSlot_rrSq (s : State) (i : Nat) : (s.dropSlot i).rrSq = s.rrSq := rfl
@[simp] theorem State.dropSlot_staged (s : State) (i : Nat) : (s.dropSlot i).staged = s.staged := rfl
@[simp] theorem State.dropSlot_nss (s : State) (i : Nat) : (s.dropSlot i).nss = s.nss := rfl
@[simp] theorem State.dropSlot_media (s : State) (i : Nat) : (s.dropSlot i).media = s.media := rfl
@[simp] theorem State.dropSlot_compute (s : State) (i : Nat) : (s.dropSlot i).compute = s.compute := rfl
@[simp] theorem State.dropSlot_engines (s : State) (i : Nat) : (s.dropSlot i).engines = s.engines := rfl
@[simp] theorem State.dropSlot_twill (s : State) (i : Nat) : (s.dropSlot i).twill = s.twill := rfl
@[simp] theorem State.dropSlot_units (s : State) (i : Nat) : (s.dropSlot i).units = s.units := rfl
@[simp] theorem State.dropSlot_tenants (s : State) (i : Nat) : (s.dropSlot i).tenants = s.tenants := rfl
@[simp] theorem State.dropSlot_settings (s : State) (i : Nat) : (s.dropSlot i).settings = s.settings := rfl
@[simp] theorem State.dropSlot_eps (s : State) (i : Nat) : (s.dropSlot i).eps = s.eps := rfl
@[simp] theorem State.dropSlot_owner (s : State) (i : Nat) : (s.dropSlot i).owner = s.owner := rfl
@[simp] theorem State.dropSlot_repair (s : State) (i : Nat) : (s.dropSlot i).repair = s.repair := rfl
@[simp] theorem State.dropSlot_power (s : State) (i : Nat) : (s.dropSlot i).power = s.power := rfl
@[simp] theorem State.dropSlot_rime (s : State) (i : Nat) : (s.dropSlot i).rime = s.rime := rfl
@[simp] theorem State.dropSlot_moraine (s : State) (i : Nat) : (s.dropSlot i).moraine = s.moraine := rfl
@[simp] theorem State.dropSlot_fw (s : State) (i : Nat) : (s.dropSlot i).fw = s.fw := rfl
@[simp] theorem State.dropSlot_tap (s : State) (i : Nat) : (s.dropSlot i).tap = s.tap := rfl
@[simp] theorem State.dropSlot_outbox (s : State) (i : Nat) : (s.dropSlot i).outbox = s.outbox := rfl
@[simp] theorem State.dropSlot_drawn (s : State) (i : Nat) : (s.dropSlot i).drawn = s.drawn := rfl
@[simp] theorem State.setNs_now (s : State) (n : Nat) (g : Ns → Ns) : (s.setNs n g).now = s.now := rfl
@[simp] theorem State.setNs_pending (s : State) (n : Nat) (g : Ns → Ns) : (s.setNs n g).pending = s.pending := rfl
@[simp] theorem State.setNs_pins (s : State) (n : Nat) (g : Ns → Ns) : (s.setNs n g).pins = s.pins := rfl
@[simp] theorem State.setNs_boot (s : State) (n : Nat) (g : Ns → Ns) : (s.setNs n g).boot = s.boot := rfl
@[simp] theorem State.setNs_pfail (s : State) (n : Nat) (g : Ns → Ns) : (s.setNs n g).pfail = s.pfail := rfl
@[simp] theorem State.setNs_holdup (s : State) (n : Nat) (g : Ns → Ns) : (s.setNs n g).holdup = s.holdup := rfl
@[simp] theorem State.setNs_firn (s : State) (n : Nat) (g : Ns → Ns) : (s.setNs n g).firn = s.firn := rfl
@[simp] theorem State.setNs_linkA (s : State) (n : Nat) (g : Ns → Ns) : (s.setNs n g).linkA = s.linkA := rfl
@[simp] theorem State.setNs_linkB (s : State) (n : Nat) (g : Ns → Ns) : (s.setNs n g).linkB = s.linkB := rfl
@[simp] theorem State.setNs_ctrls (s : State) (n : Nat) (g : Ns → Ns) : (s.setNs n g).ctrls = s.ctrls := rfl
@[simp] theorem State.setNs_slots (s : State) (n : Nat) (g : Ns → Ns) : (s.setNs n g).slots = s.slots := rfl
@[simp] theorem State.setNs_stillLog (s : State) (n : Nat) (g : Ns → Ns) : (s.setNs n g).stillLog = s.stillLog := rfl
@[simp] theorem State.setNs_asn (s : State) (n : Nat) (g : Ns → Ns) : (s.setNs n g).asn = s.asn := rfl
@[simp] theorem State.setNs_rrAdmin (s : State) (n : Nat) (g : Ns → Ns) : (s.setNs n g).rrAdmin = s.rrAdmin := rfl
@[simp] theorem State.setNs_rrUrgent (s : State) (n : Nat) (g : Ns → Ns) : (s.setNs n g).rrUrgent = s.rrUrgent := rfl
@[simp] theorem State.setNs_rrTenant (s : State) (n : Nat) (g : Ns → Ns) : (s.setNs n g).rrTenant = s.rrTenant := rfl
@[simp] theorem State.setNs_rrTurn (s : State) (n : Nat) (g : Ns → Ns) : (s.setNs n g).rrTurn = s.rrTurn := rfl
@[simp] theorem State.setNs_rrSq (s : State) (n : Nat) (g : Ns → Ns) : (s.setNs n g).rrSq = s.rrSq := rfl
@[simp] theorem State.setNs_staged (s : State) (n : Nat) (g : Ns → Ns) : (s.setNs n g).staged = s.staged := rfl
@[simp] theorem State.setNs_media (s : State) (n : Nat) (g : Ns → Ns) : (s.setNs n g).media = s.media := rfl
@[simp] theorem State.setNs_compute (s : State) (n : Nat) (g : Ns → Ns) : (s.setNs n g).compute = s.compute := rfl
@[simp] theorem State.setNs_engines (s : State) (n : Nat) (g : Ns → Ns) : (s.setNs n g).engines = s.engines := rfl
@[simp] theorem State.setNs_twill (s : State) (n : Nat) (g : Ns → Ns) : (s.setNs n g).twill = s.twill := rfl
@[simp] theorem State.setNs_units (s : State) (n : Nat) (g : Ns → Ns) : (s.setNs n g).units = s.units := rfl
@[simp] theorem State.setNs_tenants (s : State) (n : Nat) (g : Ns → Ns) : (s.setNs n g).tenants = s.tenants := rfl
@[simp] theorem State.setNs_settings (s : State) (n : Nat) (g : Ns → Ns) : (s.setNs n g).settings = s.settings := rfl
@[simp] theorem State.setNs_eps (s : State) (n : Nat) (g : Ns → Ns) : (s.setNs n g).eps = s.eps := rfl
@[simp] theorem State.setNs_owner (s : State) (n : Nat) (g : Ns → Ns) : (s.setNs n g).owner = s.owner := rfl
@[simp] theorem State.setNs_repair (s : State) (n : Nat) (g : Ns → Ns) : (s.setNs n g).repair = s.repair := rfl
@[simp] theorem State.setNs_power (s : State) (n : Nat) (g : Ns → Ns) : (s.setNs n g).power = s.power := rfl
@[simp] theorem State.setNs_rime (s : State) (n : Nat) (g : Ns → Ns) : (s.setNs n g).rime = s.rime := rfl
@[simp] theorem State.setNs_moraine (s : State) (n : Nat) (g : Ns → Ns) : (s.setNs n g).moraine = s.moraine := rfl
@[simp] theorem State.setNs_fw (s : State) (n : Nat) (g : Ns → Ns) : (s.setNs n g).fw = s.fw := rfl
@[simp] theorem State.setNs_tap (s : State) (n : Nat) (g : Ns → Ns) : (s.setNs n g).tap = s.tap := rfl
@[simp] theorem State.setNs_outbox (s : State) (n : Nat) (g : Ns → Ns) : (s.setNs n g).outbox = s.outbox := rfl
@[simp] theorem State.setNs_drawn (s : State) (n : Nat) (g : Ns → Ns) : (s.setNs n g).drawn = s.drawn := rfl
@[simp] theorem State.setTenant_now (s : State) (t : Nat) (g : Tenant → Tenant) : (s.setTenant t g).now = s.now := rfl
@[simp] theorem State.setTenant_pending (s : State) (t : Nat) (g : Tenant → Tenant) :
    (s.setTenant t g).pending = s.pending := rfl
@[simp] theorem State.setTenant_pins (s : State) (t : Nat) (g : Tenant → Tenant) :
    (s.setTenant t g).pins = s.pins := rfl
@[simp] theorem State.setTenant_boot (s : State) (t : Nat) (g : Tenant → Tenant) :
    (s.setTenant t g).boot = s.boot := rfl
@[simp] theorem State.setTenant_pfail (s : State) (t : Nat) (g : Tenant → Tenant) :
    (s.setTenant t g).pfail = s.pfail := rfl
@[simp] theorem State.setTenant_holdup (s : State) (t : Nat) (g : Tenant → Tenant) :
    (s.setTenant t g).holdup = s.holdup := rfl
@[simp] theorem State.setTenant_firn (s : State) (t : Nat) (g : Tenant → Tenant) :
    (s.setTenant t g).firn = s.firn := rfl
@[simp] theorem State.setTenant_linkA (s : State) (t : Nat) (g : Tenant → Tenant) :
    (s.setTenant t g).linkA = s.linkA := rfl
@[simp] theorem State.setTenant_linkB (s : State) (t : Nat) (g : Tenant → Tenant) :
    (s.setTenant t g).linkB = s.linkB := rfl
@[simp] theorem State.setTenant_ctrls (s : State) (t : Nat) (g : Tenant → Tenant) :
    (s.setTenant t g).ctrls = s.ctrls := rfl
@[simp] theorem State.setTenant_slots (s : State) (t : Nat) (g : Tenant → Tenant) :
    (s.setTenant t g).slots = s.slots := rfl
@[simp] theorem State.setTenant_stillLog (s : State) (t : Nat) (g : Tenant → Tenant) :
    (s.setTenant t g).stillLog = s.stillLog := rfl
@[simp] theorem State.setTenant_asn (s : State) (t : Nat) (g : Tenant → Tenant) : (s.setTenant t g).asn = s.asn := rfl
@[simp] theorem State.setTenant_rrAdmin (s : State) (t : Nat) (g : Tenant → Tenant) :
    (s.setTenant t g).rrAdmin = s.rrAdmin := rfl
@[simp] theorem State.setTenant_rrUrgent (s : State) (t : Nat) (g : Tenant → Tenant) :
    (s.setTenant t g).rrUrgent = s.rrUrgent := rfl
@[simp] theorem State.setTenant_rrTenant (s : State) (t : Nat) (g : Tenant → Tenant) :
    (s.setTenant t g).rrTenant = s.rrTenant := rfl
@[simp] theorem State.setTenant_rrTurn (s : State) (t : Nat) (g : Tenant → Tenant) :
    (s.setTenant t g).rrTurn = s.rrTurn := rfl
@[simp] theorem State.setTenant_rrSq (s : State) (t : Nat) (g : Tenant → Tenant) :
    (s.setTenant t g).rrSq = s.rrSq := rfl
@[simp] theorem State.setTenant_staged (s : State) (t : Nat) (g : Tenant → Tenant) :
    (s.setTenant t g).staged = s.staged := rfl
@[simp] theorem State.setTenant_nss (s : State) (t : Nat) (g : Tenant → Tenant) : (s.setTenant t g).nss = s.nss := rfl
@[simp] theorem State.setTenant_media (s : State) (t : Nat) (g : Tenant → Tenant) :
    (s.setTenant t g).media = s.media := rfl
@[simp] theorem State.setTenant_compute (s : State) (t : Nat) (g : Tenant → Tenant) :
    (s.setTenant t g).compute = s.compute := rfl
@[simp] theorem State.setTenant_engines (s : State) (t : Nat) (g : Tenant → Tenant) :
    (s.setTenant t g).engines = s.engines := rfl
@[simp] theorem State.setTenant_twill (s : State) (t : Nat) (g : Tenant → Tenant) :
    (s.setTenant t g).twill = s.twill := rfl
@[simp] theorem State.setTenant_units (s : State) (t : Nat) (g : Tenant → Tenant) :
    (s.setTenant t g).units = s.units := rfl
@[simp] theorem State.setTenant_settings (s : State) (t : Nat) (g : Tenant → Tenant) :
    (s.setTenant t g).settings = s.settings := rfl
@[simp] theorem State.setTenant_eps (s : State) (t : Nat) (g : Tenant → Tenant) : (s.setTenant t g).eps = s.eps := rfl
@[simp] theorem State.setTenant_owner (s : State) (t : Nat) (g : Tenant → Tenant) :
    (s.setTenant t g).owner = s.owner := rfl
@[simp] theorem State.setTenant_repair (s : State) (t : Nat) (g : Tenant → Tenant) :
    (s.setTenant t g).repair = s.repair := rfl
@[simp] theorem State.setTenant_power (s : State) (t : Nat) (g : Tenant → Tenant) :
    (s.setTenant t g).power = s.power := rfl
@[simp] theorem State.setTenant_rime (s : State) (t : Nat) (g : Tenant → Tenant) :
    (s.setTenant t g).rime = s.rime := rfl
@[simp] theorem State.setTenant_moraine (s : State) (t : Nat) (g : Tenant → Tenant) :
    (s.setTenant t g).moraine = s.moraine := rfl
@[simp] theorem State.setTenant_fw (s : State) (t : Nat) (g : Tenant → Tenant) : (s.setTenant t g).fw = s.fw := rfl
@[simp] theorem State.setTenant_tap (s : State) (t : Nat) (g : Tenant → Tenant) : (s.setTenant t g).tap = s.tap := rfl
@[simp] theorem State.setTenant_outbox (s : State) (t : Nat) (g : Tenant → Tenant) :
    (s.setTenant t g).outbox = s.outbox := rfl
@[simp] theorem State.setTenant_drawn (s : State) (t : Nat) (g : Tenant → Tenant) :
    (s.setTenant t g).drawn = s.drawn := rfl
@[simp] theorem State.setRun_now (s : State) (a : Nat) (g : GRun → GRun) : (s.setRun a g).now = s.now := rfl
@[simp] theorem State.setRun_pending (s : State) (a : Nat) (g : GRun → GRun) : (s.setRun a g).pending = s.pending := rfl
@[simp] theorem State.setRun_pins (s : State) (a : Nat) (g : GRun → GRun) : (s.setRun a g).pins = s.pins := rfl
@[simp] theorem State.setRun_boot (s : State) (a : Nat) (g : GRun → GRun) : (s.setRun a g).boot = s.boot := rfl
@[simp] theorem State.setRun_pfail (s : State) (a : Nat) (g : GRun → GRun) : (s.setRun a g).pfail = s.pfail := rfl
@[simp] theorem State.setRun_holdup (s : State) (a : Nat) (g : GRun → GRun) : (s.setRun a g).holdup = s.holdup := rfl
@[simp] theorem State.setRun_firn (s : State) (a : Nat) (g : GRun → GRun) : (s.setRun a g).firn = s.firn := rfl
@[simp] theorem State.setRun_linkA (s : State) (a : Nat) (g : GRun → GRun) : (s.setRun a g).linkA = s.linkA := rfl
@[simp] theorem State.setRun_linkB (s : State) (a : Nat) (g : GRun → GRun) : (s.setRun a g).linkB = s.linkB := rfl
@[simp] theorem State.setRun_ctrls (s : State) (a : Nat) (g : GRun → GRun) : (s.setRun a g).ctrls = s.ctrls := rfl
@[simp] theorem State.setRun_slots (s : State) (a : Nat) (g : GRun → GRun) : (s.setRun a g).slots = s.slots := rfl
@[simp] theorem State.setRun_stillLog (s : State) (a : Nat) (g : GRun → GRun) :
    (s.setRun a g).stillLog = s.stillLog := rfl
@[simp] theorem State.setRun_asn (s : State) (a : Nat) (g : GRun → GRun) : (s.setRun a g).asn = s.asn := rfl
@[simp] theorem State.setRun_rrAdmin (s : State) (a : Nat) (g : GRun → GRun) : (s.setRun a g).rrAdmin = s.rrAdmin := rfl
@[simp] theorem State.setRun_rrUrgent (s : State) (a : Nat) (g : GRun → GRun) :
    (s.setRun a g).rrUrgent = s.rrUrgent := rfl
@[simp] theorem State.setRun_rrTenant (s : State) (a : Nat) (g : GRun → GRun) :
    (s.setRun a g).rrTenant = s.rrTenant := rfl
@[simp] theorem State.setRun_rrTurn (s : State) (a : Nat) (g : GRun → GRun) : (s.setRun a g).rrTurn = s.rrTurn := rfl
@[simp] theorem State.setRun_rrSq (s : State) (a : Nat) (g : GRun → GRun) : (s.setRun a g).rrSq = s.rrSq := rfl
@[simp] theorem State.setRun_staged (s : State) (a : Nat) (g : GRun → GRun) : (s.setRun a g).staged = s.staged := rfl
@[simp] theorem State.setRun_nss (s : State) (a : Nat) (g : GRun → GRun) : (s.setRun a g).nss = s.nss := rfl
@[simp] theorem State.setRun_media (s : State) (a : Nat) (g : GRun → GRun) : (s.setRun a g).media = s.media := rfl
@[simp] theorem State.setRun_engines (s : State) (a : Nat) (g : GRun → GRun) : (s.setRun a g).engines = s.engines := rfl
@[simp] theorem State.setRun_twill (s : State) (a : Nat) (g : GRun → GRun) : (s.setRun a g).twill = s.twill := rfl
@[simp] theorem State.setRun_units (s : State) (a : Nat) (g : GRun → GRun) : (s.setRun a g).units = s.units := rfl
@[simp] theorem State.setRun_tenants (s : State) (a : Nat) (g : GRun → GRun) : (s.setRun a g).tenants = s.tenants := rfl
@[simp] theorem State.setRun_settings (s : State) (a : Nat) (g : GRun → GRun) :
    (s.setRun a g).settings = s.settings := rfl
@[simp] theorem State.setRun_eps (s : State) (a : Nat) (g : GRun → GRun) : (s.setRun a g).eps = s.eps := rfl
@[simp] theorem State.setRun_owner (s : State) (a : Nat) (g : GRun → GRun) : (s.setRun a g).owner = s.owner := rfl
@[simp] theorem State.setRun_repair (s : State) (a : Nat) (g : GRun → GRun) : (s.setRun a g).repair = s.repair := rfl
@[simp] theorem State.setRun_power (s : State) (a : Nat) (g : GRun → GRun) : (s.setRun a g).power = s.power := rfl
@[simp] theorem State.setRun_rime (s : State) (a : Nat) (g : GRun → GRun) : (s.setRun a g).rime = s.rime := rfl
@[simp] theorem State.setRun_moraine (s : State) (a : Nat) (g : GRun → GRun) : (s.setRun a g).moraine = s.moraine := rfl
@[simp] theorem State.setRun_fw (s : State) (a : Nat) (g : GRun → GRun) : (s.setRun a g).fw = s.fw := rfl
@[simp] theorem State.setRun_tap (s : State) (a : Nat) (g : GRun → GRun) : (s.setRun a g).tap = s.tap := rfl
@[simp] theorem State.setRun_outbox (s : State) (a : Nat) (g : GRun → GRun) : (s.setRun a g).outbox = s.outbox := rfl
@[simp] theorem State.setRun_drawn (s : State) (a : Nat) (g : GRun → GRun) : (s.setRun a g).drawn = s.drawn := rfl
@[simp] theorem State.setEngine_now (s : State) (p : Nat) (g : Engine → Engine) : (s.setEngine p g).now = s.now := rfl
@[simp] theorem State.setEngine_pending (s : State) (p : Nat) (g : Engine → Engine) :
    (s.setEngine p g).pending = s.pending := rfl
@[simp] theorem State.setEngine_pins (s : State) (p : Nat) (g : Engine → Engine) :
    (s.setEngine p g).pins = s.pins := rfl
@[simp] theorem State.setEngine_boot (s : State) (p : Nat) (g : Engine → Engine) :
    (s.setEngine p g).boot = s.boot := rfl
@[simp] theorem State.setEngine_pfail (s : State) (p : Nat) (g : Engine → Engine) :
    (s.setEngine p g).pfail = s.pfail := rfl
@[simp] theorem State.setEngine_holdup (s : State) (p : Nat) (g : Engine → Engine) :
    (s.setEngine p g).holdup = s.holdup := rfl
@[simp] theorem State.setEngine_firn (s : State) (p : Nat) (g : Engine → Engine) :
    (s.setEngine p g).firn = s.firn := rfl
@[simp] theorem State.setEngine_linkA (s : State) (p : Nat) (g : Engine → Engine) :
    (s.setEngine p g).linkA = s.linkA := rfl
@[simp] theorem State.setEngine_linkB (s : State) (p : Nat) (g : Engine → Engine) :
    (s.setEngine p g).linkB = s.linkB := rfl
@[simp] theorem State.setEngine_ctrls (s : State) (p : Nat) (g : Engine → Engine) :
    (s.setEngine p g).ctrls = s.ctrls := rfl
@[simp] theorem State.setEngine_slots (s : State) (p : Nat) (g : Engine → Engine) :
    (s.setEngine p g).slots = s.slots := rfl
@[simp] theorem State.setEngine_stillLog (s : State) (p : Nat) (g : Engine → Engine) :
    (s.setEngine p g).stillLog = s.stillLog := rfl
@[simp] theorem State.setEngine_asn (s : State) (p : Nat) (g : Engine → Engine) : (s.setEngine p g).asn = s.asn := rfl
@[simp] theorem State.setEngine_rrAdmin (s : State) (p : Nat) (g : Engine → Engine) :
    (s.setEngine p g).rrAdmin = s.rrAdmin := rfl
@[simp] theorem State.setEngine_rrUrgent (s : State) (p : Nat) (g : Engine → Engine) :
    (s.setEngine p g).rrUrgent = s.rrUrgent := rfl
@[simp] theorem State.setEngine_rrTenant (s : State) (p : Nat) (g : Engine → Engine) :
    (s.setEngine p g).rrTenant = s.rrTenant := rfl
@[simp] theorem State.setEngine_rrTurn (s : State) (p : Nat) (g : Engine → Engine) :
    (s.setEngine p g).rrTurn = s.rrTurn := rfl
@[simp] theorem State.setEngine_rrSq (s : State) (p : Nat) (g : Engine → Engine) :
    (s.setEngine p g).rrSq = s.rrSq := rfl
@[simp] theorem State.setEngine_staged (s : State) (p : Nat) (g : Engine → Engine) :
    (s.setEngine p g).staged = s.staged := rfl
@[simp] theorem State.setEngine_nss (s : State) (p : Nat) (g : Engine → Engine) : (s.setEngine p g).nss = s.nss := rfl
@[simp] theorem State.setEngine_media (s : State) (p : Nat) (g : Engine → Engine) :
    (s.setEngine p g).media = s.media := rfl
@[simp] theorem State.setEngine_compute (s : State) (p : Nat) (g : Engine → Engine) :
    (s.setEngine p g).compute = s.compute := rfl
@[simp] theorem State.setEngine_twill (s : State) (p : Nat) (g : Engine → Engine) :
    (s.setEngine p g).twill = s.twill := rfl
@[simp] theorem State.setEngine_units (s : State) (p : Nat) (g : Engine → Engine) :
    (s.setEngine p g).units = s.units := rfl
@[simp] theorem State.setEngine_tenants (s : State) (p : Nat) (g : Engine → Engine) :
    (s.setEngine p g).tenants = s.tenants := rfl
@[simp] theorem State.setEngine_settings (s : State) (p : Nat) (g : Engine → Engine) :
    (s.setEngine p g).settings = s.settings := rfl
@[simp] theorem State.setEngine_eps (s : State) (p : Nat) (g : Engine → Engine) : (s.setEngine p g).eps = s.eps := rfl
@[simp] theorem State.setEngine_owner (s : State) (p : Nat) (g : Engine → Engine) :
    (s.setEngine p g).owner = s.owner := rfl
@[simp] theorem State.setEngine_repair (s : State) (p : Nat) (g : Engine → Engine) :
    (s.setEngine p g).repair = s.repair := rfl
@[simp] theorem State.setEngine_power (s : State) (p : Nat) (g : Engine → Engine) :
    (s.setEngine p g).power = s.power := rfl
@[simp] theorem State.setEngine_rime (s : State) (p : Nat) (g : Engine → Engine) :
    (s.setEngine p g).rime = s.rime := rfl
@[simp] theorem State.setEngine_moraine (s : State) (p : Nat) (g : Engine → Engine) :
    (s.setEngine p g).moraine = s.moraine := rfl
@[simp] theorem State.setEngine_fw (s : State) (p : Nat) (g : Engine → Engine) : (s.setEngine p g).fw = s.fw := rfl
@[simp] theorem State.setEngine_tap (s : State) (p : Nat) (g : Engine → Engine) : (s.setEngine p g).tap = s.tap := rfl
@[simp] theorem State.setEngine_outbox (s : State) (p : Nat) (g : Engine → Engine) :
    (s.setEngine p g).outbox = s.outbox := rfl
@[simp] theorem State.setEngine_drawn (s : State) (p : Nat) (g : Engine → Engine) :
    (s.setEngine p g).drawn = s.drawn := rfl
@[simp] theorem State.setLink_now (s : State) (p : Port) (g : Link → Link) : (s.setLink p g).now = s.now := by
  cases p <;> rfl
@[simp] theorem State.setLink_pending (s : State) (p : Port) (g : Link → Link) : (s.setLink p g).pending = s.pending := by
  cases p <;> rfl
@[simp] theorem State.setLink_pins (s : State) (p : Port) (g : Link → Link) : (s.setLink p g).pins = s.pins := by
  cases p <;> rfl
@[simp] theorem State.setLink_boot (s : State) (p : Port) (g : Link → Link) : (s.setLink p g).boot = s.boot := by
  cases p <;> rfl
@[simp] theorem State.setLink_pfail (s : State) (p : Port) (g : Link → Link) : (s.setLink p g).pfail = s.pfail := by
  cases p <;> rfl
@[simp] theorem State.setLink_holdup (s : State) (p : Port) (g : Link → Link) : (s.setLink p g).holdup = s.holdup := by
  cases p <;> rfl
@[simp] theorem State.setLink_firn (s : State) (p : Port) (g : Link → Link) : (s.setLink p g).firn = s.firn := by
  cases p <;> rfl
@[simp] theorem State.setLink_ctrls (s : State) (p : Port) (g : Link → Link) : (s.setLink p g).ctrls = s.ctrls := by
  cases p <;> rfl
@[simp] theorem State.setLink_slots (s : State) (p : Port) (g : Link → Link) : (s.setLink p g).slots = s.slots := by
  cases p <;> rfl
@[simp] theorem State.setLink_stillLog (s : State) (p : Port) (g : Link → Link) : (s.setLink p g).stillLog = s.stillLog := by
  cases p <;> rfl
@[simp] theorem State.setLink_asn (s : State) (p : Port) (g : Link → Link) : (s.setLink p g).asn = s.asn := by
  cases p <;> rfl
@[simp] theorem State.setLink_rrAdmin (s : State) (p : Port) (g : Link → Link) : (s.setLink p g).rrAdmin = s.rrAdmin := by
  cases p <;> rfl
@[simp] theorem State.setLink_rrUrgent (s : State) (p : Port) (g : Link → Link) : (s.setLink p g).rrUrgent = s.rrUrgent := by
  cases p <;> rfl
@[simp] theorem State.setLink_rrTenant (s : State) (p : Port) (g : Link → Link) : (s.setLink p g).rrTenant = s.rrTenant := by
  cases p <;> rfl
@[simp] theorem State.setLink_rrTurn (s : State) (p : Port) (g : Link → Link) : (s.setLink p g).rrTurn = s.rrTurn := by
  cases p <;> rfl
@[simp] theorem State.setLink_rrSq (s : State) (p : Port) (g : Link → Link) : (s.setLink p g).rrSq = s.rrSq := by
  cases p <;> rfl
@[simp] theorem State.setLink_staged (s : State) (p : Port) (g : Link → Link) : (s.setLink p g).staged = s.staged := by
  cases p <;> rfl
@[simp] theorem State.setLink_nss (s : State) (p : Port) (g : Link → Link) : (s.setLink p g).nss = s.nss := by
  cases p <;> rfl
@[simp] theorem State.setLink_media (s : State) (p : Port) (g : Link → Link) : (s.setLink p g).media = s.media := by
  cases p <;> rfl
@[simp] theorem State.setLink_compute (s : State) (p : Port) (g : Link → Link) : (s.setLink p g).compute = s.compute := by
  cases p <;> rfl
@[simp] theorem State.setLink_engines (s : State) (p : Port) (g : Link → Link) : (s.setLink p g).engines = s.engines := by
  cases p <;> rfl
@[simp] theorem State.setLink_twill (s : State) (p : Port) (g : Link → Link) : (s.setLink p g).twill = s.twill := by
  cases p <;> rfl
@[simp] theorem State.setLink_units (s : State) (p : Port) (g : Link → Link) : (s.setLink p g).units = s.units := by
  cases p <;> rfl
@[simp] theorem State.setLink_tenants (s : State) (p : Port) (g : Link → Link) : (s.setLink p g).tenants = s.tenants := by
  cases p <;> rfl
@[simp] theorem State.setLink_settings (s : State) (p : Port) (g : Link → Link) : (s.setLink p g).settings = s.settings := by
  cases p <;> rfl
@[simp] theorem State.setLink_eps (s : State) (p : Port) (g : Link → Link) : (s.setLink p g).eps = s.eps := by
  cases p <;> rfl
@[simp] theorem State.setLink_owner (s : State) (p : Port) (g : Link → Link) : (s.setLink p g).owner = s.owner := by
  cases p <;> rfl
@[simp] theorem State.setLink_repair (s : State) (p : Port) (g : Link → Link) : (s.setLink p g).repair = s.repair := by
  cases p <;> rfl
@[simp] theorem State.setLink_power (s : State) (p : Port) (g : Link → Link) : (s.setLink p g).power = s.power := by
  cases p <;> rfl
@[simp] theorem State.setLink_rime (s : State) (p : Port) (g : Link → Link) : (s.setLink p g).rime = s.rime := by
  cases p <;> rfl
@[simp] theorem State.setLink_moraine (s : State) (p : Port) (g : Link → Link) : (s.setLink p g).moraine = s.moraine := by
  cases p <;> rfl
@[simp] theorem State.setLink_fw (s : State) (p : Port) (g : Link → Link) : (s.setLink p g).fw = s.fw := by
  cases p <;> rfl
@[simp] theorem State.setLink_tap (s : State) (p : Port) (g : Link → Link) : (s.setLink p g).tap = s.tap := by
  cases p <;> rfl
@[simp] theorem State.setLink_outbox (s : State) (p : Port) (g : Link → Link) : (s.setLink p g).outbox = s.outbox := by
  cases p <;> rfl
@[simp] theorem State.setLink_drawn (s : State) (p : Port) (g : Link → Link) : (s.setLink p g).drawn = s.drawn := by
  cases p <;> rfl
@[simp] theorem State.setDie_now (s : State) (d : DieId) (g : Die → Die) : (s.setDie d g).now = s.now := rfl
@[simp] theorem State.setDie_pending (s : State) (d : DieId) (g : Die → Die) : (s.setDie d g).pending = s.pending := rfl
@[simp] theorem State.setDie_pins (s : State) (d : DieId) (g : Die → Die) : (s.setDie d g).pins = s.pins := rfl
@[simp] theorem State.setDie_boot (s : State) (d : DieId) (g : Die → Die) : (s.setDie d g).boot = s.boot := rfl
@[simp] theorem State.setDie_pfail (s : State) (d : DieId) (g : Die → Die) : (s.setDie d g).pfail = s.pfail := rfl
@[simp] theorem State.setDie_holdup (s : State) (d : DieId) (g : Die → Die) : (s.setDie d g).holdup = s.holdup := rfl
@[simp] theorem State.setDie_firn (s : State) (d : DieId) (g : Die → Die) : (s.setDie d g).firn = s.firn := rfl
@[simp] theorem State.setDie_linkA (s : State) (d : DieId) (g : Die → Die) : (s.setDie d g).linkA = s.linkA := rfl
@[simp] theorem State.setDie_linkB (s : State) (d : DieId) (g : Die → Die) : (s.setDie d g).linkB = s.linkB := rfl
@[simp] theorem State.setDie_ctrls (s : State) (d : DieId) (g : Die → Die) : (s.setDie d g).ctrls = s.ctrls := rfl
@[simp] theorem State.setDie_slots (s : State) (d : DieId) (g : Die → Die) : (s.setDie d g).slots = s.slots := rfl
@[simp] theorem State.setDie_stillLog (s : State) (d : DieId) (g : Die → Die) :
    (s.setDie d g).stillLog = s.stillLog := rfl
@[simp] theorem State.setDie_asn (s : State) (d : DieId) (g : Die → Die) : (s.setDie d g).asn = s.asn := rfl
@[simp] theorem State.setDie_rrAdmin (s : State) (d : DieId) (g : Die → Die) : (s.setDie d g).rrAdmin = s.rrAdmin := rfl
@[simp] theorem State.setDie_rrUrgent (s : State) (d : DieId) (g : Die → Die) :
    (s.setDie d g).rrUrgent = s.rrUrgent := rfl
@[simp] theorem State.setDie_rrTenant (s : State) (d : DieId) (g : Die → Die) :
    (s.setDie d g).rrTenant = s.rrTenant := rfl
@[simp] theorem State.setDie_rrTurn (s : State) (d : DieId) (g : Die → Die) : (s.setDie d g).rrTurn = s.rrTurn := rfl
@[simp] theorem State.setDie_rrSq (s : State) (d : DieId) (g : Die → Die) : (s.setDie d g).rrSq = s.rrSq := rfl
@[simp] theorem State.setDie_staged (s : State) (d : DieId) (g : Die → Die) : (s.setDie d g).staged = s.staged := rfl
@[simp] theorem State.setDie_nss (s : State) (d : DieId) (g : Die → Die) : (s.setDie d g).nss = s.nss := rfl
@[simp] theorem State.setDie_compute (s : State) (d : DieId) (g : Die → Die) : (s.setDie d g).compute = s.compute := rfl
@[simp] theorem State.setDie_engines (s : State) (d : DieId) (g : Die → Die) : (s.setDie d g).engines = s.engines := rfl
@[simp] theorem State.setDie_twill (s : State) (d : DieId) (g : Die → Die) : (s.setDie d g).twill = s.twill := rfl
@[simp] theorem State.setDie_units (s : State) (d : DieId) (g : Die → Die) : (s.setDie d g).units = s.units := rfl
@[simp] theorem State.setDie_tenants (s : State) (d : DieId) (g : Die → Die) : (s.setDie d g).tenants = s.tenants := rfl
@[simp] theorem State.setDie_settings (s : State) (d : DieId) (g : Die → Die) :
    (s.setDie d g).settings = s.settings := rfl
@[simp] theorem State.setDie_eps (s : State) (d : DieId) (g : Die → Die) : (s.setDie d g).eps = s.eps := rfl
@[simp] theorem State.setDie_owner (s : State) (d : DieId) (g : Die → Die) : (s.setDie d g).owner = s.owner := rfl
@[simp] theorem State.setDie_repair (s : State) (d : DieId) (g : Die → Die) : (s.setDie d g).repair = s.repair := rfl
@[simp] theorem State.setDie_power (s : State) (d : DieId) (g : Die → Die) : (s.setDie d g).power = s.power := rfl
@[simp] theorem State.setDie_rime (s : State) (d : DieId) (g : Die → Die) : (s.setDie d g).rime = s.rime := rfl
@[simp] theorem State.setDie_moraine (s : State) (d : DieId) (g : Die → Die) : (s.setDie d g).moraine = s.moraine := rfl
@[simp] theorem State.setDie_fw (s : State) (d : DieId) (g : Die → Die) : (s.setDie d g).fw = s.fw := rfl
@[simp] theorem State.setDie_tap (s : State) (d : DieId) (g : Die → Die) : (s.setDie d g).tap = s.tap := rfl
@[simp] theorem State.setDie_outbox (s : State) (d : DieId) (g : Die → Die) : (s.setDie d g).outbox = s.outbox := rfl
@[simp] theorem State.setDie_drawn (s : State) (d : DieId) (g : Die → Die) : (s.setDie d g).drawn = s.drawn := rfl
@[simp] theorem State.setEp_now (s : State) (e : Endpoint) (g : Ep → Ep) : (s.setEp e g).now = s.now := rfl
@[simp] theorem State.setEp_pending (s : State) (e : Endpoint) (g : Ep → Ep) : (s.setEp e g).pending = s.pending := rfl
@[simp] theorem State.setEp_pins (s : State) (e : Endpoint) (g : Ep → Ep) : (s.setEp e g).pins = s.pins := rfl
@[simp] theorem State.setEp_boot (s : State) (e : Endpoint) (g : Ep → Ep) : (s.setEp e g).boot = s.boot := rfl
@[simp] theorem State.setEp_pfail (s : State) (e : Endpoint) (g : Ep → Ep) : (s.setEp e g).pfail = s.pfail := rfl
@[simp] theorem State.setEp_holdup (s : State) (e : Endpoint) (g : Ep → Ep) : (s.setEp e g).holdup = s.holdup := rfl
@[simp] theorem State.setEp_firn (s : State) (e : Endpoint) (g : Ep → Ep) : (s.setEp e g).firn = s.firn := rfl
@[simp] theorem State.setEp_linkA (s : State) (e : Endpoint) (g : Ep → Ep) : (s.setEp e g).linkA = s.linkA := rfl
@[simp] theorem State.setEp_linkB (s : State) (e : Endpoint) (g : Ep → Ep) : (s.setEp e g).linkB = s.linkB := rfl
@[simp] theorem State.setEp_ctrls (s : State) (e : Endpoint) (g : Ep → Ep) : (s.setEp e g).ctrls = s.ctrls := rfl
@[simp] theorem State.setEp_slots (s : State) (e : Endpoint) (g : Ep → Ep) : (s.setEp e g).slots = s.slots := rfl
@[simp] theorem State.setEp_stillLog (s : State) (e : Endpoint) (g : Ep → Ep) :
    (s.setEp e g).stillLog = s.stillLog := rfl
@[simp] theorem State.setEp_asn (s : State) (e : Endpoint) (g : Ep → Ep) : (s.setEp e g).asn = s.asn := rfl
@[simp] theorem State.setEp_rrAdmin (s : State) (e : Endpoint) (g : Ep → Ep) : (s.setEp e g).rrAdmin = s.rrAdmin := rfl
@[simp] theorem State.setEp_rrUrgent (s : State) (e : Endpoint) (g : Ep → Ep) :
    (s.setEp e g).rrUrgent = s.rrUrgent := rfl
@[simp] theorem State.setEp_rrTenant (s : State) (e : Endpoint) (g : Ep → Ep) :
    (s.setEp e g).rrTenant = s.rrTenant := rfl
@[simp] theorem State.setEp_rrTurn (s : State) (e : Endpoint) (g : Ep → Ep) : (s.setEp e g).rrTurn = s.rrTurn := rfl
@[simp] theorem State.setEp_rrSq (s : State) (e : Endpoint) (g : Ep → Ep) : (s.setEp e g).rrSq = s.rrSq := rfl
@[simp] theorem State.setEp_staged (s : State) (e : Endpoint) (g : Ep → Ep) : (s.setEp e g).staged = s.staged := rfl
@[simp] theorem State.setEp_nss (s : State) (e : Endpoint) (g : Ep → Ep) : (s.setEp e g).nss = s.nss := rfl
@[simp] theorem State.setEp_media (s : State) (e : Endpoint) (g : Ep → Ep) : (s.setEp e g).media = s.media := rfl
@[simp] theorem State.setEp_compute (s : State) (e : Endpoint) (g : Ep → Ep) : (s.setEp e g).compute = s.compute := rfl
@[simp] theorem State.setEp_engines (s : State) (e : Endpoint) (g : Ep → Ep) : (s.setEp e g).engines = s.engines := rfl
@[simp] theorem State.setEp_twill (s : State) (e : Endpoint) (g : Ep → Ep) : (s.setEp e g).twill = s.twill := rfl
@[simp] theorem State.setEp_units (s : State) (e : Endpoint) (g : Ep → Ep) : (s.setEp e g).units = s.units := rfl
@[simp] theorem State.setEp_tenants (s : State) (e : Endpoint) (g : Ep → Ep) : (s.setEp e g).tenants = s.tenants := rfl
@[simp] theorem State.setEp_settings (s : State) (e : Endpoint) (g : Ep → Ep) :
    (s.setEp e g).settings = s.settings := rfl
@[simp] theorem State.setEp_owner (s : State) (e : Endpoint) (g : Ep → Ep) : (s.setEp e g).owner = s.owner := rfl
@[simp] theorem State.setEp_repair (s : State) (e : Endpoint) (g : Ep → Ep) : (s.setEp e g).repair = s.repair := rfl
@[simp] theorem State.setEp_power (s : State) (e : Endpoint) (g : Ep → Ep) : (s.setEp e g).power = s.power := rfl
@[simp] theorem State.setEp_rime (s : State) (e : Endpoint) (g : Ep → Ep) : (s.setEp e g).rime = s.rime := rfl
@[simp] theorem State.setEp_moraine (s : State) (e : Endpoint) (g : Ep → Ep) : (s.setEp e g).moraine = s.moraine := rfl
@[simp] theorem State.setEp_fw (s : State) (e : Endpoint) (g : Ep → Ep) : (s.setEp e g).fw = s.fw := rfl
@[simp] theorem State.setEp_tap (s : State) (e : Endpoint) (g : Ep → Ep) : (s.setEp e g).tap = s.tap := rfl
@[simp] theorem State.setEp_outbox (s : State) (e : Endpoint) (g : Ep → Ep) : (s.setEp e g).outbox = s.outbox := rfl
@[simp] theorem State.setEp_drawn (s : State) (e : Endpoint) (g : Ep → Ep) : (s.setEp e g).drawn = s.drawn := rfl
@[simp] theorem State.setCount_now (s : State) (t : Nat) (g : DspCount → DspCount) : (s.setCount t g).now = s.now := rfl
@[simp] theorem State.setCount_pending (s : State) (t : Nat) (g : DspCount → DspCount) :
    (s.setCount t g).pending = s.pending := rfl
@[simp] theorem State.setCount_pins (s : State) (t : Nat) (g : DspCount → DspCount) :
    (s.setCount t g).pins = s.pins := rfl
@[simp] theorem State.setCount_boot (s : State) (t : Nat) (g : DspCount → DspCount) :
    (s.setCount t g).boot = s.boot := rfl
@[simp] theorem State.setCount_pfail (s : State) (t : Nat) (g : DspCount → DspCount) :
    (s.setCount t g).pfail = s.pfail := rfl
@[simp] theorem State.setCount_holdup (s : State) (t : Nat) (g : DspCount → DspCount) :
    (s.setCount t g).holdup = s.holdup := rfl
@[simp] theorem State.setCount_firn (s : State) (t : Nat) (g : DspCount → DspCount) :
    (s.setCount t g).firn = s.firn := rfl
@[simp] theorem State.setCount_linkA (s : State) (t : Nat) (g : DspCount → DspCount) :
    (s.setCount t g).linkA = s.linkA := rfl
@[simp] theorem State.setCount_linkB (s : State) (t : Nat) (g : DspCount → DspCount) :
    (s.setCount t g).linkB = s.linkB := rfl
@[simp] theorem State.setCount_ctrls (s : State) (t : Nat) (g : DspCount → DspCount) :
    (s.setCount t g).ctrls = s.ctrls := rfl
@[simp] theorem State.setCount_slots (s : State) (t : Nat) (g : DspCount → DspCount) :
    (s.setCount t g).slots = s.slots := rfl
@[simp] theorem State.setCount_stillLog (s : State) (t : Nat) (g : DspCount → DspCount) :
    (s.setCount t g).stillLog = s.stillLog := rfl
@[simp] theorem State.setCount_asn (s : State) (t : Nat) (g : DspCount → DspCount) : (s.setCount t g).asn = s.asn := rfl
@[simp] theorem State.setCount_rrAdmin (s : State) (t : Nat) (g : DspCount → DspCount) :
    (s.setCount t g).rrAdmin = s.rrAdmin := rfl
@[simp] theorem State.setCount_rrUrgent (s : State) (t : Nat) (g : DspCount → DspCount) :
    (s.setCount t g).rrUrgent = s.rrUrgent := rfl
@[simp] theorem State.setCount_rrTenant (s : State) (t : Nat) (g : DspCount → DspCount) :
    (s.setCount t g).rrTenant = s.rrTenant := rfl
@[simp] theorem State.setCount_rrTurn (s : State) (t : Nat) (g : DspCount → DspCount) :
    (s.setCount t g).rrTurn = s.rrTurn := rfl
@[simp] theorem State.setCount_rrSq (s : State) (t : Nat) (g : DspCount → DspCount) :
    (s.setCount t g).rrSq = s.rrSq := rfl
@[simp] theorem State.setCount_staged (s : State) (t : Nat) (g : DspCount → DspCount) :
    (s.setCount t g).staged = s.staged := rfl
@[simp] theorem State.setCount_nss (s : State) (t : Nat) (g : DspCount → DspCount) : (s.setCount t g).nss = s.nss := rfl
@[simp] theorem State.setCount_media (s : State) (t : Nat) (g : DspCount → DspCount) :
    (s.setCount t g).media = s.media := rfl
@[simp] theorem State.setCount_engines (s : State) (t : Nat) (g : DspCount → DspCount) :
    (s.setCount t g).engines = s.engines := rfl
@[simp] theorem State.setCount_twill (s : State) (t : Nat) (g : DspCount → DspCount) :
    (s.setCount t g).twill = s.twill := rfl
@[simp] theorem State.setCount_units (s : State) (t : Nat) (g : DspCount → DspCount) :
    (s.setCount t g).units = s.units := rfl
@[simp] theorem State.setCount_tenants (s : State) (t : Nat) (g : DspCount → DspCount) :
    (s.setCount t g).tenants = s.tenants := rfl
@[simp] theorem State.setCount_settings (s : State) (t : Nat) (g : DspCount → DspCount) :
    (s.setCount t g).settings = s.settings := rfl
@[simp] theorem State.setCount_eps (s : State) (t : Nat) (g : DspCount → DspCount) : (s.setCount t g).eps = s.eps := rfl
@[simp] theorem State.setCount_owner (s : State) (t : Nat) (g : DspCount → DspCount) :
    (s.setCount t g).owner = s.owner := rfl
@[simp] theorem State.setCount_repair (s : State) (t : Nat) (g : DspCount → DspCount) :
    (s.setCount t g).repair = s.repair := rfl
@[simp] theorem State.setCount_power (s : State) (t : Nat) (g : DspCount → DspCount) :
    (s.setCount t g).power = s.power := rfl
@[simp] theorem State.setCount_rime (s : State) (t : Nat) (g : DspCount → DspCount) :
    (s.setCount t g).rime = s.rime := rfl
@[simp] theorem State.setCount_moraine (s : State) (t : Nat) (g : DspCount → DspCount) :
    (s.setCount t g).moraine = s.moraine := rfl
@[simp] theorem State.setCount_fw (s : State) (t : Nat) (g : DspCount → DspCount) : (s.setCount t g).fw = s.fw := rfl
@[simp] theorem State.setCount_tap (s : State) (t : Nat) (g : DspCount → DspCount) : (s.setCount t g).tap = s.tap := rfl
@[simp] theorem State.setCount_outbox (s : State) (t : Nat) (g : DspCount → DspCount) :
    (s.setCount t g).outbox = s.outbox := rfl
@[simp] theorem State.setCount_drawn (s : State) (t : Nat) (g : DspCount → DspCount) :
    (s.setCount t g).drawn = s.drawn := rfl

/-! ### Lookups after updates -/

@[simp] theorem State.emit_outbox (s : State) (o : Output) : (s.emit o).outbox = o :: s.outbox := rfl
@[simp] theorem State.arrive_now (s : State) (t : Tick) : (s.arrive t).now = max s.now t := rfl
@[simp] theorem State.arrive_ring (s : State) (t : Tick) : (s.arrive t).rime.ring = s.rime.ring := rfl

/-- A key-preserving update of a list is seen by the lookup of that key. -/
theorem find_map_key {α κ : Type} [DecidableEq κ] (key : α → κ) (k : κ) (g : α → α) (hg : ∀ x, key (g x) = key x)
    (xs : List α) :
    (xs.map fun c => if key c = k then g c else c).find? (key · == k) = (xs.find? (key · == k)).map g := by
  induction xs with
  | nil => rfl
  | cons x xs ih =>
    by_cases h : key x = k
    · simp [h, hg]
    · simp [h, ih]

/-- A key-preserving update under one key is not seen by the lookup of another. -/
theorem find_map_ne {α κ : Type} [DecidableEq κ] (key : α → κ) (j k : κ) (h : j ≠ k) (g : α → α)
    (hg : ∀ x, key (g x) = key x) (xs : List α) :
    (xs.map fun c => if key c = k then g c else c).find? (key · == j) = xs.find? (key · == j) := by
  induction xs with
  | nil => rfl
  | cons x xs ih =>
    by_cases hx : key x = k
    · have hj : key x ≠ j := fun e => h (e.symm.trans hx)
      have hgj : key (g x) ≠ j := fun e => hj ((hg x).symm.trans e)
      rw [List.map_cons, if_pos hx, List.find?_cons_of_neg (by simpa using hgj), List.find?_cons_of_neg (by simpa using hj), ih]
    · rw [List.map_cons, if_neg hx]
      by_cases hj : key x = j
      · simp [hj]
      · simp [hj, ih]

theorem slot_setSlot (s : State) (i : Nat) (g : Slot → Slot) (hg : ∀ x, (g x).ix = x.ix) :
    (s.setSlot i g).slot? i = (s.slot? i).map g := find_map_key Slot.ix i g hg s.slots

theorem slot_setSlot_ne (s : State) (i j : Nat) (h : j ≠ i) (g : Slot → Slot) (hg : ∀ x, (g x).ix = x.ix) :
    (s.setSlot i g).slot? j = s.slot? j := find_map_ne Slot.ix j i h g hg s.slots

theorem ns_setNs (s : State) (n : Nat) (g : Ns → Ns) (hg : ∀ x, (g x).nsid = x.nsid) :
    (s.setNs n g).ns? n = (s.ns? n).map g := find_map_key Ns.nsid n g hg s.nss

theorem ns_setNs_ne (s : State) (n m : Nat) (h : m ≠ n) (g : Ns → Ns) (hg : ∀ x, (g x).nsid = x.nsid) :
    (s.setNs n g).ns? m = s.ns? m := find_map_ne Ns.nsid m n h g hg s.nss

theorem tenant_setTenant (s : State) (t : Nat) (g : Tenant → Tenant) (hg : ∀ x, (g x).num = x.num) :
    (s.setTenant t g).tenant? t = (s.tenant? t).map g := find_map_key Tenant.num t g hg s.tenants

theorem run_setRun (s : State) (a : Nat) (g : GRun → GRun) (hg : ∀ x, (g x).asn = x.asn) :
    (s.setRun a g).run? a = (s.run? a).map g := find_map_key GRun.asn a g hg s.compute.runs

theorem engine_setEngine (s : State) (p : Nat) (g : Engine → Engine) (hg : ∀ x, (g x).ix = x.ix) :
    (s.setEngine p g).engine? p = (s.engine? p).map g := find_map_key Engine.ix p g hg s.engines

theorem engine_setEngine_ne (s : State) (p q : Nat) (h : q ≠ p) (g : Engine → Engine) (hg : ∀ x, (g x).ix = x.ix) :
    (s.setEngine p g).engine? q = s.engine? q := find_map_ne Engine.ix q p h g hg s.engines

/-- A list extended by a new key holds it. -/
theorem find_append_new {α κ : Type} [DecidableEq κ] (key : α → κ) (k : κ) (new : α) (hn : key new = k) (xs : List α) :
    ((if xs.any (key · == k) then xs else xs ++ [new]).find? (key · == k)) = some ((xs.find? (key · == k)).getD new) := by
  by_cases h : xs.any (key · == k) = true
  · rw [if_pos h]
    rw [List.any_eq_true] at h
    cases e : xs.find? (key · == k) with
    | some x => simp
    | none =>
      obtain ⟨x, hx, hk⟩ := h
      exact absurd hk (List.find?_eq_none.mp e x hx)
  · rw [if_neg h, List.find?_append]
    have e : xs.find? (key · == k) = none := by
      rw [List.find?_eq_none]
      intro x hx hk
      exact h (List.any_eq_true.mpr ⟨x, hx, hk⟩)
    simp [e, hn]

@[simp] theorem link_setLink (s : State) (p : Port) (g : Link → Link) : (s.setLink p g).link p = g (s.link p) := by
  cases p <;> rfl

theorem link_setLink_ne (s : State) (p q : Port) (h : q ≠ p) (g : Link → Link) : (s.setLink p g).link q = s.link q := by
  cases p <;> cases q <;> first | rfl | exact absurd rfl h

/-- A die after its update. -/
theorem die_setDie (s : State) (d : DieId) (g : Die → Die) (hg : ∀ x, (g x).id = x.id) : (s.setDie d g).die d = g (s.die d) := by
  unfold State.die State.setDie
  dsimp only
  rw [find_map_key Die.id d g hg, find_append_new Die.id d { id := d } rfl]
  rfl

/-- An endpoint after its update. -/
theorem ep_setEp (s : State) (e : Endpoint) (g : Ep → Ep) (hg : ∀ x, (g x).ep = x.ep) : (s.setEp e g).ep e = g (s.ep e) := by
  unfold State.ep State.setEp
  dsimp only
  rw [find_map_key Ep.ep e g hg, find_append_new Ep.ep e { ep := e } rfl]
  rfl

/-- The controller of an existing function after its update. -/
theorem ctrl_setCtrl (s : State) (f : Fn) (g : Ctrl → Ctrl) (hg : ∀ x, (g x).fn = x.fn) (hf : s.hasFn f = true) :
    (s.setCtrl f g).ctrl? f = (s.ctrl? f).map g := by
  have e := find_append_new Ctrl.fn f { fn := f } rfl s.ctrls
  have h1 : (s.setCtrl f g).ctrls.find? (·.fn == f)
      = ((if s.ctrls.any (·.fn == f) then s.ctrls else s.ctrls ++ [{ fn := f }]).find? (·.fn == f)).map g := by
    unfold State.setCtrl
    simp only [hf, Bool.not_true, Bool.or_false]
    exact find_map_key Ctrl.fn f g hg _
  have h2 : (s.setCtrl f g).hasFn f = true := hf
  unfold State.ctrl?
  rw [h1, e, hf]
  cases s.ctrls.find? (·.fn == f) <;> rfl

/-- The controller of an existing function is there. -/
theorem ctrl_isSome (s : State) (f : Fn) (hf : s.hasFn f = true) : (s.ctrl? f).isSome = true := by
  unfold State.ctrl?
  rw [hf]
  split <;> simp

end Sys2Proof.Machine
end

