-- ==== Sys2Proof/Laws/Ops.lean ====
section
/-! SUPPORT. What each shared operation leaves unchanged, one lemma per operation; and what a record in Rime and a
completion leave behind. -/

namespace Sys2Proof.Machine

/-- A fold keeps whatever each of its steps keeps. -/
theorem foldl_keep {α β : Type} (k : State → β) (f : State → α → State) (h : ∀ s x, k (f s x) = k s) (xs : List α) (s : State) :
    k (xs.foldl f s) = k s := by
  induction xs generalizing s with
  | nil => rfl
  | cons x xs ih => exact (ih _).trans (h s x)

/-- Parts of the state that the operations of this file never change. -/
@[simp, reducible] def SameCore (t s : State) : Prop :=
  t.pending = s.pending ∧ t.pfail = s.pfail ∧ t.holdup = s.holdup ∧ t.asn = s.asn ∧ t.rrAdmin = s.rrAdmin ∧ t.rrUrgent = s.rrUrgent ∧ t.rrTenant = s.rrTenant ∧ t.rrTurn = s.rrTurn ∧ t.rrSq = s.rrSq ∧ t.twill = s.twill ∧ t.units = s.units ∧ t.tenants = s.tenants ∧ t.settings = s.settings ∧ t.owner = s.owner ∧ t.moraine = s.moraine ∧ t.fw = s.fw ∧ t.tap = s.tap ∧ t.drawn = s.drawn ∧ t.engines = s.engines

/-- The state with the media and the namespaces taken out: what operations on the media alone cannot change. -/
def offMedia (s : State) : State := { s with media := {}, nss := [] }

/-- States that agree outside the media and the namespaces agree in every other field. -/
theorem frame_of_offMedia {t s : State} (h : offMedia t = offMedia s) :
    SameCore t s ∧ t.now = s.now ∧ t.pins = s.pins ∧ t.boot = s.boot ∧ t.firn = s.firn ∧ t.linkA = s.linkA ∧
    t.linkB = s.linkB ∧ t.ctrls = s.ctrls ∧ t.slots = s.slots ∧ t.stillLog = s.stillLog ∧ t.staged = s.staged ∧
    t.compute = s.compute ∧ t.eps = s.eps ∧ t.repair = s.repair ∧ t.power = s.power ∧ t.rime = s.rime ∧
    t.outbox = s.outbox := by
  simp only [offMedia, State.mk.injEq] at h
  simp [h]

/-! ### Ops -/

@[simp] theorem rimeFlushStart_frame (s : State) :
    SameCore (rimeFlushStart s) s ∧ (rimeFlushStart s).now = s.now ∧ (rimeFlushStart s).boot = s.boot ∧
    (rimeFlushStart s).firn = s.firn ∧ (rimeFlushStart s).linkA = s.linkA ∧ (rimeFlushStart s).linkB = s.linkB ∧
    (rimeFlushStart s).ctrls = s.ctrls ∧ (rimeFlushStart s).slots = s.slots ∧
    (rimeFlushStart s).stillLog = s.stillLog ∧ (rimeFlushStart s).staged = s.staged ∧
    (rimeFlushStart s).nss = s.nss ∧ (rimeFlushStart s).media = s.media ∧ (rimeFlushStart s).compute = s.compute ∧
    (rimeFlushStart s).eps = s.eps ∧ (rimeFlushStart s).repair = s.repair ∧ (rimeFlushStart s).power = s.power ∧
    (rimeFlushStart s).outbox = s.outbox := by
  unfold rimeFlushStart
  (repeat' split) <;> simp

@[simp] theorem rimeAppend_frame (code sev : Nat) (tenant : Option Nat) (shared : Bool) (param : List Byte) (s : State) :
    SameCore (rimeAppend code sev tenant shared param s) s ∧
    (rimeAppend code sev tenant shared param s).now = s.now ∧
    (rimeAppend code sev tenant shared param s).boot = s.boot ∧
    (rimeAppend code sev tenant shared param s).firn = s.firn ∧
    (rimeAppend code sev tenant shared param s).linkA = s.linkA ∧
    (rimeAppend code sev tenant shared param s).linkB = s.linkB ∧
    (rimeAppend code sev tenant shared param s).ctrls = s.ctrls ∧
    (rimeAppend code sev tenant shared param s).slots = s.slots ∧
    (rimeAppend code sev tenant shared param s).stillLog = s.stillLog ∧
    (rimeAppend code sev tenant shared param s).staged = s.staged ∧
    (rimeAppend code sev tenant shared param s).nss = s.nss ∧
    (rimeAppend code sev tenant shared param s).media = s.media ∧
    (rimeAppend code sev tenant shared param s).compute = s.compute ∧
    (rimeAppend code sev tenant shared param s).eps = s.eps ∧
    (rimeAppend code sev tenant shared param s).repair = s.repair ∧
    (rimeAppend code sev tenant shared param s).power = s.power ∧
    (rimeAppend code sev tenant shared param s).outbox = s.outbox := by
  unfold rimeAppend
  dsimp only
  (repeat' split) <;> simp

@[simp] theorem rime_frame (code sev : Nat) (tenant : Option Nat) (shared : Bool) (param : List Byte) (s : State) :
    SameCore (rime code sev tenant shared param s) s ∧ (rime code sev tenant shared param s).now = s.now ∧
    (rime code sev tenant shared param s).boot = s.boot ∧ (rime code sev tenant shared param s).firn = s.firn ∧
    (rime code sev tenant shared param s).linkA = s.linkA ∧ (rime code sev tenant shared param s).linkB = s.linkB ∧
    (rime code sev tenant shared param s).ctrls = s.ctrls ∧ (rime code sev tenant shared param s).slots = s.slots ∧
    (rime code sev tenant shared param s).stillLog = s.stillLog ∧
    (rime code sev tenant shared param s).staged = s.staged ∧ (rime code sev tenant shared param s).nss = s.nss ∧
    (rime code sev tenant shared param s).media = s.media ∧
    (rime code sev tenant shared param s).compute = s.compute ∧ (rime code sev tenant shared param s).eps = s.eps ∧
    (rime code sev tenant shared param s).repair = s.repair ∧ (rime code sev tenant shared param s).power = s.power ∧
    (rime code sev tenant shared param s).outbox = s.outbox := by
  unfold rime
  (repeat' split) <;> simp

@[simp] theorem rimeDev_frame (code sev : Nat) (shared : Bool) (param : List Byte) (s : State) :
    SameCore (rimeDev code sev shared param s) s ∧ (rimeDev code sev shared param s).now = s.now ∧
    (rimeDev code sev shared param s).boot = s.boot ∧ (rimeDev code sev shared param s).firn = s.firn ∧
    (rimeDev code sev shared param s).linkA = s.linkA ∧ (rimeDev code sev shared param s).linkB = s.linkB ∧
    (rimeDev code sev shared param s).ctrls = s.ctrls ∧ (rimeDev code sev shared param s).slots = s.slots ∧
    (rimeDev code sev shared param s).stillLog = s.stillLog ∧ (rimeDev code sev shared param s).staged = s.staged ∧
    (rimeDev code sev shared param s).nss = s.nss ∧ (rimeDev code sev shared param s).media = s.media ∧
    (rimeDev code sev shared param s).compute = s.compute ∧ (rimeDev code sev shared param s).eps = s.eps ∧
    (rimeDev code sev shared param s).repair = s.repair ∧ (rimeDev code sev shared param s).power = s.power ∧
    (rimeDev code sev shared param s).outbox = s.outbox := by
  unfold rimeDev
  simp

@[simp] theorem rimeTen_frame (code sev tenant : Nat) (param : List Byte) (s : State) :
    SameCore (rimeTen code sev tenant param s) s ∧ (rimeTen code sev tenant param s).now = s.now ∧
    (rimeTen code sev tenant param s).boot = s.boot ∧ (rimeTen code sev tenant param s).firn = s.firn ∧
    (rimeTen code sev tenant param s).linkA = s.linkA ∧ (rimeTen code sev tenant param s).linkB = s.linkB ∧
    (rimeTen code sev tenant param s).ctrls = s.ctrls ∧ (rimeTen code sev tenant param s).slots = s.slots ∧
    (rimeTen code sev tenant param s).stillLog = s.stillLog ∧ (rimeTen code sev tenant param s).staged = s.staged ∧
    (rimeTen code sev tenant param s).nss = s.nss ∧ (rimeTen code sev tenant param s).media = s.media ∧
    (rimeTen code sev tenant param s).compute = s.compute ∧ (rimeTen code sev tenant param s).eps = s.eps ∧
    (rimeTen code sev tenant param s).repair = s.repair ∧ (rimeTen code sev tenant param s).power = s.power ∧
    (rimeTen code sev tenant param s).outbox = s.outbox := by
  unfold rimeTen
  simp

@[simp] theorem rimeFlushEnd_frame (s : State) :
    SameCore (rimeFlushEnd s) s ∧ (rimeFlushEnd s).now = s.now ∧ (rimeFlushEnd s).boot = s.boot ∧
    (rimeFlushEnd s).firn = s.firn ∧ (rimeFlushEnd s).linkA = s.linkA ∧ (rimeFlushEnd s).linkB = s.linkB ∧
    (rimeFlushEnd s).ctrls = s.ctrls ∧ (rimeFlushEnd s).slots = s.slots ∧ (rimeFlushEnd s).stillLog = s.stillLog ∧
    (rimeFlushEnd s).staged = s.staged ∧ (rimeFlushEnd s).nss = s.nss ∧ (rimeFlushEnd s).media = s.media ∧
    (rimeFlushEnd s).compute = s.compute ∧ (rimeFlushEnd s).eps = s.eps ∧ (rimeFlushEnd s).repair = s.repair ∧
    (rimeFlushEnd s).power = s.power ∧ (rimeFlushEnd s).outbox = s.outbox := by
  unfold rimeFlushEnd
  split
  · simp
  · dsimp only
    split
    · split <;> simp
    · split <;> simp

/-! ### Firn -/

@[simp] theorem firnRebase_frame (s : State) :
    SameCore (firnRebase s) s ∧ (firnRebase s).now = s.now ∧ (firnRebase s).pins = s.pins ∧
    (firnRebase s).boot = s.boot ∧ (firnRebase s).linkA = s.linkA ∧ (firnRebase s).linkB = s.linkB ∧
    (firnRebase s).ctrls = s.ctrls ∧ (firnRebase s).slots = s.slots ∧ (firnRebase s).stillLog = s.stillLog ∧
    (firnRebase s).staged = s.staged ∧ (firnRebase s).nss = s.nss ∧ (firnRebase s).media = s.media ∧
    (firnRebase s).compute = s.compute ∧ (firnRebase s).eps = s.eps ∧ (firnRebase s).repair = s.repair ∧
    (firnRebase s).power = s.power ∧ (firnRebase s).rime = s.rime ∧ (firnRebase s).outbox = s.outbox := by
  unfold firnRebase
  simp

@[simp] theorem firnEnter_frame (l : Lock) (s : State) :
    SameCore (firnEnter l s) s ∧ (firnEnter l s).now = s.now ∧ (firnEnter l s).boot = s.boot ∧
    (firnEnter l s).linkA = s.linkA ∧ (firnEnter l s).linkB = s.linkB ∧ (firnEnter l s).ctrls = s.ctrls ∧
    (firnEnter l s).slots = s.slots ∧ (firnEnter l s).stillLog = s.stillLog ∧ (firnEnter l s).staged = s.staged ∧
    (firnEnter l s).nss = s.nss ∧ (firnEnter l s).media = s.media ∧ (firnEnter l s).compute = s.compute ∧
    (firnEnter l s).eps = s.eps ∧ (firnEnter l s).repair = s.repair ∧ (firnEnter l s).power = s.power ∧
    (firnEnter l s).outbox = s.outbox := by
  unfold firnEnter
  (repeat' split) <;> simp

@[simp] theorem firnSetPeriod_frame (s : State) :
    SameCore (firnSetPeriod s) s ∧ (firnSetPeriod s).now = s.now ∧ (firnSetPeriod s).pins = s.pins ∧
    (firnSetPeriod s).boot = s.boot ∧ (firnSetPeriod s).linkA = s.linkA ∧ (firnSetPeriod s).linkB = s.linkB ∧
    (firnSetPeriod s).ctrls = s.ctrls ∧ (firnSetPeriod s).slots = s.slots ∧ (firnSetPeriod s).stillLog = s.stillLog ∧
    (firnSetPeriod s).staged = s.staged ∧ (firnSetPeriod s).nss = s.nss ∧ (firnSetPeriod s).media = s.media ∧
    (firnSetPeriod s).compute = s.compute ∧ (firnSetPeriod s).eps = s.eps ∧ (firnSetPeriod s).repair = s.repair ∧
    (firnSetPeriod s).power = s.power ∧ (firnSetPeriod s).rime = s.rime ∧ (firnSetPeriod s).outbox = s.outbox := by
  unfold firnSetPeriod
  simp

@[simp] theorem firnRestartLoss_frame (at_ : Tick) (s : State) :
    SameCore (firnRestartLoss at_ s) s ∧ (firnRestartLoss at_ s).now = s.now ∧
    (firnRestartLoss at_ s).pins = s.pins ∧ (firnRestartLoss at_ s).boot = s.boot ∧
    (firnRestartLoss at_ s).linkA = s.linkA ∧ (firnRestartLoss at_ s).linkB = s.linkB ∧
    (firnRestartLoss at_ s).ctrls = s.ctrls ∧ (firnRestartLoss at_ s).slots = s.slots ∧
    (firnRestartLoss at_ s).stillLog = s.stillLog ∧ (firnRestartLoss at_ s).staged = s.staged ∧
    (firnRestartLoss at_ s).nss = s.nss ∧ (firnRestartLoss at_ s).media = s.media ∧
    (firnRestartLoss at_ s).compute = s.compute ∧ (firnRestartLoss at_ s).eps = s.eps ∧
    (firnRestartLoss at_ s).repair = s.repair ∧ (firnRestartLoss at_ s).power = s.power ∧
    (firnRestartLoss at_ s).rime = s.rime ∧ (firnRestartLoss at_ s).outbox = s.outbox := by
  unfold firnRestartLoss
  simp

@[simp] theorem firnEdge_frame (at_ : Tick) (s : State) :
    SameCore (firnEdge at_ s) s ∧ (firnEdge at_ s).now = s.now ∧ (firnEdge at_ s).boot = s.boot ∧
    (firnEdge at_ s).linkA = s.linkA ∧ (firnEdge at_ s).linkB = s.linkB ∧ (firnEdge at_ s).ctrls = s.ctrls ∧
    (firnEdge at_ s).slots = s.slots ∧ (firnEdge at_ s).stillLog = s.stillLog ∧ (firnEdge at_ s).staged = s.staged ∧
    (firnEdge at_ s).nss = s.nss ∧ (firnEdge at_ s).media = s.media ∧ (firnEdge at_ s).compute = s.compute ∧
    (firnEdge at_ s).eps = s.eps ∧ (firnEdge at_ s).repair = s.repair ∧ (firnEdge at_ s).power = s.power ∧
    (firnEdge at_ s).outbox = s.outbox := by
  unfold firnEdge
  simp

@[simp] theorem firnLose_frame (s : State) :
    SameCore (firnLose s) s ∧ (firnLose s).now = s.now ∧ (firnLose s).boot = s.boot ∧ (firnLose s).linkA = s.linkA ∧
    (firnLose s).linkB = s.linkB ∧ (firnLose s).ctrls = s.ctrls ∧ (firnLose s).slots = s.slots ∧
    (firnLose s).stillLog = s.stillLog ∧ (firnLose s).staged = s.staged ∧ (firnLose s).nss = s.nss ∧
    (firnLose s).media = s.media ∧ (firnLose s).compute = s.compute ∧ (firnLose s).eps = s.eps ∧
    (firnLose s).repair = s.repair ∧ (firnLose s).power = s.power ∧ (firnLose s).outbox = s.outbox := by
  unfold firnLose
  simp

@[simp] theorem firnHoldoverEnd_frame (s : State) :
    SameCore (firnHoldoverEnd s) s ∧ (firnHoldoverEnd s).now = s.now ∧ (firnHoldoverEnd s).boot = s.boot ∧
    (firnHoldoverEnd s).linkA = s.linkA ∧ (firnHoldoverEnd s).linkB = s.linkB ∧ (firnHoldoverEnd s).ctrls = s.ctrls ∧
    (firnHoldoverEnd s).slots = s.slots ∧ (firnHoldoverEnd s).stillLog = s.stillLog ∧
    (firnHoldoverEnd s).staged = s.staged ∧ (firnHoldoverEnd s).nss = s.nss ∧ (firnHoldoverEnd s).media = s.media ∧
    (firnHoldoverEnd s).compute = s.compute ∧ (firnHoldoverEnd s).eps = s.eps ∧
    (firnHoldoverEnd s).repair = s.repair ∧ (firnHoldoverEnd s).power = s.power ∧
    (firnHoldoverEnd s).outbox = s.outbox := by
  unfold firnHoldoverEnd
  (repeat' split) <;> simp

@[simp] theorem epochReject_frame (s : State) :
    SameCore (epochReject s) s ∧ (epochReject s).now = s.now ∧ (epochReject s).pins = s.pins ∧
    (epochReject s).boot = s.boot ∧ (epochReject s).linkA = s.linkA ∧ (epochReject s).linkB = s.linkB ∧
    (epochReject s).ctrls = s.ctrls ∧ (epochReject s).slots = s.slots ∧ (epochReject s).stillLog = s.stillLog ∧
    (epochReject s).staged = s.staged ∧ (epochReject s).nss = s.nss ∧ (epochReject s).media = s.media ∧
    (epochReject s).compute = s.compute ∧ (epochReject s).eps = s.eps ∧ (epochReject s).repair = s.repair ∧
    (epochReject s).power = s.power ∧ (epochReject s).rime = s.rime ∧ (epochReject s).outbox = s.outbox := by
  unfold epochReject
  simp

@[simp] theorem devWinErr_frame (f : Fn) (off : Nat) (s : State) :
    SameCore (devWinErr f off s) s ∧ (devWinErr f off s).now = s.now ∧ (devWinErr f off s).pins = s.pins ∧
    (devWinErr f off s).boot = s.boot ∧ (devWinErr f off s).firn = s.firn ∧ (devWinErr f off s).linkA = s.linkA ∧
    (devWinErr f off s).linkB = s.linkB ∧ (devWinErr f off s).slots = s.slots ∧
    (devWinErr f off s).stillLog = s.stillLog ∧ (devWinErr f off s).staged = s.staged ∧
    (devWinErr f off s).nss = s.nss ∧ (devWinErr f off s).media = s.media ∧ (devWinErr f off s).compute = s.compute ∧
    (devWinErr f off s).eps = s.eps ∧ (devWinErr f off s).repair = s.repair ∧ (devWinErr f off s).power = s.power ∧
    (devWinErr f off s).rime = s.rime ∧ (devWinErr f off s).outbox = s.outbox := by
  unfold devWinErr
  simp

@[simp] theorem epochWrite_frame (f : Fn) (count : Nat) (s : State) :
    SameCore (epochWrite f count s) s ∧ (epochWrite f count s).now = s.now ∧ (epochWrite f count s).pins = s.pins ∧
    (epochWrite f count s).boot = s.boot ∧ (epochWrite f count s).linkA = s.linkA ∧
    (epochWrite f count s).linkB = s.linkB ∧ (epochWrite f count s).slots = s.slots ∧
    (epochWrite f count s).stillLog = s.stillLog ∧ (epochWrite f count s).staged = s.staged ∧
    (epochWrite f count s).nss = s.nss ∧ (epochWrite f count s).media = s.media ∧
    (epochWrite f count s).compute = s.compute ∧ (epochWrite f count s).eps = s.eps ∧
    (epochWrite f count s).repair = s.repair ∧ (epochWrite f count s).power = s.power ∧
    (epochWrite f count s).rime = s.rime ∧ (epochWrite f count s).outbox = s.outbox := by
  unfold epochWrite
  dsimp only
  (repeat' split) <;> simp

@[simp] theorem losePtm_frame (p : Port) (s : State) :
    SameCore (losePtm p s) s ∧ (losePtm p s).now = s.now ∧ (losePtm p s).pins = s.pins ∧
    (losePtm p s).boot = s.boot ∧ (losePtm p s).ctrls = s.ctrls ∧ (losePtm p s).slots = s.slots ∧
    (losePtm p s).stillLog = s.stillLog ∧ (losePtm p s).staged = s.staged ∧ (losePtm p s).nss = s.nss ∧
    (losePtm p s).media = s.media ∧ (losePtm p s).compute = s.compute ∧ (losePtm p s).eps = s.eps ∧
    (losePtm p s).repair = s.repair ∧ (losePtm p s).power = s.power ∧ (losePtm p s).rime = s.rime ∧
    (losePtm p s).outbox = s.outbox := by
  unfold losePtm
  (repeat' split) <;> simp

@[simp] theorem firnStart_frame (s : State) :
    SameCore (firnStart s) s ∧ (firnStart s).now = s.now ∧ (firnStart s).boot = s.boot ∧
    (firnStart s).linkA = s.linkA ∧ (firnStart s).linkB = s.linkB ∧ (firnStart s).ctrls = s.ctrls ∧
    (firnStart s).slots = s.slots ∧ (firnStart s).stillLog = s.stillLog ∧ (firnStart s).staged = s.staged ∧
    (firnStart s).nss = s.nss ∧ (firnStart s).media = s.media ∧ (firnStart s).compute = s.compute ∧
    (firnStart s).eps = s.eps ∧ (firnStart s).repair = s.repair ∧ (firnStart s).power = s.power ∧
    (firnStart s).outbox = s.outbox := by
  unfold firnStart
  simp

@[simp] theorem firnSourceChange_frame (old : Nat) (s : State) :
    SameCore (firnSourceChange old s) s ∧ (firnSourceChange old s).now = s.now ∧
    (firnSourceChange old s).boot = s.boot ∧ (firnSourceChange old s).linkA = s.linkA ∧
    (firnSourceChange old s).linkB = s.linkB ∧ (firnSourceChange old s).ctrls = s.ctrls ∧
    (firnSourceChange old s).slots = s.slots ∧ (firnSourceChange old s).stillLog = s.stillLog ∧
    (firnSourceChange old s).staged = s.staged ∧ (firnSourceChange old s).nss = s.nss ∧
    (firnSourceChange old s).media = s.media ∧ (firnSourceChange old s).compute = s.compute ∧
    (firnSourceChange old s).eps = s.eps ∧ (firnSourceChange old s).repair = s.repair ∧
    (firnSourceChange old s).power = s.power ∧ (firnSourceChange old s).outbox = s.outbox := by
  unfold firnSourceChange
  (repeat' split) <;> simp

@[simp] theorem firnNewPlan_frame (p : Plan) (s : State) :
    SameCore (firnNewPlan p s) s ∧ (firnNewPlan p s).now = s.now ∧ (firnNewPlan p s).boot = s.boot ∧
    (firnNewPlan p s).linkA = s.linkA ∧ (firnNewPlan p s).linkB = s.linkB ∧ (firnNewPlan p s).ctrls = s.ctrls ∧
    (firnNewPlan p s).slots = s.slots ∧ (firnNewPlan p s).stillLog = s.stillLog ∧
    (firnNewPlan p s).staged = s.staged ∧ (firnNewPlan p s).nss = s.nss ∧ (firnNewPlan p s).media = s.media ∧
    (firnNewPlan p s).compute = s.compute ∧ (firnNewPlan p s).eps = s.eps ∧ (firnNewPlan p s).repair = s.repair ∧
    (firnNewPlan p s).power = s.power ∧ (firnNewPlan p s).outbox = s.outbox := by
  unfold firnNewPlan
  dsimp only
  (repeat' split) <;> simp

/-! ### HostOps -/

@[simp] theorem sendMsix_frame (f : Fn) (vector : Nat) (s : State) :
    SameCore (sendMsix f vector s) s ∧ (sendMsix f vector s).now = s.now ∧ (sendMsix f vector s).pins = s.pins ∧
    (sendMsix f vector s).boot = s.boot ∧ (sendMsix f vector s).firn = s.firn ∧
    (sendMsix f vector s).linkA = s.linkA ∧ (sendMsix f vector s).linkB = s.linkB ∧
    (sendMsix f vector s).slots = s.slots ∧ (sendMsix f vector s).stillLog = s.stillLog ∧
    (sendMsix f vector s).staged = s.staged ∧ (sendMsix f vector s).nss = s.nss ∧
    (sendMsix f vector s).media = s.media ∧ (sendMsix f vector s).compute = s.compute ∧
    (sendMsix f vector s).eps = s.eps ∧ (sendMsix f vector s).repair = s.repair ∧
    (sendMsix f vector s).power = s.power ∧ (sendMsix f vector s).rime = s.rime := by
  unfold sendMsix
  (repeat' split) <;> simp

@[simp] theorem interrupt_frame (f : Fn) (cqid vector : Nat) (s : State) :
    SameCore (interrupt f cqid vector s) s ∧ (interrupt f cqid vector s).now = s.now ∧
    (interrupt f cqid vector s).pins = s.pins ∧ (interrupt f cqid vector s).boot = s.boot ∧
    (interrupt f cqid vector s).firn = s.firn ∧ (interrupt f cqid vector s).linkA = s.linkA ∧
    (interrupt f cqid vector s).linkB = s.linkB ∧ (interrupt f cqid vector s).slots = s.slots ∧
    (interrupt f cqid vector s).stillLog = s.stillLog ∧ (interrupt f cqid vector s).staged = s.staged ∧
    (interrupt f cqid vector s).nss = s.nss ∧ (interrupt f cqid vector s).media = s.media ∧
    (interrupt f cqid vector s).compute = s.compute ∧ (interrupt f cqid vector s).eps = s.eps ∧
    (interrupt f cqid vector s).repair = s.repair ∧ (interrupt f cqid vector s).power = s.power ∧
    (interrupt f cqid vector s).rime = s.rime := by
  unfold interrupt
  dsimp only
  (repeat' split) <;> simp

@[simp] theorem postCqe_frame (f : Fn) (sqid cid : Nat) (st : Status) (dw0 : Nat) (s : State) :
    SameCore (postCqe f sqid cid st dw0 s) s ∧ (postCqe f sqid cid st dw0 s).now = s.now ∧
    (postCqe f sqid cid st dw0 s).pins = s.pins ∧ (postCqe f sqid cid st dw0 s).boot = s.boot ∧
    (postCqe f sqid cid st dw0 s).firn = s.firn ∧ (postCqe f sqid cid st dw0 s).linkA = s.linkA ∧
    (postCqe f sqid cid st dw0 s).linkB = s.linkB ∧ (postCqe f sqid cid st dw0 s).slots = s.slots ∧
    (postCqe f sqid cid st dw0 s).stillLog = s.stillLog ∧ (postCqe f sqid cid st dw0 s).staged = s.staged ∧
    (postCqe f sqid cid st dw0 s).nss = s.nss ∧ (postCqe f sqid cid st dw0 s).media = s.media ∧
    (postCqe f sqid cid st dw0 s).compute = s.compute ∧ (postCqe f sqid cid st dw0 s).eps = s.eps ∧
    (postCqe f sqid cid st dw0 s).repair = s.repair ∧ (postCqe f sqid cid st dw0 s).power = s.power ∧
    (postCqe f sqid cid st dw0 s).rime = s.rime := by
  unfold postCqe
  (repeat' split) <;> simp

@[simp] theorem giveBack_frame (sl : Slot) (s : State) :
    SameCore (giveBack sl s) s ∧ (giveBack sl s).now = s.now ∧ (giveBack sl s).pins = s.pins ∧
    (giveBack sl s).boot = s.boot ∧ (giveBack sl s).firn = s.firn ∧ (giveBack sl s).linkA = s.linkA ∧
    (giveBack sl s).linkB = s.linkB ∧ (giveBack sl s).ctrls = s.ctrls ∧ (giveBack sl s).slots = s.slots ∧
    (giveBack sl s).stillLog = s.stillLog ∧ (giveBack sl s).staged = s.staged ∧ (giveBack sl s).media = s.media ∧
    (giveBack sl s).compute = s.compute ∧ (giveBack sl s).eps = s.eps ∧ (giveBack sl s).repair = s.repair ∧
    (giveBack sl s).power = s.power ∧ (giveBack sl s).rime = s.rime ∧ (giveBack sl s).outbox = s.outbox := by
  unfold giveBack
  simp

@[simp] theorem dropStaged_frame (sl : Slot) (s : State) :
    SameCore (dropStaged sl s) s ∧ (dropStaged sl s).now = s.now ∧ (dropStaged sl s).pins = s.pins ∧
    (dropStaged sl s).boot = s.boot ∧ (dropStaged sl s).firn = s.firn ∧ (dropStaged sl s).linkA = s.linkA ∧
    (dropStaged sl s).linkB = s.linkB ∧ (dropStaged sl s).ctrls = s.ctrls ∧ (dropStaged sl s).slots = s.slots ∧
    (dropStaged sl s).stillLog = s.stillLog ∧ (dropStaged sl s).media = s.media ∧
    (dropStaged sl s).compute = s.compute ∧ (dropStaged sl s).eps = s.eps ∧ (dropStaged sl s).repair = s.repair ∧
    (dropStaged sl s).power = s.power ∧ (dropStaged sl s).rime = s.rime ∧ (dropStaged sl s).outbox = s.outbox := by
  unfold dropStaged
  exact ⟨⟨
      (foldl_keep (·.pending) _ (by simp) _ _).trans (by simp),
      (foldl_keep (·.pfail) _ (by simp) _ _).trans (by simp),
      (foldl_keep (·.holdup) _ (by simp) _ _).trans (by simp),
      (foldl_keep (·.asn) _ (by simp) _ _).trans (by simp),
      (foldl_keep (·.rrAdmin) _ (by simp) _ _).trans (by simp),
      (foldl_keep (·.rrUrgent) _ (by simp) _ _).trans (by simp),
      (foldl_keep (·.rrTenant) _ (by simp) _ _).trans (by simp),
      (foldl_keep (·.rrTurn) _ (by simp) _ _).trans (by simp),
      (foldl_keep (·.rrSq) _ (by simp) _ _).trans (by simp),
      (foldl_keep (·.twill) _ (by simp) _ _).trans (by simp),
      (foldl_keep (·.units) _ (by simp) _ _).trans (by simp),
      (foldl_keep (·.tenants) _ (by simp) _ _).trans (by simp),
      (foldl_keep (·.settings) _ (by simp) _ _).trans (by simp),
      (foldl_keep (·.owner) _ (by simp) _ _).trans (by simp),
      (foldl_keep (·.moraine) _ (by simp) _ _).trans (by simp),
      (foldl_keep (·.fw) _ (by simp) _ _).trans (by simp),
      (foldl_keep (·.tap) _ (by simp) _ _).trans (by simp),
      (foldl_keep (·.drawn) _ (by simp) _ _).trans (by simp),
      (foldl_keep (·.engines) _ (by simp) _ _).trans (by simp)⟩,
    (foldl_keep (·.now) _ (by simp) _ _).trans (by simp),
    (foldl_keep (·.pins) _ (by simp) _ _).trans (by simp),
    (foldl_keep (·.boot) _ (by simp) _ _).trans (by simp),
    (foldl_keep (·.firn) _ (by simp) _ _).trans (by simp),
    (foldl_keep (·.linkA) _ (by simp) _ _).trans (by simp),
    (foldl_keep (·.linkB) _ (by simp) _ _).trans (by simp),
    (foldl_keep (·.ctrls) _ (by simp) _ _).trans (by simp),
    (foldl_keep (·.slots) _ (by simp) _ _).trans (by simp),
    (foldl_keep (·.stillLog) _ (by simp) _ _).trans (by simp),
    (foldl_keep (·.media) _ (by simp) _ _).trans (by simp),
    (foldl_keep (·.compute) _ (by simp) _ _).trans (by simp),
    (foldl_keep (·.eps) _ (by simp) _ _).trans (by simp),
    (foldl_keep (·.repair) _ (by simp) _ _).trans (by simp),
    (foldl_keep (·.power) _ (by simp) _ _).trans (by simp),
    (foldl_keep (·.rime) _ (by simp) _ _).trans (by simp),
    (foldl_keep (·.outbox) _ (by simp) _ _).trans (by simp)⟩

@[simp] theorem dropReads_frame (mine : ReadUse → Bool) (s : State) :
    SameCore (dropReads mine s) s ∧ (dropReads mine s).now = s.now ∧ (dropReads mine s).pins = s.pins ∧
    (dropReads mine s).boot = s.boot ∧ (dropReads mine s).firn = s.firn ∧ (dropReads mine s).linkA = s.linkA ∧
    (dropReads mine s).linkB = s.linkB ∧ (dropReads mine s).ctrls = s.ctrls ∧ (dropReads mine s).slots = s.slots ∧
    (dropReads mine s).stillLog = s.stillLog ∧ (dropReads mine s).staged = s.staged ∧
    (dropReads mine s).nss = s.nss ∧ (dropReads mine s).compute = s.compute ∧ (dropReads mine s).eps = s.eps ∧
    (dropReads mine s).repair = s.repair ∧ (dropReads mine s).power = s.power ∧ (dropReads mine s).rime = s.rime ∧
    (dropReads mine s).outbox = s.outbox := by
  unfold dropReads
  simp

@[simp] theorem finish_frame (ix : Nat) (st : Status) (dw0 : Nat) (s : State) :
    SameCore (finish ix st dw0 s) s ∧ (finish ix st dw0 s).now = s.now ∧ (finish ix st dw0 s).pins = s.pins ∧
    (finish ix st dw0 s).boot = s.boot ∧ (finish ix st dw0 s).firn = s.firn ∧ (finish ix st dw0 s).linkA = s.linkA ∧
    (finish ix st dw0 s).linkB = s.linkB ∧ (finish ix st dw0 s).media = s.media ∧
    (finish ix st dw0 s).compute = s.compute ∧ (finish ix st dw0 s).eps = s.eps ∧
    (finish ix st dw0 s).repair = s.repair ∧ (finish ix st dw0 s).power = s.power ∧ (finish ix st dw0 s).rime = s.rime := by
  unfold finish
  (repeat' split) <;> simp

@[simp] theorem complete_frame (ix : Nat) (st : Status) (dw0 : Nat) (s : State) :
    SameCore (complete ix st dw0 s) s ∧ (complete ix st dw0 s).now = s.now ∧ (complete ix st dw0 s).pins = s.pins ∧
    (complete ix st dw0 s).boot = s.boot ∧ (complete ix st dw0 s).firn = s.firn ∧
    (complete ix st dw0 s).linkA = s.linkA ∧ (complete ix st dw0 s).linkB = s.linkB ∧
    (complete ix st dw0 s).media = s.media ∧ (complete ix st dw0 s).compute = s.compute ∧
    (complete ix st dw0 s).eps = s.eps ∧ (complete ix st dw0 s).repair = s.repair ∧
    (complete ix st dw0 s).power = s.power ∧ (complete ix st dw0 s).rime = s.rime := by
  unfold complete
  split
  · simp
  · split
    · simp
    · exact ⟨⟨
          (foldl_keep (·.pending) _ (by simp) _ _).trans (by simp),
          (foldl_keep (·.pfail) _ (by simp) _ _).trans (by simp),
          (foldl_keep (·.holdup) _ (by simp) _ _).trans (by simp),
          (foldl_keep (·.asn) _ (by simp) _ _).trans (by simp),
          (foldl_keep (·.rrAdmin) _ (by simp) _ _).trans (by simp),
          (foldl_keep (·.rrUrgent) _ (by simp) _ _).trans (by simp),
          (foldl_keep (·.rrTenant) _ (by simp) _ _).trans (by simp),
          (foldl_keep (·.rrTurn) _ (by simp) _ _).trans (by simp),
          (foldl_keep (·.rrSq) _ (by simp) _ _).trans (by simp),
          (foldl_keep (·.twill) _ (by simp) _ _).trans (by simp),
          (foldl_keep (·.units) _ (by simp) _ _).trans (by simp),
          (foldl_keep (·.tenants) _ (by simp) _ _).trans (by simp),
          (foldl_keep (·.settings) _ (by simp) _ _).trans (by simp),
          (foldl_keep (·.owner) _ (by simp) _ _).trans (by simp),
          (foldl_keep (·.moraine) _ (by simp) _ _).trans (by simp),
          (foldl_keep (·.fw) _ (by simp) _ _).trans (by simp),
          (foldl_keep (·.tap) _ (by simp) _ _).trans (by simp),
          (foldl_keep (·.drawn) _ (by simp) _ _).trans (by simp),
          (foldl_keep (·.engines) _ (by simp) _ _).trans (by simp)⟩,
        (foldl_keep (·.now) _ (by simp) _ _).trans (by simp),
        (foldl_keep (·.pins) _ (by simp) _ _).trans (by simp),
        (foldl_keep (·.boot) _ (by simp) _ _).trans (by simp),
        (foldl_keep (·.firn) _ (by simp) _ _).trans (by simp),
        (foldl_keep (·.linkA) _ (by simp) _ _).trans (by simp),
        (foldl_keep (·.linkB) _ (by simp) _ _).trans (by simp),
        (foldl_keep (·.media) _ (by simp) _ _).trans (by simp),
        (foldl_keep (·.compute) _ (by simp) _ _).trans (by simp),
        (foldl_keep (·.eps) _ (by simp) _ _).trans (by simp),
        (foldl_keep (·.repair) _ (by simp) _ _).trans (by simp),
        (foldl_keep (·.power) _ (by simp) _ _).trans (by simp),
        (foldl_keep (·.rime) _ (by simp) _ _).trans (by simp)⟩

@[simp] theorem completeAborted_frame (ix by_ dw0 : Nat) (s : State) :
    SameCore (completeAborted ix by_ dw0 s) s ∧ (completeAborted ix by_ dw0 s).now = s.now ∧
    (completeAborted ix by_ dw0 s).pins = s.pins ∧ (completeAborted ix by_ dw0 s).boot = s.boot ∧
    (completeAborted ix by_ dw0 s).firn = s.firn ∧ (completeAborted ix by_ dw0 s).linkA = s.linkA ∧
    (completeAborted ix by_ dw0 s).linkB = s.linkB ∧ (completeAborted ix by_ dw0 s).media = s.media ∧
    (completeAborted ix by_ dw0 s).compute = s.compute ∧ (completeAborted ix by_ dw0 s).eps = s.eps ∧
    (completeAborted ix by_ dw0 s).repair = s.repair ∧ (completeAborted ix by_ dw0 s).power = s.power ∧
    (completeAborted ix by_ dw0 s).rime = s.rime := by
  unfold completeAborted
  split
  · simp
  · exact ⟨⟨
        (foldl_keep (·.pending) _ (by simp) _ _).trans (by simp),
        (foldl_keep (·.pfail) _ (by simp) _ _).trans (by simp),
        (foldl_keep (·.holdup) _ (by simp) _ _).trans (by simp),
        (foldl_keep (·.asn) _ (by simp) _ _).trans (by simp),
        (foldl_keep (·.rrAdmin) _ (by simp) _ _).trans (by simp),
        (foldl_keep (·.rrUrgent) _ (by simp) _ _).trans (by simp),
        (foldl_keep (·.rrTenant) _ (by simp) _ _).trans (by simp),
        (foldl_keep (·.rrTurn) _ (by simp) _ _).trans (by simp),
        (foldl_keep (·.rrSq) _ (by simp) _ _).trans (by simp),
        (foldl_keep (·.twill) _ (by simp) _ _).trans (by simp),
        (foldl_keep (·.units) _ (by simp) _ _).trans (by simp),
        (foldl_keep (·.tenants) _ (by simp) _ _).trans (by simp),
        (foldl_keep (·.settings) _ (by simp) _ _).trans (by simp),
        (foldl_keep (·.owner) _ (by simp) _ _).trans (by simp),
        (foldl_keep (·.moraine) _ (by simp) _ _).trans (by simp),
        (foldl_keep (·.fw) _ (by simp) _ _).trans (by simp),
        (foldl_keep (·.tap) _ (by simp) _ _).trans (by simp),
        (foldl_keep (·.drawn) _ (by simp) _ _).trans (by simp),
        (foldl_keep (·.engines) _ (by simp) _ _).trans (by simp)⟩,
      (foldl_keep (·.now) _ (by simp) _ _).trans (by simp),
      (foldl_keep (·.pins) _ (by simp) _ _).trans (by simp),
      (foldl_keep (·.boot) _ (by simp) _ _).trans (by simp),
      (foldl_keep (·.firn) _ (by simp) _ _).trans (by simp),
      (foldl_keep (·.linkA) _ (by simp) _ _).trans (by simp),
      (foldl_keep (·.linkB) _ (by simp) _ _).trans (by simp),
      (foldl_keep (·.media) _ (by simp) _ _).trans (by simp),
      (foldl_keep (·.compute) _ (by simp) _ _).trans (by simp),
      (foldl_keep (·.eps) _ (by simp) _ _).trans (by simp),
      (foldl_keep (·.repair) _ (by simp) _ _).trans (by simp),
      (foldl_keep (·.power) _ (by simp) _ _).trans (by simp),
      (foldl_keep (·.rime) _ (by simp) _ _).trans (by simp)⟩

@[simp] theorem raiseEvent_frame (f : Fn) (ev : Event) (s : State) :
    SameCore (raiseEvent f ev s) s ∧ (raiseEvent f ev s).now = s.now ∧ (raiseEvent f ev s).pins = s.pins ∧
    (raiseEvent f ev s).boot = s.boot ∧ (raiseEvent f ev s).firn = s.firn ∧ (raiseEvent f ev s).linkA = s.linkA ∧
    (raiseEvent f ev s).linkB = s.linkB ∧ (raiseEvent f ev s).media = s.media ∧
    (raiseEvent f ev s).compute = s.compute ∧ (raiseEvent f ev s).eps = s.eps ∧
    (raiseEvent f ev s).repair = s.repair ∧ (raiseEvent f ev s).power = s.power ∧ (raiseEvent f ev s).rime = s.rime := by
  unfold raiseEvent
  (repeat' split) <;> simp

@[simp] theorem raiseAll_frame (p : Ctrl → Bool) (ev : Event) (s : State) :
    SameCore (raiseAll p ev s) s ∧ (raiseAll p ev s).now = s.now ∧ (raiseAll p ev s).pins = s.pins ∧
    (raiseAll p ev s).boot = s.boot ∧ (raiseAll p ev s).firn = s.firn ∧ (raiseAll p ev s).linkA = s.linkA ∧
    (raiseAll p ev s).linkB = s.linkB ∧ (raiseAll p ev s).media = s.media ∧ (raiseAll p ev s).compute = s.compute ∧
    (raiseAll p ev s).eps = s.eps ∧ (raiseAll p ev s).repair = s.repair ∧ (raiseAll p ev s).power = s.power ∧
    (raiseAll p ev s).rime = s.rime := by
  unfold raiseAll
  exact ⟨⟨
      (foldl_keep (·.pending) _ (by simp) _ _).trans (by simp),
      (foldl_keep (·.pfail) _ (by simp) _ _).trans (by simp),
      (foldl_keep (·.holdup) _ (by simp) _ _).trans (by simp),
      (foldl_keep (·.asn) _ (by simp) _ _).trans (by simp),
      (foldl_keep (·.rrAdmin) _ (by simp) _ _).trans (by simp),
      (foldl_keep (·.rrUrgent) _ (by simp) _ _).trans (by simp),
      (foldl_keep (·.rrTenant) _ (by simp) _ _).trans (by simp),
      (foldl_keep (·.rrTurn) _ (by simp) _ _).trans (by simp),
      (foldl_keep (·.rrSq) _ (by simp) _ _).trans (by simp),
      (foldl_keep (·.twill) _ (by simp) _ _).trans (by simp),
      (foldl_keep (·.units) _ (by simp) _ _).trans (by simp),
      (foldl_keep (·.tenants) _ (by simp) _ _).trans (by simp),
      (foldl_keep (·.settings) _ (by simp) _ _).trans (by simp),
      (foldl_keep (·.owner) _ (by simp) _ _).trans (by simp),
      (foldl_keep (·.moraine) _ (by simp) _ _).trans (by simp),
      (foldl_keep (·.fw) _ (by simp) _ _).trans (by simp),
      (foldl_keep (·.tap) _ (by simp) _ _).trans (by simp),
      (foldl_keep (·.drawn) _ (by simp) _ _).trans (by simp),
      (foldl_keep (·.engines) _ (by simp) _ _).trans (by simp)⟩,
    (foldl_keep (·.now) _ (by simp) _ _).trans (by simp),
    (foldl_keep (·.pins) _ (by simp) _ _).trans (by simp),
    (foldl_keep (·.boot) _ (by simp) _ _).trans (by simp),
    (foldl_keep (·.firn) _ (by simp) _ _).trans (by simp),
    (foldl_keep (·.linkA) _ (by simp) _ _).trans (by simp),
    (foldl_keep (·.linkB) _ (by simp) _ _).trans (by simp),
    (foldl_keep (·.media) _ (by simp) _ _).trans (by simp),
    (foldl_keep (·.compute) _ (by simp) _ _).trans (by simp),
    (foldl_keep (·.eps) _ (by simp) _ _).trans (by simp),
    (foldl_keep (·.repair) _ (by simp) _ _).trans (by simp),
    (foldl_keep (·.power) _ (by simp) _ _).trans (by simp),
    (foldl_keep (·.rime) _ (by simp) _ _).trans (by simp)⟩

@[simp] theorem raiseSmart_frame (s : State) :
    SameCore (raiseSmart s) s ∧ (raiseSmart s).now = s.now ∧ (raiseSmart s).pins = s.pins ∧
    (raiseSmart s).boot = s.boot ∧ (raiseSmart s).firn = s.firn ∧ (raiseSmart s).linkA = s.linkA ∧
    (raiseSmart s).linkB = s.linkB ∧ (raiseSmart s).media = s.media ∧ (raiseSmart s).compute = s.compute ∧
    (raiseSmart s).eps = s.eps ∧ (raiseSmart s).repair = s.repair ∧ (raiseSmart s).power = s.power ∧
    (raiseSmart s).rime = s.rime := by
  unfold raiseSmart
  simp

@[simp] theorem touchIdle_frame (s : State) :
    SameCore (touchIdle s) s ∧ (touchIdle s).now = s.now ∧ (touchIdle s).pins = s.pins ∧
    (touchIdle s).boot = s.boot ∧ (touchIdle s).firn = s.firn ∧ (touchIdle s).linkA = s.linkA ∧
    (touchIdle s).linkB = s.linkB ∧ (touchIdle s).ctrls = s.ctrls ∧ (touchIdle s).slots = s.slots ∧
    (touchIdle s).stillLog = s.stillLog ∧ (touchIdle s).staged = s.staged ∧ (touchIdle s).nss = s.nss ∧
    (touchIdle s).media = s.media ∧ (touchIdle s).compute = s.compute ∧ (touchIdle s).eps = s.eps ∧
    (touchIdle s).repair = s.repair ∧ (touchIdle s).rime = s.rime ∧ (touchIdle s).outbox = s.outbox := by
  unfold touchIdle
  simp

@[simp] theorem takeAsn_frame (s : State) :
    (takeAsn s).now = s.now ∧ (takeAsn s).pending = s.pending ∧ (takeAsn s).pins = s.pins ∧
    (takeAsn s).boot = s.boot ∧ (takeAsn s).pfail = s.pfail ∧ (takeAsn s).holdup = s.holdup ∧
    (takeAsn s).firn = s.firn ∧ (takeAsn s).linkA = s.linkA ∧ (takeAsn s).linkB = s.linkB ∧
    (takeAsn s).ctrls = s.ctrls ∧ (takeAsn s).slots = s.slots ∧ (takeAsn s).stillLog = s.stillLog ∧
    (takeAsn s).rrAdmin = s.rrAdmin ∧ (takeAsn s).rrUrgent = s.rrUrgent ∧ (takeAsn s).rrTenant = s.rrTenant ∧
    (takeAsn s).rrTurn = s.rrTurn ∧ (takeAsn s).rrSq = s.rrSq ∧ (takeAsn s).staged = s.staged ∧
    (takeAsn s).nss = s.nss ∧ (takeAsn s).media = s.media ∧ (takeAsn s).compute = s.compute ∧
    (takeAsn s).engines = s.engines ∧ (takeAsn s).twill = s.twill ∧ (takeAsn s).units = s.units ∧
    (takeAsn s).tenants = s.tenants ∧ (takeAsn s).settings = s.settings ∧ (takeAsn s).eps = s.eps ∧
    (takeAsn s).owner = s.owner ∧ (takeAsn s).repair = s.repair ∧ (takeAsn s).power = s.power ∧
    (takeAsn s).rime = s.rime ∧ (takeAsn s).moraine = s.moraine ∧ (takeAsn s).fw = s.fw ∧ (takeAsn s).tap = s.tap ∧
    (takeAsn s).outbox = s.outbox ∧ (takeAsn s).drawn = s.drawn := by
  unfold takeAsn
  simp

/-! ### MediaOps -/

@[simp] theorem askPages_frame (nsid : Nat) (pages : List Nat) (s : State) :
    SameCore (askPages nsid pages s) s ∧ (askPages nsid pages s).now = s.now ∧
    (askPages nsid pages s).pins = s.pins ∧ (askPages nsid pages s).boot = s.boot ∧
    (askPages nsid pages s).firn = s.firn ∧ (askPages nsid pages s).linkA = s.linkA ∧
    (askPages nsid pages s).linkB = s.linkB ∧ (askPages nsid pages s).ctrls = s.ctrls ∧
    (askPages nsid pages s).slots = s.slots ∧ (askPages nsid pages s).stillLog = s.stillLog ∧
    (askPages nsid pages s).staged = s.staged ∧ (askPages nsid pages s).media = s.media ∧
    (askPages nsid pages s).compute = s.compute ∧ (askPages nsid pages s).eps = s.eps ∧
    (askPages nsid pages s).repair = s.repair ∧ (askPages nsid pages s).power = s.power ∧
    (askPages nsid pages s).rime = s.rime ∧ (askPages nsid pages s).outbox = s.outbox := by
  unfold askPages
  simp

@[simp] theorem touchPages_frame (nsid : Nat) (pages : List Nat) (s : State) :
    SameCore (touchPages nsid pages s) s ∧ (touchPages nsid pages s).now = s.now ∧
    (touchPages nsid pages s).pins = s.pins ∧ (touchPages nsid pages s).boot = s.boot ∧
    (touchPages nsid pages s).firn = s.firn ∧ (touchPages nsid pages s).linkA = s.linkA ∧
    (touchPages nsid pages s).linkB = s.linkB ∧ (touchPages nsid pages s).ctrls = s.ctrls ∧
    (touchPages nsid pages s).slots = s.slots ∧ (touchPages nsid pages s).stillLog = s.stillLog ∧
    (touchPages nsid pages s).staged = s.staged ∧ (touchPages nsid pages s).media = s.media ∧
    (touchPages nsid pages s).compute = s.compute ∧ (touchPages nsid pages s).eps = s.eps ∧
    (touchPages nsid pages s).repair = s.repair ∧ (touchPages nsid pages s).power = s.power ∧
    (touchPages nsid pages s).rime = s.rime ∧ (touchPages nsid pages s).outbox = s.outbox := by
  unfold touchPages
  simp

@[simp] theorem reserveWrite_frame (what num : Nat) (bytes : List Byte) (s : State) :
    SameCore (reserveWrite what num bytes s) s ∧ (reserveWrite what num bytes s).now = s.now ∧
    (reserveWrite what num bytes s).pins = s.pins ∧ (reserveWrite what num bytes s).boot = s.boot ∧
    (reserveWrite what num bytes s).firn = s.firn ∧ (reserveWrite what num bytes s).linkA = s.linkA ∧
    (reserveWrite what num bytes s).linkB = s.linkB ∧ (reserveWrite what num bytes s).ctrls = s.ctrls ∧
    (reserveWrite what num bytes s).slots = s.slots ∧ (reserveWrite what num bytes s).stillLog = s.stillLog ∧
    (reserveWrite what num bytes s).staged = s.staged ∧ (reserveWrite what num bytes s).nss = s.nss ∧
    (reserveWrite what num bytes s).compute = s.compute ∧ (reserveWrite what num bytes s).eps = s.eps ∧
    (reserveWrite what num bytes s).repair = s.repair ∧ (reserveWrite what num bytes s).power = s.power ∧
    (reserveWrite what num bytes s).rime = s.rime ∧ (reserveWrite what num bytes s).outbox = s.outbox := by
  unfold reserveWrite
  simp

@[simp] theorem reservePages_frame (what first : Nat) (bytes : List Byte) (s : State) :
    SameCore (reservePages what first bytes s) s ∧ (reservePages what first bytes s).now = s.now ∧
    (reservePages what first bytes s).pins = s.pins ∧ (reservePages what first bytes s).boot = s.boot ∧
    (reservePages what first bytes s).firn = s.firn ∧ (reservePages what first bytes s).linkA = s.linkA ∧
    (reservePages what first bytes s).linkB = s.linkB ∧ (reservePages what first bytes s).ctrls = s.ctrls ∧
    (reservePages what first bytes s).slots = s.slots ∧ (reservePages what first bytes s).stillLog = s.stillLog ∧
    (reservePages what first bytes s).staged = s.staged ∧ (reservePages what first bytes s).nss = s.nss ∧
    (reservePages what first bytes s).compute = s.compute ∧ (reservePages what first bytes s).eps = s.eps ∧
    (reservePages what first bytes s).repair = s.repair ∧ (reservePages what first bytes s).power = s.power ∧
    (reservePages what first bytes s).rime = s.rime ∧ (reservePages what first bytes s).outbox = s.outbox := by
  unfold reservePages
  exact ⟨⟨
      (foldl_keep (·.pending) _ (by simp) _ _).trans (by simp),
      (foldl_keep (·.pfail) _ (by simp) _ _).trans (by simp),
      (foldl_keep (·.holdup) _ (by simp) _ _).trans (by simp),
      (foldl_keep (·.asn) _ (by simp) _ _).trans (by simp),
      (foldl_keep (·.rrAdmin) _ (by simp) _ _).trans (by simp),
      (foldl_keep (·.rrUrgent) _ (by simp) _ _).trans (by simp),
      (foldl_keep (·.rrTenant) _ (by simp) _ _).trans (by simp),
      (foldl_keep (·.rrTurn) _ (by simp) _ _).trans (by simp),
      (foldl_keep (·.rrSq) _ (by simp) _ _).trans (by simp),
      (foldl_keep (·.twill) _ (by simp) _ _).trans (by simp),
      (foldl_keep (·.units) _ (by simp) _ _).trans (by simp),
      (foldl_keep (·.tenants) _ (by simp) _ _).trans (by simp),
      (foldl_keep (·.settings) _ (by simp) _ _).trans (by simp),
      (foldl_keep (·.owner) _ (by simp) _ _).trans (by simp),
      (foldl_keep (·.moraine) _ (by simp) _ _).trans (by simp),
      (foldl_keep (·.fw) _ (by simp) _ _).trans (by simp),
      (foldl_keep (·.tap) _ (by simp) _ _).trans (by simp),
      (foldl_keep (·.drawn) _ (by simp) _ _).trans (by simp),
      (foldl_keep (·.engines) _ (by simp) _ _).trans (by simp)⟩,
    (foldl_keep (·.now) _ (by simp) _ _).trans (by simp),
    (foldl_keep (·.pins) _ (by simp) _ _).trans (by simp),
    (foldl_keep (·.boot) _ (by simp) _ _).trans (by simp),
    (foldl_keep (·.firn) _ (by simp) _ _).trans (by simp),
    (foldl_keep (·.linkA) _ (by simp) _ _).trans (by simp),
    (foldl_keep (·.linkB) _ (by simp) _ _).trans (by simp),
    (foldl_keep (·.ctrls) _ (by simp) _ _).trans (by simp),
    (foldl_keep (·.slots) _ (by simp) _ _).trans (by simp),
    (foldl_keep (·.stillLog) _ (by simp) _ _).trans (by simp),
    (foldl_keep (·.staged) _ (by simp) _ _).trans (by simp),
    (foldl_keep (·.nss) _ (by simp) _ _).trans (by simp),
    (foldl_keep (·.compute) _ (by simp) _ _).trans (by simp),
    (foldl_keep (·.eps) _ (by simp) _ _).trans (by simp),
    (foldl_keep (·.repair) _ (by simp) _ _).trans (by simp),
    (foldl_keep (·.power) _ (by simp) _ _).trans (by simp),
    (foldl_keep (·.rime) _ (by simp) _ _).trans (by simp),
    (foldl_keep (·.outbox) _ (by simp) _ _).trans (by simp)⟩

@[simp] theorem flushPiece_frame (image : Nat) (p : Staged) (s : State) :
    SameCore (flushPiece image p s) s ∧ (flushPiece image p s).now = s.now ∧ (flushPiece image p s).pins = s.pins ∧
    (flushPiece image p s).boot = s.boot ∧ (flushPiece image p s).firn = s.firn ∧
    (flushPiece image p s).linkA = s.linkA ∧ (flushPiece image p s).linkB = s.linkB ∧
    (flushPiece image p s).ctrls = s.ctrls ∧ (flushPiece image p s).slots = s.slots ∧
    (flushPiece image p s).stillLog = s.stillLog ∧ (flushPiece image p s).staged = s.staged ∧
    (flushPiece image p s).nss = s.nss ∧ (flushPiece image p s).compute = s.compute ∧
    (flushPiece image p s).eps = s.eps ∧ (flushPiece image p s).repair = s.repair ∧
    (flushPiece image p s).power = s.power ∧ (flushPiece image p s).rime = s.rime ∧
    (flushPiece image p s).outbox = s.outbox := by
  unfold flushPiece
  simp

@[simp] theorem rimeWritten_frame (s : State) :
    SameCore (rimeWritten s) s ∧ (rimeWritten s).now = s.now ∧ (rimeWritten s).boot = s.boot ∧
    (rimeWritten s).firn = s.firn ∧ (rimeWritten s).linkA = s.linkA ∧ (rimeWritten s).linkB = s.linkB ∧
    (rimeWritten s).ctrls = s.ctrls ∧ (rimeWritten s).slots = s.slots ∧ (rimeWritten s).stillLog = s.stillLog ∧
    (rimeWritten s).staged = s.staged ∧ (rimeWritten s).nss = s.nss ∧ (rimeWritten s).compute = s.compute ∧
    (rimeWritten s).eps = s.eps ∧ (rimeWritten s).repair = s.repair ∧ (rimeWritten s).power = s.power ∧
    (rimeWritten s).outbox = s.outbox := by
  unfold rimeWritten
  simp

@[simp] theorem keepFor_frame (nsid lba : Nat) (old new : Nat × List Byte) (dropped : Bool) (s : State) :
    SameCore (keepFor nsid lba old new dropped s) s ∧ (keepFor nsid lba old new dropped s).now = s.now ∧
    (keepFor nsid lba old new dropped s).pins = s.pins ∧ (keepFor nsid lba old new dropped s).boot = s.boot ∧
    (keepFor nsid lba old new dropped s).firn = s.firn ∧ (keepFor nsid lba old new dropped s).linkA = s.linkA ∧
    (keepFor nsid lba old new dropped s).linkB = s.linkB ∧ (keepFor nsid lba old new dropped s).ctrls = s.ctrls ∧
    (keepFor nsid lba old new dropped s).stillLog = s.stillLog ∧
    (keepFor nsid lba old new dropped s).staged = s.staged ∧ (keepFor nsid lba old new dropped s).nss = s.nss ∧
    (keepFor nsid lba old new dropped s).media = s.media ∧ (keepFor nsid lba old new dropped s).compute = s.compute ∧
    (keepFor nsid lba old new dropped s).eps = s.eps ∧ (keepFor nsid lba old new dropped s).repair = s.repair ∧
    (keepFor nsid lba old new dropped s).power = s.power ∧ (keepFor nsid lba old new dropped s).rime = s.rime ∧
    (keepFor nsid lba old new dropped s).outbox = s.outbox := by
  unfold keepFor
  simp

@[simp] theorem takeCharge_frame (nsid : Nat) (charge : List (Nat × Nat)) (s : State) :
    SameCore (takeCharge nsid charge s) s ∧ (takeCharge nsid charge s).now = s.now ∧
    (takeCharge nsid charge s).pins = s.pins ∧ (takeCharge nsid charge s).boot = s.boot ∧
    (takeCharge nsid charge s).firn = s.firn ∧ (takeCharge nsid charge s).linkA = s.linkA ∧
    (takeCharge nsid charge s).linkB = s.linkB ∧ (takeCharge nsid charge s).ctrls = s.ctrls ∧
    (takeCharge nsid charge s).slots = s.slots ∧ (takeCharge nsid charge s).stillLog = s.stillLog ∧
    (takeCharge nsid charge s).staged = s.staged ∧ (takeCharge nsid charge s).media = s.media ∧
    (takeCharge nsid charge s).compute = s.compute ∧ (takeCharge nsid charge s).eps = s.eps ∧
    (takeCharge nsid charge s).repair = s.repair ∧ (takeCharge nsid charge s).power = s.power ∧
    (takeCharge nsid charge s).rime = s.rime ∧ (takeCharge nsid charge s).outbox = s.outbox := by
  unfold takeCharge
  simp

@[simp] theorem setLeanLimits_frame (s : State) :
    SameCore (setLeanLimits s) s ∧ (setLeanLimits s).now = s.now ∧ (setLeanLimits s).pins = s.pins ∧
    (setLeanLimits s).boot = s.boot ∧ (setLeanLimits s).firn = s.firn ∧ (setLeanLimits s).linkA = s.linkA ∧
    (setLeanLimits s).linkB = s.linkB ∧ (setLeanLimits s).ctrls = s.ctrls ∧ (setLeanLimits s).slots = s.slots ∧
    (setLeanLimits s).stillLog = s.stillLog ∧ (setLeanLimits s).staged = s.staged ∧
    (setLeanLimits s).media = s.media ∧ (setLeanLimits s).compute = s.compute ∧ (setLeanLimits s).eps = s.eps ∧
    (setLeanLimits s).repair = s.repair ∧ (setLeanLimits s).power = s.power ∧ (setLeanLimits s).rime = s.rime ∧
    (setLeanLimits s).outbox = s.outbox := by
  unfold setLeanLimits
  simp

@[simp] theorem enterDevState_frame (d : DevState) (cause : Nat) (s : State) :
    SameCore (enterDevState d cause s) s ∧ (enterDevState d cause s).now = s.now ∧
    (enterDevState d cause s).boot = s.boot ∧ (enterDevState d cause s).firn = s.firn ∧
    (enterDevState d cause s).linkA = s.linkA ∧ (enterDevState d cause s).linkB = s.linkB ∧
    (enterDevState d cause s).compute = s.compute ∧ (enterDevState d cause s).eps = s.eps ∧
    (enterDevState d cause s).repair = s.repair ∧ (enterDevState d cause s).power = s.power := by
  unfold enterDevState
  simp

@[simp] theorem failUncommitted_frame (but : Option Nat) (s : State) :
    SameCore (failUncommitted but s) s ∧ (failUncommitted but s).now = s.now ∧
    (failUncommitted but s).pins = s.pins ∧ (failUncommitted but s).boot = s.boot ∧
    (failUncommitted but s).firn = s.firn ∧ (failUncommitted but s).linkA = s.linkA ∧
    (failUncommitted but s).linkB = s.linkB ∧ (failUncommitted but s).media = s.media ∧
    (failUncommitted but s).compute = s.compute ∧ (failUncommitted but s).eps = s.eps ∧
    (failUncommitted but s).repair = s.repair ∧ (failUncommitted but s).power = s.power ∧
    (failUncommitted but s).rime = s.rime := by
  unfold failUncommitted
  exact ⟨⟨
      (foldl_keep (·.pending) _ (by simp) _ _).trans (by simp),
      (foldl_keep (·.pfail) _ (by simp) _ _).trans (by simp),
      (foldl_keep (·.holdup) _ (by simp) _ _).trans (by simp),
      (foldl_keep (·.asn) _ (by simp) _ _).trans (by simp),
      (foldl_keep (·.rrAdmin) _ (by simp) _ _).trans (by simp),
      (foldl_keep (·.rrUrgent) _ (by simp) _ _).trans (by simp),
      (foldl_keep (·.rrTenant) _ (by simp) _ _).trans (by simp),
      (foldl_keep (·.rrTurn) _ (by simp) _ _).trans (by simp),
      (foldl_keep (·.rrSq) _ (by simp) _ _).trans (by simp),
      (foldl_keep (·.twill) _ (by simp) _ _).trans (by simp),
      (foldl_keep (·.units) _ (by simp) _ _).trans (by simp),
      (foldl_keep (·.tenants) _ (by simp) _ _).trans (by simp),
      (foldl_keep (·.settings) _ (by simp) _ _).trans (by simp),
      (foldl_keep (·.owner) _ (by simp) _ _).trans (by simp),
      (foldl_keep (·.moraine) _ (by simp) _ _).trans (by simp),
      (foldl_keep (·.fw) _ (by simp) _ _).trans (by simp),
      (foldl_keep (·.tap) _ (by simp) _ _).trans (by simp),
      (foldl_keep (·.drawn) _ (by simp) _ _).trans (by simp),
      (foldl_keep (·.engines) _ (by simp) _ _).trans (by simp)⟩,
    (foldl_keep (·.now) _ (by simp) _ _).trans (by simp),
    (foldl_keep (·.pins) _ (by simp) _ _).trans (by simp),
    (foldl_keep (·.boot) _ (by simp) _ _).trans (by simp),
    (foldl_keep (·.firn) _ (by simp) _ _).trans (by simp),
    (foldl_keep (·.linkA) _ (by simp) _ _).trans (by simp),
    (foldl_keep (·.linkB) _ (by simp) _ _).trans (by simp),
    (foldl_keep (·.media) _ (by simp) _ _).trans (by simp),
    (foldl_keep (·.compute) _ (by simp) _ _).trans (by simp),
    (foldl_keep (·.eps) _ (by simp) _ _).trans (by simp),
    (foldl_keep (·.repair) _ (by simp) _ _).trans (by simp),
    (foldl_keep (·.power) _ (by simp) _ _).trans (by simp),
    (foldl_keep (·.rime) _ (by simp) _ _).trans (by simp)⟩

@[simp] theorem checkDevState_frame (but : Option Nat) (s : State) :
    SameCore (checkDevState but s) s ∧ (checkDevState but s).now = s.now ∧ (checkDevState but s).boot = s.boot ∧
    (checkDevState but s).firn = s.firn ∧ (checkDevState but s).linkA = s.linkA ∧
    (checkDevState but s).linkB = s.linkB ∧ (checkDevState but s).compute = s.compute ∧
    (checkDevState but s).eps = s.eps ∧ (checkDevState but s).repair = s.repair ∧
    (checkDevState but s).power = s.power := by
  unfold checkDevState
  dsimp only
  (repeat' split) <;> simp

@[simp] theorem enterDamaged_frame (nsid lba : Nat) (s : State) :
    SameCore (enterDamaged nsid lba s) s ∧ (enterDamaged nsid lba s).now = s.now ∧
    (enterDamaged nsid lba s).boot = s.boot ∧ (enterDamaged nsid lba s).firn = s.firn ∧
    (enterDamaged nsid lba s).linkA = s.linkA ∧ (enterDamaged nsid lba s).linkB = s.linkB ∧
    (enterDamaged nsid lba s).compute = s.compute ∧ (enterDamaged nsid lba s).eps = s.eps ∧
    (enterDamaged nsid lba s).repair = s.repair ∧ (enterDamaged nsid lba s).power = s.power := by
  unfold enterDamaged
  (repeat' split) <;> simp

@[simp] theorem blocksLost_frame (but : Option Nat) (s : State) :
    SameCore (blocksLost but s) s ∧ (blocksLost but s).now = s.now ∧ (blocksLost but s).boot = s.boot ∧
    (blocksLost but s).firn = s.firn ∧ (blocksLost but s).linkA = s.linkA ∧ (blocksLost but s).linkB = s.linkB ∧
    (blocksLost but s).compute = s.compute ∧ (blocksLost but s).eps = s.eps ∧ (blocksLost but s).repair = s.repair ∧
    (blocksLost but s).power = s.power := by
  unfold blocksLost
  (repeat' split) <;> simp

@[simp] theorem setBlock_frame (d : DieId) (num : Nat) (g : Block → Block) (s : State) :
    SameCore (setBlock d num g s) s ∧ (setBlock d num g s).now = s.now ∧ (setBlock d num g s).pins = s.pins ∧
    (setBlock d num g s).boot = s.boot ∧ (setBlock d num g s).firn = s.firn ∧ (setBlock d num g s).linkA = s.linkA ∧
    (setBlock d num g s).linkB = s.linkB ∧ (setBlock d num g s).ctrls = s.ctrls ∧
    (setBlock d num g s).slots = s.slots ∧ (setBlock d num g s).stillLog = s.stillLog ∧
    (setBlock d num g s).staged = s.staged ∧ (setBlock d num g s).nss = s.nss ∧
    (setBlock d num g s).compute = s.compute ∧ (setBlock d num g s).eps = s.eps ∧
    (setBlock d num g s).repair = s.repair ∧ (setBlock d num g s).power = s.power ∧
    (setBlock d num g s).rime = s.rime ∧ (setBlock d num g s).outbox = s.outbox := by
  unfold setBlock
  simp

@[simp] theorem queueRefresh_frame (d : DieId) (num : Nat) (s : State) :
    SameCore (queueRefresh d num s) s ∧ (queueRefresh d num s).now = s.now ∧ (queueRefresh d num s).pins = s.pins ∧
    (queueRefresh d num s).boot = s.boot ∧ (queueRefresh d num s).firn = s.firn ∧
    (queueRefresh d num s).linkA = s.linkA ∧ (queueRefresh d num s).linkB = s.linkB ∧
    (queueRefresh d num s).ctrls = s.ctrls ∧ (queueRefresh d num s).slots = s.slots ∧
    (queueRefresh d num s).stillLog = s.stillLog ∧ (queueRefresh d num s).staged = s.staged ∧
    (queueRefresh d num s).nss = s.nss ∧ (queueRefresh d num s).compute = s.compute ∧
    (queueRefresh d num s).eps = s.eps ∧ (queueRefresh d num s).repair = s.repair ∧
    (queueRefresh d num s).power = s.power ∧ (queueRefresh d num s).rime = s.rime ∧
    (queueRefresh d num s).outbox = s.outbox := by
  unfold queueRefresh
  (repeat' split) <;> simp

@[simp] theorem countRead_frame (d : DieId) (num : Nat) (s : State) :
    SameCore (countRead d num s) s ∧ (countRead d num s).now = s.now ∧ (countRead d num s).pins = s.pins ∧
    (countRead d num s).boot = s.boot ∧ (countRead d num s).firn = s.firn ∧ (countRead d num s).linkA = s.linkA ∧
    (countRead d num s).linkB = s.linkB ∧ (countRead d num s).ctrls = s.ctrls ∧ (countRead d num s).slots = s.slots ∧
    (countRead d num s).stillLog = s.stillLog ∧ (countRead d num s).staged = s.staged ∧
    (countRead d num s).nss = s.nss ∧ (countRead d num s).compute = s.compute ∧ (countRead d num s).eps = s.eps ∧
    (countRead d num s).repair = s.repair ∧ (countRead d num s).power = s.power ∧ (countRead d num s).rime = s.rime ∧
    (countRead d num s).outbox = s.outbox := by
  unfold countRead
  dsimp only
  (repeat' split) <;> simp

@[simp] theorem setBand_frame (serial : Nat) (g : Band → Band) (s : State) :
    SameCore (setBand serial g s) s ∧ (setBand serial g s).now = s.now ∧ (setBand serial g s).pins = s.pins ∧
    (setBand serial g s).boot = s.boot ∧ (setBand serial g s).firn = s.firn ∧ (setBand serial g s).linkA = s.linkA ∧
    (setBand serial g s).linkB = s.linkB ∧ (setBand serial g s).ctrls = s.ctrls ∧
    (setBand serial g s).slots = s.slots ∧ (setBand serial g s).stillLog = s.stillLog ∧
    (setBand serial g s).staged = s.staged ∧ (setBand serial g s).nss = s.nss ∧
    (setBand serial g s).compute = s.compute ∧ (setBand serial g s).eps = s.eps ∧
    (setBand serial g s).repair = s.repair ∧ (setBand serial g s).power = s.power ∧
    (setBand serial g s).rime = s.rime ∧ (setBand serial g s).outbox = s.outbox := by
  unfold setBand
  simp

@[simp] theorem moveReserve_frame (s : State) :
    SameCore (moveReserve s) s ∧ (moveReserve s).now = s.now ∧ (moveReserve s).pins = s.pins ∧
    (moveReserve s).boot = s.boot ∧ (moveReserve s).firn = s.firn ∧ (moveReserve s).linkA = s.linkA ∧
    (moveReserve s).linkB = s.linkB ∧ (moveReserve s).ctrls = s.ctrls ∧ (moveReserve s).slots = s.slots ∧
    (moveReserve s).stillLog = s.stillLog ∧ (moveReserve s).staged = s.staged ∧ (moveReserve s).nss = s.nss ∧
    (moveReserve s).compute = s.compute ∧ (moveReserve s).eps = s.eps ∧ (moveReserve s).repair = s.repair ∧
    (moveReserve s).power = s.power ∧ (moveReserve s).rime = s.rime ∧ (moveReserve s).outbox = s.outbox := by
  unfold moveReserve
  exact ⟨⟨
      (foldl_keep (·.pending) _ (fun _ _ => by
        dsimp only
        (repeat' split) <;> simp) _ _).trans (by simp),
      (foldl_keep (·.pfail) _ (fun _ _ => by
        dsimp only
        (repeat' split) <;> simp) _ _).trans (by simp),
      (foldl_keep (·.holdup) _ (fun _ _ => by
        dsimp only
        (repeat' split) <;> simp) _ _).trans (by simp),
      (foldl_keep (·.asn) _ (fun _ _ => by
        dsimp only
        (repeat' split) <;> simp) _ _).trans (by simp),
      (foldl_keep (·.rrAdmin) _ (fun _ _ => by
        dsimp only
        (repeat' split) <;> simp) _ _).trans (by simp),
      (foldl_keep (·.rrUrgent) _ (fun _ _ => by
        dsimp only
        (repeat' split) <;> simp) _ _).trans (by simp),
      (foldl_keep (·.rrTenant) _ (fun _ _ => by
        dsimp only
        (repeat' split) <;> simp) _ _).trans (by simp),
      (foldl_keep (·.rrTurn) _ (fun _ _ => by
        dsimp only
        (repeat' split) <;> simp) _ _).trans (by simp),
      (foldl_keep (·.rrSq) _ (fun _ _ => by
        dsimp only
        (repeat' split) <;> simp) _ _).trans (by simp),
      (foldl_keep (·.twill) _ (fun _ _ => by
        dsimp only
        (repeat' split) <;> simp) _ _).trans (by simp),
      (foldl_keep (·.units) _ (fun _ _ => by
        dsimp only
        (repeat' split) <;> simp) _ _).trans (by simp),
      (foldl_keep (·.tenants) _ (fun _ _ => by
        dsimp only
        (repeat' split) <;> simp) _ _).trans (by simp),
      (foldl_keep (·.settings) _ (fun _ _ => by
        dsimp only
        (repeat' split) <;> simp) _ _).trans (by simp),
      (foldl_keep (·.owner) _ (fun _ _ => by
        dsimp only
        (repeat' split) <;> simp) _ _).trans (by simp),
      (foldl_keep (·.moraine) _ (fun _ _ => by
        dsimp only
        (repeat' split) <;> simp) _ _).trans (by simp),
      (foldl_keep (·.fw) _ (fun _ _ => by
        dsimp only
        (repeat' split) <;> simp) _ _).trans (by simp),
      (foldl_keep (·.tap) _ (fun _ _ => by
        dsimp only
        (repeat' split) <;> simp) _ _).trans (by simp),
      (foldl_keep (·.drawn) _ (fun _ _ => by
        dsimp only
        (repeat' split) <;> simp) _ _).trans (by simp),
      (foldl_keep (·.engines) _ (fun _ _ => by
        dsimp only
        (repeat' split) <;> simp) _ _).trans (by simp)⟩,
    (foldl_keep (·.now) _ (fun _ _ => by
        dsimp only
        (repeat' split) <;> simp) _ _).trans (by simp),
    (foldl_keep (·.pins) _ (fun _ _ => by
        dsimp only
        (repeat' split) <;> simp) _ _).trans (by simp),
    (foldl_keep (·.boot) _ (fun _ _ => by
        dsimp only
        (repeat' split) <;> simp) _ _).trans (by simp),
    (foldl_keep (·.firn) _ (fun _ _ => by
        dsimp only
        (repeat' split) <;> simp) _ _).trans (by simp),
    (foldl_keep (·.linkA) _ (fun _ _ => by
        dsimp only
        (repeat' split) <;> simp) _ _).trans (by simp),
    (foldl_keep (·.linkB) _ (fun _ _ => by
        dsimp only
        (repeat' split) <;> simp) _ _).trans (by simp),
    (foldl_keep (·.ctrls) _ (fun _ _ => by
        dsimp only
        (repeat' split) <;> simp) _ _).trans (by simp),
    (foldl_keep (·.slots) _ (fun _ _ => by
        dsimp only
        (repeat' split) <;> simp) _ _).trans (by simp),
    (foldl_keep (·.stillLog) _ (fun _ _ => by
        dsimp only
        (repeat' split) <;> simp) _ _).trans (by simp),
    (foldl_keep (·.staged) _ (fun _ _ => by
        dsimp only
        (repeat' split) <;> simp) _ _).trans (by simp),
    (foldl_keep (·.nss) _ (fun _ _ => by
        dsimp only
        (repeat' split) <;> simp) _ _).trans (by simp),
    (foldl_keep (·.compute) _ (fun _ _ => by
        dsimp only
        (repeat' split) <;> simp) _ _).trans (by simp),
    (foldl_keep (·.eps) _ (fun _ _ => by
        dsimp only
        (repeat' split) <;> simp) _ _).trans (by simp),
    (foldl_keep (·.repair) _ (fun _ _ => by
        dsimp only
        (repeat' split) <;> simp) _ _).trans (by simp),
    (foldl_keep (·.power) _ (fun _ _ => by
        dsimp only
        (repeat' split) <;> simp) _ _).trans (by simp),
    (foldl_keep (·.rime) _ (fun _ _ => by
        dsimp only
        (repeat' split) <;> simp) _ _).trans (by simp),
    (foldl_keep (·.outbox) _ (fun _ _ => by
        dsimp only
        (repeat' split) <;> simp) _ _).trans (by simp)⟩

@[simp] theorem dropWaiting_frame (d : DieId) (o : DieOp) (s : State) :
    SameCore (dropWaiting d o s) s ∧ (dropWaiting d o s).now = s.now ∧ (dropWaiting d o s).pins = s.pins ∧
    (dropWaiting d o s).boot = s.boot ∧ (dropWaiting d o s).firn = s.firn ∧ (dropWaiting d o s).linkA = s.linkA ∧
    (dropWaiting d o s).linkB = s.linkB ∧ (dropWaiting d o s).ctrls = s.ctrls ∧ (dropWaiting d o s).slots = s.slots ∧
    (dropWaiting d o s).stillLog = s.stillLog ∧ (dropWaiting d o s).staged = s.staged ∧
    (dropWaiting d o s).nss = s.nss ∧ (dropWaiting d o s).compute = s.compute ∧ (dropWaiting d o s).eps = s.eps ∧
    (dropWaiting d o s).repair = s.repair ∧ (dropWaiting d o s).power = s.power ∧ (dropWaiting d o s).rime = s.rime ∧
    (dropWaiting d o s).outbox = s.outbox := by
  unfold dropWaiting
  simp

@[simp] theorem dieStart_frame (d : DieId) (o : DieOp) (s : State) :
    SameCore (dieStart d o s) s ∧ (dieStart d o s).now = s.now ∧ (dieStart d o s).firn = s.firn ∧
    (dieStart d o s).linkA = s.linkA ∧ (dieStart d o s).linkB = s.linkB ∧ (dieStart d o s).ctrls = s.ctrls ∧
    (dieStart d o s).slots = s.slots ∧ (dieStart d o s).stillLog = s.stillLog ∧ (dieStart d o s).staged = s.staged ∧
    (dieStart d o s).nss = s.nss ∧ (dieStart d o s).compute = s.compute ∧ (dieStart d o s).eps = s.eps ∧
    (dieStart d o s).repair = s.repair ∧ (dieStart d o s).power = s.power ∧ (dieStart d o s).rime = s.rime ∧
    (dieStart d o s).outbox = s.outbox := by
  unfold dieStart
  (repeat' split) <;> simp

@[simp] theorem dieResume_frame (d : DieId) (o : DieOp) (s : State) :
    SameCore (dieResume d o s) s ∧ (dieResume d o s).now = s.now ∧ (dieResume d o s).pins = s.pins ∧
    (dieResume d o s).boot = s.boot ∧ (dieResume d o s).firn = s.firn ∧ (dieResume d o s).linkA = s.linkA ∧
    (dieResume d o s).linkB = s.linkB ∧ (dieResume d o s).ctrls = s.ctrls ∧ (dieResume d o s).slots = s.slots ∧
    (dieResume d o s).stillLog = s.stillLog ∧ (dieResume d o s).staged = s.staged ∧ (dieResume d o s).nss = s.nss ∧
    (dieResume d o s).compute = s.compute ∧ (dieResume d o s).eps = s.eps ∧ (dieResume d o s).repair = s.repair ∧
    (dieResume d o s).power = s.power ∧ (dieResume d o s).rime = s.rime ∧ (dieResume d o s).outbox = s.outbox := by
  unfold dieResume
  simp

@[simp] theorem dieKick_frame (d : DieId) (s : State) :
    SameCore (dieKick d s) s ∧ (dieKick d s).now = s.now ∧ (dieKick d s).firn = s.firn ∧
    (dieKick d s).linkA = s.linkA ∧ (dieKick d s).linkB = s.linkB ∧ (dieKick d s).ctrls = s.ctrls ∧
    (dieKick d s).slots = s.slots ∧ (dieKick d s).stillLog = s.stillLog ∧ (dieKick d s).staged = s.staged ∧
    (dieKick d s).nss = s.nss ∧ (dieKick d s).compute = s.compute ∧ (dieKick d s).eps = s.eps ∧
    (dieKick d s).repair = s.repair ∧ (dieKick d s).power = s.power ∧ (dieKick d s).rime = s.rime ∧
    (dieKick d s).outbox = s.outbox := by
  unfold dieKick
  dsimp only
  (repeat' split) <;> simp

@[simp] theorem dieAsk_frame (d : DieId) (o : DieOp) (s : State) :
    SameCore (dieAsk d o s) s ∧ (dieAsk d o s).now = s.now ∧ (dieAsk d o s).firn = s.firn ∧
    (dieAsk d o s).linkA = s.linkA ∧ (dieAsk d o s).linkB = s.linkB ∧ (dieAsk d o s).ctrls = s.ctrls ∧
    (dieAsk d o s).slots = s.slots ∧ (dieAsk d o s).stillLog = s.stillLog ∧ (dieAsk d o s).staged = s.staged ∧
    (dieAsk d o s).nss = s.nss ∧ (dieAsk d o s).compute = s.compute ∧ (dieAsk d o s).eps = s.eps ∧
    (dieAsk d o s).repair = s.repair ∧ (dieAsk d o s).power = s.power ∧ (dieAsk d o s).rime = s.rime ∧
    (dieAsk d o s).outbox = s.outbox := by
  unfold dieAsk
  simp

@[simp] theorem kickAll_frame (s : State) :
    SameCore (kickAll s) s ∧ (kickAll s).now = s.now ∧ (kickAll s).firn = s.firn ∧ (kickAll s).linkA = s.linkA ∧
    (kickAll s).linkB = s.linkB ∧ (kickAll s).ctrls = s.ctrls ∧ (kickAll s).slots = s.slots ∧
    (kickAll s).stillLog = s.stillLog ∧ (kickAll s).staged = s.staged ∧ (kickAll s).nss = s.nss ∧
    (kickAll s).compute = s.compute ∧ (kickAll s).eps = s.eps ∧ (kickAll s).repair = s.repair ∧
    (kickAll s).power = s.power ∧ (kickAll s).rime = s.rime ∧ (kickAll s).outbox = s.outbox := by
  unfold kickAll
  exact ⟨⟨
      (foldl_keep (·.pending) _ (by simp) _ _).trans (by simp),
      (foldl_keep (·.pfail) _ (by simp) _ _).trans (by simp),
      (foldl_keep (·.holdup) _ (by simp) _ _).trans (by simp),
      (foldl_keep (·.asn) _ (by simp) _ _).trans (by simp),
      (foldl_keep (·.rrAdmin) _ (by simp) _ _).trans (by simp),
      (foldl_keep (·.rrUrgent) _ (by simp) _ _).trans (by simp),
      (foldl_keep (·.rrTenant) _ (by simp) _ _).trans (by simp),
      (foldl_keep (·.rrTurn) _ (by simp) _ _).trans (by simp),
      (foldl_keep (·.rrSq) _ (by simp) _ _).trans (by simp),
      (foldl_keep (·.twill) _ (by simp) _ _).trans (by simp),
      (foldl_keep (·.units) _ (by simp) _ _).trans (by simp),
      (foldl_keep (·.tenants) _ (by simp) _ _).trans (by simp),
      (foldl_keep (·.settings) _ (by simp) _ _).trans (by simp),
      (foldl_keep (·.owner) _ (by simp) _ _).trans (by simp),
      (foldl_keep (·.moraine) _ (by simp) _ _).trans (by simp),
      (foldl_keep (·.fw) _ (by simp) _ _).trans (by simp),
      (foldl_keep (·.tap) _ (by simp) _ _).trans (by simp),
      (foldl_keep (·.drawn) _ (by simp) _ _).trans (by simp),
      (foldl_keep (·.engines) _ (by simp) _ _).trans (by simp)⟩,
    (foldl_keep (·.now) _ (by simp) _ _).trans (by simp),
    (foldl_keep (·.firn) _ (by simp) _ _).trans (by simp),
    (foldl_keep (·.linkA) _ (by simp) _ _).trans (by simp),
    (foldl_keep (·.linkB) _ (by simp) _ _).trans (by simp),
    (foldl_keep (·.ctrls) _ (by simp) _ _).trans (by simp),
    (foldl_keep (·.slots) _ (by simp) _ _).trans (by simp),
    (foldl_keep (·.stillLog) _ (by simp) _ _).trans (by simp),
    (foldl_keep (·.staged) _ (by simp) _ _).trans (by simp),
    (foldl_keep (·.nss) _ (by simp) _ _).trans (by simp),
    (foldl_keep (·.compute) _ (by simp) _ _).trans (by simp),
    (foldl_keep (·.eps) _ (by simp) _ _).trans (by simp),
    (foldl_keep (·.repair) _ (by simp) _ _).trans (by simp),
    (foldl_keep (·.power) _ (by simp) _ _).trans (by simp),
    (foldl_keep (·.rime) _ (by simp) _ _).trans (by simp),
    (foldl_keep (·.outbox) _ (by simp) _ _).trans (by simp)⟩

@[simp] theorem writeMapPage_frame (nsid page : Nat) (s : State) :
    SameCore (writeMapPage nsid page s) s ∧ (writeMapPage nsid page s).now = s.now ∧
    (writeMapPage nsid page s).pins = s.pins ∧ (writeMapPage nsid page s).boot = s.boot ∧
    (writeMapPage nsid page s).firn = s.firn ∧ (writeMapPage nsid page s).linkA = s.linkA ∧
    (writeMapPage nsid page s).linkB = s.linkB ∧ (writeMapPage nsid page s).ctrls = s.ctrls ∧
    (writeMapPage nsid page s).slots = s.slots ∧ (writeMapPage nsid page s).stillLog = s.stillLog ∧
    (writeMapPage nsid page s).staged = s.staged ∧ (writeMapPage nsid page s).compute = s.compute ∧
    (writeMapPage nsid page s).eps = s.eps ∧ (writeMapPage nsid page s).repair = s.repair ∧
    (writeMapPage nsid page s).power = s.power ∧ (writeMapPage nsid page s).rime = s.rime ∧
    (writeMapPage nsid page s).outbox = s.outbox := by
  unfold writeMapPage
  (repeat' split) <;> simp

theorem writeMapPage_off (nsid page : Nat) (s : State) : offMedia (writeMapPage nsid page s) = offMedia s := by
  unfold writeMapPage
  split <;> rfl

theorem writeUntil_off (bound : Nat) (s : State) : offMedia (writeUntil bound s) = offMedia s := by
  unfold writeUntil
  refine foldl_keep offMedia _ (fun t x => ?_) _ _
  split
  · rfl
  · exact writeMapPage_off ..

@[simp] theorem writeUntil_frame (bound : Nat) (s : State) :
    SameCore (writeUntil bound s) s ∧ (writeUntil bound s).now = s.now ∧ (writeUntil bound s).pins = s.pins ∧
    (writeUntil bound s).boot = s.boot ∧ (writeUntil bound s).firn = s.firn ∧ (writeUntil bound s).linkA = s.linkA ∧
    (writeUntil bound s).linkB = s.linkB ∧ (writeUntil bound s).ctrls = s.ctrls ∧
    (writeUntil bound s).slots = s.slots ∧ (writeUntil bound s).stillLog = s.stillLog ∧
    (writeUntil bound s).staged = s.staged ∧ (writeUntil bound s).compute = s.compute ∧
    (writeUntil bound s).eps = s.eps ∧ (writeUntil bound s).repair = s.repair ∧
    (writeUntil bound s).power = s.power ∧ (writeUntil bound s).rime = s.rime ∧ (writeUntil bound s).outbox = s.outbox := by
  exact frame_of_offMedia (writeUntil_off ..)

theorem reserveWrite_off (what num : Nat) (bytes : List Byte) (s : State) :
    offMedia (reserveWrite what num bytes s) = offMedia s := rfl

theorem journalFlush_off (s : State) : offMedia (journalFlush s) = offMedia s := by
  unfold journalFlush
  dsimp only
  refine Eq.trans (b := offMedia (if 256 * 2 ^ 20 < journalBytes s + s.media.delta then
    writeUntil (256 * 2 ^ 20 - s.media.delta) s else s)) ?_ ?_
  · exact foldl_keep offMedia _ (fun t x => reserveWrite_off ..) _ _
  · split
    · exact writeUntil_off ..
    · rfl

@[simp] theorem journalFlush_frame (s : State) :
    SameCore (journalFlush s) s ∧ (journalFlush s).now = s.now ∧ (journalFlush s).pins = s.pins ∧
    (journalFlush s).boot = s.boot ∧ (journalFlush s).firn = s.firn ∧ (journalFlush s).linkA = s.linkA ∧
    (journalFlush s).linkB = s.linkB ∧ (journalFlush s).ctrls = s.ctrls ∧ (journalFlush s).slots = s.slots ∧
    (journalFlush s).stillLog = s.stillLog ∧ (journalFlush s).staged = s.staged ∧
    (journalFlush s).compute = s.compute ∧ (journalFlush s).eps = s.eps ∧ (journalFlush s).repair = s.repair ∧
    (journalFlush s).power = s.power ∧ (journalFlush s).rime = s.rime ∧ (journalFlush s).outbox = s.outbox := by
  exact frame_of_offMedia (journalFlush_off ..)

theorem journalAdd_off (n : Nat) (s : State) : offMedia (journalAdd n s) = offMedia s := by
  unfold journalAdd
  dsimp only
  split
  · exact journalFlush_off s
  · rfl

@[simp] theorem journalAdd_frame (n : Nat) (s : State) :
    SameCore (journalAdd n s) s ∧ (journalAdd n s).now = s.now ∧ (journalAdd n s).pins = s.pins ∧
    (journalAdd n s).boot = s.boot ∧ (journalAdd n s).firn = s.firn ∧ (journalAdd n s).linkA = s.linkA ∧
    (journalAdd n s).linkB = s.linkB ∧ (journalAdd n s).ctrls = s.ctrls ∧ (journalAdd n s).slots = s.slots ∧
    (journalAdd n s).stillLog = s.stillLog ∧ (journalAdd n s).staged = s.staged ∧
    (journalAdd n s).compute = s.compute ∧ (journalAdd n s).eps = s.eps ∧ (journalAdd n s).repair = s.repair ∧
    (journalAdd n s).power = s.power ∧ (journalAdd n s).rime = s.rime ∧ (journalAdd n s).outbox = s.outbox := by
  exact frame_of_offMedia (journalAdd_off ..)

@[simp] theorem setEntry_frame (nsid grain : Nat) (e : MapEntry) (s : State) :
    SameCore (setEntry nsid grain e s) s ∧ (setEntry nsid grain e s).now = s.now ∧
    (setEntry nsid grain e s).pins = s.pins ∧ (setEntry nsid grain e s).boot = s.boot ∧
    (setEntry nsid grain e s).firn = s.firn ∧ (setEntry nsid grain e s).linkA = s.linkA ∧
    (setEntry nsid grain e s).linkB = s.linkB ∧ (setEntry nsid grain e s).ctrls = s.ctrls ∧
    (setEntry nsid grain e s).slots = s.slots ∧ (setEntry nsid grain e s).stillLog = s.stillLog ∧
    (setEntry nsid grain e s).staged = s.staged ∧ (setEntry nsid grain e s).compute = s.compute ∧
    (setEntry nsid grain e s).eps = s.eps ∧ (setEntry nsid grain e s).repair = s.repair ∧
    (setEntry nsid grain e s).power = s.power ∧ (setEntry nsid grain e s).rime = s.rime ∧
    (setEntry nsid grain e s).outbox = s.outbox := by
  unfold setEntry
  simp

@[simp] theorem purgeTombs_frame (s : State) :
    SameCore (purgeTombs s) s ∧ (purgeTombs s).now = s.now ∧ (purgeTombs s).pins = s.pins ∧
    (purgeTombs s).boot = s.boot ∧ (purgeTombs s).firn = s.firn ∧ (purgeTombs s).linkA = s.linkA ∧
    (purgeTombs s).linkB = s.linkB ∧ (purgeTombs s).ctrls = s.ctrls ∧ (purgeTombs s).slots = s.slots ∧
    (purgeTombs s).stillLog = s.stillLog ∧ (purgeTombs s).nss = s.nss ∧ (purgeTombs s).media = s.media ∧
    (purgeTombs s).compute = s.compute ∧ (purgeTombs s).eps = s.eps ∧ (purgeTombs s).repair = s.repair ∧
    (purgeTombs s).power = s.power ∧ (purgeTombs s).rime = s.rime ∧ (purgeTombs s).outbox = s.outbox := by
  unfold purgeTombs
  simp

/-! ### Power -/

@[simp] theorem avsSend_frame (level tries : Nat) (s : State) :
    SameCore (avsSend level tries s) s ∧ (avsSend level tries s).now = s.now ∧
    (avsSend level tries s).pins = s.pins ∧ (avsSend level tries s).boot = s.boot ∧
    (avsSend level tries s).firn = s.firn ∧ (avsSend level tries s).linkA = s.linkA ∧
    (avsSend level tries s).linkB = s.linkB ∧ (avsSend level tries s).ctrls = s.ctrls ∧
    (avsSend level tries s).slots = s.slots ∧ (avsSend level tries s).stillLog = s.stillLog ∧
    (avsSend level tries s).staged = s.staged ∧ (avsSend level tries s).nss = s.nss ∧
    (avsSend level tries s).media = s.media ∧ (avsSend level tries s).compute = s.compute ∧
    (avsSend level tries s).eps = s.eps ∧ (avsSend level tries s).repair = s.repair ∧
    (avsSend level tries s).rime = s.rime := by
  unfold avsSend
  simp

@[simp] theorem avsAsk_frame (level : Nat) (s : State) :
    SameCore (avsAsk level s) s ∧ (avsAsk level s).now = s.now ∧ (avsAsk level s).pins = s.pins ∧
    (avsAsk level s).boot = s.boot ∧ (avsAsk level s).firn = s.firn ∧ (avsAsk level s).linkA = s.linkA ∧
    (avsAsk level s).linkB = s.linkB ∧ (avsAsk level s).ctrls = s.ctrls ∧ (avsAsk level s).slots = s.slots ∧
    (avsAsk level s).stillLog = s.stillLog ∧ (avsAsk level s).staged = s.staged ∧ (avsAsk level s).nss = s.nss ∧
    (avsAsk level s).media = s.media ∧ (avsAsk level s).compute = s.compute ∧ (avsAsk level s).eps = s.eps ∧
    (avsAsk level s).repair = s.repair ∧ (avsAsk level s).rime = s.rime := by
  unfold avsAsk
  (repeat' split) <;> simp

@[simp] theorem psReach_frame (n : Nat) (wake : Bool) (s : State) :
    SameCore (psReach n wake s) s ∧ (psReach n wake s).now = s.now ∧ (psReach n wake s).firn = s.firn ∧
    (psReach n wake s).linkA = s.linkA ∧ (psReach n wake s).linkB = s.linkB ∧ (psReach n wake s).ctrls = s.ctrls ∧
    (psReach n wake s).slots = s.slots ∧ (psReach n wake s).stillLog = s.stillLog ∧
    (psReach n wake s).staged = s.staged ∧ (psReach n wake s).nss = s.nss ∧ (psReach n wake s).compute = s.compute ∧
    (psReach n wake s).eps = s.eps := by
  unfold psReach
  dsimp only
  (repeat' split) <;> simp

@[simp] theorem psExit_frame (m : Nat) (s : State) :
    SameCore (psExit m s) s ∧ (psExit m s).now = s.now ∧ (psExit m s).pins = s.pins ∧ (psExit m s).boot = s.boot ∧
    (psExit m s).firn = s.firn ∧ (psExit m s).linkA = s.linkA ∧ (psExit m s).linkB = s.linkB ∧
    (psExit m s).ctrls = s.ctrls ∧ (psExit m s).slots = s.slots ∧ (psExit m s).stillLog = s.stillLog ∧
    (psExit m s).staged = s.staged ∧ (psExit m s).nss = s.nss ∧ (psExit m s).media = s.media ∧
    (psExit m s).compute = s.compute ∧ (psExit m s).eps = s.eps ∧ (psExit m s).repair = s.repair ∧
    (psExit m s).rime = s.rime := by
  unfold psExit
  (repeat' split) <;> simp

@[simp] theorem psExitNext_frame (m : Nat) (s : State) :
    SameCore (psExitNext m s) s ∧ (psExitNext m s).now = s.now ∧ (psExitNext m s).pins = s.pins ∧
    (psExitNext m s).boot = s.boot ∧ (psExitNext m s).firn = s.firn ∧ (psExitNext m s).linkA = s.linkA ∧
    (psExitNext m s).linkB = s.linkB ∧ (psExitNext m s).ctrls = s.ctrls ∧ (psExitNext m s).slots = s.slots ∧
    (psExitNext m s).stillLog = s.stillLog ∧ (psExitNext m s).staged = s.staged ∧
    (psExitNext m s).nss = s.nss ∧ (psExitNext m s).media = s.media ∧ (psExitNext m s).compute = s.compute ∧
    (psExitNext m s).eps = s.eps ∧ (psExitNext m s).repair = s.repair ∧ (psExitNext m s).rime = s.rime := by
  unfold psExitNext
  simp

@[simp] theorem psLower_frame (n : Nat) (s : State) :
    SameCore (psLower n s) s ∧ (psLower n s).now = s.now ∧ (psLower n s).pins = s.pins ∧
    (psLower n s).boot = s.boot ∧ (psLower n s).firn = s.firn ∧ (psLower n s).linkA = s.linkA ∧
    (psLower n s).linkB = s.linkB ∧ (psLower n s).ctrls = s.ctrls ∧ (psLower n s).slots = s.slots ∧
    (psLower n s).stillLog = s.stillLog ∧ (psLower n s).staged = s.staged ∧
    (psLower n s).compute = s.compute ∧ (psLower n s).eps = s.eps ∧ (psLower n s).repair = s.repair ∧
    (psLower n s).rime = s.rime := by
  unfold psLower
  dsimp only
  split <;> simp

@[simp] theorem psEnter_frame (n : Nat) (s : State) :
    SameCore (psEnter n s) s ∧ (psEnter n s).now = s.now ∧ (psEnter n s).boot = s.boot ∧
    (psEnter n s).firn = s.firn ∧ (psEnter n s).linkA = s.linkA ∧ (psEnter n s).linkB = s.linkB ∧
    (psEnter n s).ctrls = s.ctrls ∧ (psEnter n s).slots = s.slots ∧ (psEnter n s).stillLog = s.stillLog ∧
    (psEnter n s).staged = s.staged ∧ (psEnter n s).nss = s.nss ∧ (psEnter n s).media = s.media ∧
    (psEnter n s).compute = s.compute ∧ (psEnter n s).eps = s.eps ∧ (psEnter n s).repair = s.repair := by
  unfold psEnter
  (repeat' split) <;> simp

@[simp] theorem wake_frame (s : State) :
    SameCore (wake s) s ∧ (wake s).now = s.now ∧ (wake s).pins = s.pins ∧ (wake s).boot = s.boot ∧
    (wake s).firn = s.firn ∧ (wake s).linkA = s.linkA ∧ (wake s).linkB = s.linkB ∧ (wake s).ctrls = s.ctrls ∧
    (wake s).slots = s.slots ∧ (wake s).stillLog = s.stillLog ∧ (wake s).staged = s.staged ∧ (wake s).nss = s.nss ∧
    (wake s).media = s.media ∧ (wake s).compute = s.compute ∧ (wake s).eps = s.eps ∧ (wake s).repair = s.repair ∧
    (wake s).rime = s.rime := by
  unfold wake
  dsimp only
  (repeat' split) <;> simp

@[simp] theorem psDecide_frame (s : State) :
    SameCore (psDecide s) s ∧ (psDecide s).now = s.now ∧ (psDecide s).boot = s.boot ∧ (psDecide s).firn = s.firn ∧
    (psDecide s).linkA = s.linkA ∧ (psDecide s).linkB = s.linkB ∧ (psDecide s).ctrls = s.ctrls ∧
    (psDecide s).slots = s.slots ∧ (psDecide s).stillLog = s.stillLog ∧ (psDecide s).staged = s.staged ∧
    (psDecide s).nss = s.nss ∧ (psDecide s).media = s.media ∧ (psDecide s).compute = s.compute ∧
    (psDecide s).eps = s.eps ∧ (psDecide s).repair = s.repair := by
  unfold psDecide
  (repeat' split) <;> simp

@[simp] theorem psTryPending_frame (s : State) :
    SameCore (psTryPending s) s ∧ (psTryPending s).now = s.now ∧ (psTryPending s).boot = s.boot ∧
    (psTryPending s).firn = s.firn ∧ (psTryPending s).linkA = s.linkA ∧ (psTryPending s).linkB = s.linkB ∧
    (psTryPending s).ctrls = s.ctrls ∧ (psTryPending s).slots = s.slots ∧ (psTryPending s).stillLog = s.stillLog ∧
    (psTryPending s).staged = s.staged ∧ (psTryPending s).nss = s.nss ∧ (psTryPending s).media = s.media ∧
    (psTryPending s).compute = s.compute ∧ (psTryPending s).eps = s.eps ∧ (psTryPending s).repair = s.repair := by
  unfold psTryPending
  (repeat' split) <;> simp

@[simp] theorem psEntryEnd_frame (s : State) :
    SameCore (psEntryEnd s) s ∧ (psEntryEnd s).now = s.now ∧ (psEntryEnd s).firn = s.firn ∧
    (psEntryEnd s).linkA = s.linkA ∧ (psEntryEnd s).linkB = s.linkB ∧ (psEntryEnd s).ctrls = s.ctrls ∧
    (psEntryEnd s).slots = s.slots ∧ (psEntryEnd s).stillLog = s.stillLog ∧ (psEntryEnd s).staged = s.staged ∧
    (psEntryEnd s).compute = s.compute ∧ (psEntryEnd s).eps = s.eps := by
  unfold psEntryEnd
  dsimp only
  (repeat' split) <;> simp

@[simp] theorem avsAcked_frame (s : State) :
    SameCore (avsAcked s) s ∧ (avsAcked s).now = s.now ∧ (avsAcked s).boot = s.boot ∧ (avsAcked s).firn = s.firn ∧
    (avsAcked s).linkA = s.linkA ∧ (avsAcked s).linkB = s.linkB ∧ (avsAcked s).ctrls = s.ctrls ∧
    (avsAcked s).slots = s.slots ∧ (avsAcked s).stillLog = s.stillLog ∧ (avsAcked s).staged = s.staged ∧
    (avsAcked s).nss = s.nss ∧ (avsAcked s).media = s.media ∧ (avsAcked s).compute = s.compute ∧
    (avsAcked s).eps = s.eps ∧ (avsAcked s).repair = s.repair ∧ (avsAcked s).rime = s.rime ∧
    (avsAcked s).outbox = s.outbox := by
  unfold avsAcked
  dsimp only
  (repeat' split) <;> simp

@[simp] theorem regulatorFault_frame (level : Nat) (s : State) :
    SameCore (regulatorFault level s) s ∧ (regulatorFault level s).now = s.now ∧
    (regulatorFault level s).firn = s.firn ∧ (regulatorFault level s).linkA = s.linkA ∧
    (regulatorFault level s).linkB = s.linkB ∧ (regulatorFault level s).ctrls = s.ctrls ∧
    (regulatorFault level s).slots = s.slots ∧ (regulatorFault level s).stillLog = s.stillLog ∧
    (regulatorFault level s).staged = s.staged ∧ (regulatorFault level s).nss = s.nss ∧
    (regulatorFault level s).compute = s.compute ∧ (regulatorFault level s).eps = s.eps := by
  unfold regulatorFault
  dsimp only
  (repeat' split) <;> simp

@[simp] theorem pmbusStart_frame (use : Nat) (s : State) :
    SameCore (pmbusStart use s) s ∧ (pmbusStart use s).now = s.now ∧ (pmbusStart use s).pins = s.pins ∧
    (pmbusStart use s).boot = s.boot ∧ (pmbusStart use s).firn = s.firn ∧ (pmbusStart use s).linkA = s.linkA ∧
    (pmbusStart use s).linkB = s.linkB ∧ (pmbusStart use s).ctrls = s.ctrls ∧ (pmbusStart use s).slots = s.slots ∧
    (pmbusStart use s).stillLog = s.stillLog ∧ (pmbusStart use s).staged = s.staged ∧
    (pmbusStart use s).nss = s.nss ∧ (pmbusStart use s).media = s.media ∧ (pmbusStart use s).compute = s.compute ∧
    (pmbusStart use s).eps = s.eps ∧ (pmbusStart use s).repair = s.repair ∧ (pmbusStart use s).rime = s.rime ∧
    (pmbusStart use s).outbox = s.outbox := by
  unfold pmbusStart
  simp

/-! ### Mbx -/

@[simp] theorem endSession_frame (e : Endpoint) (s : State) :
    SameCore (endSession e s) s ∧ (endSession e s).now = s.now ∧ (endSession e s).pins = s.pins ∧
    (endSession e s).boot = s.boot ∧ (endSession e s).firn = s.firn ∧ (endSession e s).linkA = s.linkA ∧
    (endSession e s).linkB = s.linkB ∧ (endSession e s).ctrls = s.ctrls ∧ (endSession e s).slots = s.slots ∧
    (endSession e s).stillLog = s.stillLog ∧ (endSession e s).staged = s.staged ∧ (endSession e s).nss = s.nss ∧
    (endSession e s).media = s.media ∧ (endSession e s).compute = s.compute ∧ (endSession e s).repair = s.repair ∧
    (endSession e s).power = s.power ∧ (endSession e s).rime = s.rime ∧ (endSession e s).outbox = s.outbox := by
  unfold endSession
  (repeat' split) <;> simp

@[simp] theorem endSessions_frame (p : Ep → Bool) (s : State) :
    SameCore (endSessions p s) s ∧ (endSessions p s).now = s.now ∧ (endSessions p s).pins = s.pins ∧
    (endSessions p s).boot = s.boot ∧ (endSessions p s).firn = s.firn ∧ (endSessions p s).linkA = s.linkA ∧
    (endSessions p s).linkB = s.linkB ∧ (endSessions p s).ctrls = s.ctrls ∧ (endSessions p s).slots = s.slots ∧
    (endSessions p s).stillLog = s.stillLog ∧ (endSessions p s).staged = s.staged ∧ (endSessions p s).nss = s.nss ∧
    (endSessions p s).media = s.media ∧ (endSessions p s).compute = s.compute ∧ (endSessions p s).repair = s.repair ∧
    (endSessions p s).power = s.power ∧ (endSessions p s).rime = s.rime ∧ (endSessions p s).outbox = s.outbox := by
  unfold endSessions
  exact ⟨⟨
      (foldl_keep (·.pending) _ (by simp) _ _).trans (by simp),
      (foldl_keep (·.pfail) _ (by simp) _ _).trans (by simp),
      (foldl_keep (·.holdup) _ (by simp) _ _).trans (by simp),
      (foldl_keep (·.asn) _ (by simp) _ _).trans (by simp),
      (foldl_keep (·.rrAdmin) _ (by simp) _ _).trans (by simp),
      (foldl_keep (·.rrUrgent) _ (by simp) _ _).trans (by simp),
      (foldl_keep (·.rrTenant) _ (by simp) _ _).trans (by simp),
      (foldl_keep (·.rrTurn) _ (by simp) _ _).trans (by simp),
      (foldl_keep (·.rrSq) _ (by simp) _ _).trans (by simp),
      (foldl_keep (·.twill) _ (by simp) _ _).trans (by simp),
      (foldl_keep (·.units) _ (by simp) _ _).trans (by simp),
      (foldl_keep (·.tenants) _ (by simp) _ _).trans (by simp),
      (foldl_keep (·.settings) _ (by simp) _ _).trans (by simp),
      (foldl_keep (·.owner) _ (by simp) _ _).trans (by simp),
      (foldl_keep (·.moraine) _ (by simp) _ _).trans (by simp),
      (foldl_keep (·.fw) _ (by simp) _ _).trans (by simp),
      (foldl_keep (·.tap) _ (by simp) _ _).trans (by simp),
      (foldl_keep (·.drawn) _ (by simp) _ _).trans (by simp),
      (foldl_keep (·.engines) _ (by simp) _ _).trans (by simp)⟩,
    (foldl_keep (·.now) _ (by simp) _ _).trans (by simp),
    (foldl_keep (·.pins) _ (by simp) _ _).trans (by simp),
    (foldl_keep (·.boot) _ (by simp) _ _).trans (by simp),
    (foldl_keep (·.firn) _ (by simp) _ _).trans (by simp),
    (foldl_keep (·.linkA) _ (by simp) _ _).trans (by simp),
    (foldl_keep (·.linkB) _ (by simp) _ _).trans (by simp),
    (foldl_keep (·.ctrls) _ (by simp) _ _).trans (by simp),
    (foldl_keep (·.slots) _ (by simp) _ _).trans (by simp),
    (foldl_keep (·.stillLog) _ (by simp) _ _).trans (by simp),
    (foldl_keep (·.staged) _ (by simp) _ _).trans (by simp),
    (foldl_keep (·.nss) _ (by simp) _ _).trans (by simp),
    (foldl_keep (·.media) _ (by simp) _ _).trans (by simp),
    (foldl_keep (·.compute) _ (by simp) _ _).trans (by simp),
    (foldl_keep (·.repair) _ (by simp) _ _).trans (by simp),
    (foldl_keep (·.power) _ (by simp) _ _).trans (by simp),
    (foldl_keep (·.rime) _ (by simp) _ _).trans (by simp),
    (foldl_keep (·.outbox) _ (by simp) _ _).trans (by simp)⟩

@[simp] theorem deliver_frame (q : Rq) (opcode status : Nat) (body : List Byte) (s : State) :
    SameCore (deliver q opcode status body s) s ∧ (deliver q opcode status body s).now = s.now ∧
    (deliver q opcode status body s).pins = s.pins ∧ (deliver q opcode status body s).boot = s.boot ∧
    (deliver q opcode status body s).firn = s.firn ∧ (deliver q opcode status body s).linkA = s.linkA ∧
    (deliver q opcode status body s).linkB = s.linkB ∧ (deliver q opcode status body s).media = s.media ∧
    (deliver q opcode status body s).compute = s.compute ∧ (deliver q opcode status body s).eps = s.eps ∧
    (deliver q opcode status body s).repair = s.repair ∧ (deliver q opcode status body s).power = s.power ∧
    (deliver q opcode status body s).rime = s.rime := by
  unfold deliver
  dsimp only
  (repeat' split) <;> simp

@[simp] theorem respond_frame (q : Rq) (opcode status : Nat) (body : List Byte) (s : State) :
    SameCore (respond q opcode status body s) s ∧ (respond q opcode status body s).now = s.now ∧
    (respond q opcode status body s).pins = s.pins ∧ (respond q opcode status body s).boot = s.boot ∧
    (respond q opcode status body s).firn = s.firn ∧ (respond q opcode status body s).linkA = s.linkA ∧
    (respond q opcode status body s).linkB = s.linkB ∧ (respond q opcode status body s).media = s.media ∧
    (respond q opcode status body s).compute = s.compute ∧ (respond q opcode status body s).repair = s.repair ∧
    (respond q opcode status body s).power = s.power ∧ (respond q opcode status body s).rime = s.rime := by
  unfold respond
  dsimp only
  (repeat' split) <;> simp

@[simp] theorem keepExecuting_frame (q : Rq) (opcode limit : Nat) (s : State) :
    SameCore (keepExecuting q opcode limit s) s ∧ (keepExecuting q opcode limit s).now = s.now ∧
    (keepExecuting q opcode limit s).pins = s.pins ∧ (keepExecuting q opcode limit s).boot = s.boot ∧
    (keepExecuting q opcode limit s).firn = s.firn ∧ (keepExecuting q opcode limit s).linkA = s.linkA ∧
    (keepExecuting q opcode limit s).linkB = s.linkB ∧ (keepExecuting q opcode limit s).ctrls = s.ctrls ∧
    (keepExecuting q opcode limit s).slots = s.slots ∧ (keepExecuting q opcode limit s).stillLog = s.stillLog ∧
    (keepExecuting q opcode limit s).staged = s.staged ∧ (keepExecuting q opcode limit s).nss = s.nss ∧
    (keepExecuting q opcode limit s).media = s.media ∧ (keepExecuting q opcode limit s).compute = s.compute ∧
    (keepExecuting q opcode limit s).repair = s.repair ∧ (keepExecuting q opcode limit s).power = s.power ∧
    (keepExecuting q opcode limit s).rime = s.rime ∧ (keepExecuting q opcode limit s).outbox = s.outbox := by
  unfold keepExecuting
  simp

@[simp] theorem refuse_frame (q : Rq) (opcode status : Nat) (s : State) :
    SameCore (refuse q opcode status s) s ∧ (refuse q opcode status s).now = s.now ∧
    (refuse q opcode status s).pins = s.pins ∧ (refuse q opcode status s).boot = s.boot ∧
    (refuse q opcode status s).firn = s.firn ∧ (refuse q opcode status s).linkA = s.linkA ∧
    (refuse q opcode status s).linkB = s.linkB ∧ (refuse q opcode status s).media = s.media ∧
    (refuse q opcode status s).compute = s.compute ∧ (refuse q opcode status s).repair = s.repair ∧
    (refuse q opcode status s).power = s.power ∧ (refuse q opcode status s).rime = s.rime := by
  unfold refuse
  simp

@[simp] theorem dropBulk_frame (q : Rq) (s : State) :
    SameCore (dropBulk q s) s ∧ (dropBulk q s).now = s.now ∧ (dropBulk q s).pins = s.pins ∧
    (dropBulk q s).boot = s.boot ∧ (dropBulk q s).firn = s.firn ∧ (dropBulk q s).linkA = s.linkA ∧
    (dropBulk q s).linkB = s.linkB ∧ (dropBulk q s).ctrls = s.ctrls ∧ (dropBulk q s).slots = s.slots ∧
    (dropBulk q s).stillLog = s.stillLog ∧ (dropBulk q s).staged = s.staged ∧ (dropBulk q s).nss = s.nss ∧
    (dropBulk q s).media = s.media ∧ (dropBulk q s).compute = s.compute ∧ (dropBulk q s).repair = s.repair ∧
    (dropBulk q s).power = s.power ∧ (dropBulk q s).rime = s.rime ∧ (dropBulk q s).outbox = s.outbox := by
  unfold dropBulk
  simp

/-! ### What Rime holds after a record -/

theorem rimeFlushStart_recorded (code : Nat) (s : State) (h : recorded code s) : recorded code (rimeFlushStart s) := by
  unfold rimeFlushStart
  split
  · exact h
  · obtain ⟨r, hr, hc, ht⟩ := h
    refine ⟨(r.1, true), List.mem_map.2 ⟨r, hr, rfl⟩, hc, ht.imp_right fun hl => ?_⟩
    simp [List.getLast?_map, hl]

/-- A record put in its place keeps its code and its tick, whatever it passes (R521). -/
theorem rimePlace_holds (r : RimeRec × Bool) (l : List (RimeRec × Bool)) :
    ∃ x ∈ rimePlace r l, x.1.code = r.1.code ∧ x.1.tick = r.1.tick := by
  induction l generalizing r with
  | nil => exact ⟨r, by simp [rimePlace], rfl, rfl⟩
  | cons y ys ih =>
    unfold rimePlace
    split
    · obtain ⟨x, hx, hc, ht⟩ := ih ((rimeSwap y.1 r.1).1, r.2)
      exact ⟨x, by simp [hx], hc, ht⟩
    · exact ⟨r, by simp, rfl, rfl⟩

/-- With room in the ring an occurrence is recorded. -/
theorem rime_recorded (code sev : Nat) (tenant : Option Nat) (shared : Bool) (param : List Byte) (s : State)
    (h : s.rime.ring.length < 4096) : recorded code (rime code sev tenant shared param s) := by
  have a : recorded code (rimeAppend code sev tenant shared param s) := by
    unfold rimeAppend
    rw [if_neg (by omega)]
    have e (c : Prop) [Decidable c] (t : State) (ht : recorded code t) :
        recorded code (if c then rimeFlushStart t else t) := by
      split
      · exact rimeFlushStart_recorded code t ht
      · exact ht
    dsimp only
    refine e _ _ ?_
    obtain ⟨x, hx, hc, ht⟩ := rimePlace_holds (_, s.rime.flushing.isSome && s.rime.flushBegan == s.now) s.rime.ring.reverse
    exact ⟨x, List.mem_reverse.2 hx, hc, .inl ht⟩
  unfold rime
  split
  · rename_i r hr
    split
    · rename_i hc
      simp only [Bool.and_eq_true, decide_eq_true_eq] at hc
      exact ⟨_, List.mem_append_right _ (List.mem_singleton_self _), hc.1.1.1, .inr (by simp)⟩
    · exact a
  · exact a

end Sys2Proof.Machine
end

