-- ==== Sys2Proof/Laws/Host.lean ====
section
/-! SUPPORT. What the end of a command in a slot leaves: the completion entry, the slot, and the controllers up to
their completion queues and interrupts. -/

namespace Sys2Proof.Machine

/-- A controller without what posting an entry changes. -/
def ctrlView (c : Ctrl) : Ctrl :=
  { c with acq := { c.acq with tail := 0 }, cqs := c.cqs.map fun q => { q with tail := 0 }, msixPending := []
           coalWaiting := [] }

theorem ctrl_setCtrl_of (s : State) (f : Fn) (g : Ctrl → Ctrl) (hg : ∀ x, (g x).fn = x.fn) (h : Fn) :
    (s.setCtrl f g).ctrl? h = if h = f then (s.ctrl? h).map g else s.ctrl? h := by
  have hh : (s.setCtrl f g).hasFn h = s.hasFn h := rfl
  unfold State.ctrl?
  rw [hh]
  by_cases e : h = f
  · subst e
    rw [if_pos rfl]
    have k : (s.setCtrl h g).ctrls.find? (·.fn == h)
        = ((if s.ctrls.any (·.fn == h) || !s.hasFn h then s.ctrls else s.ctrls ++ [{ fn := h }]).find? (·.fn == h)).map g :=
      find_map_key Ctrl.fn h g hg _
    rw [k]
    by_cases a : s.ctrls.any (·.fn == h) = true
    · simp only [a, Bool.true_or, if_true]
      cases hc : s.ctrls.find? (·.fn == h) with
      | some c => rfl
      | none =>
        rw [List.find?_eq_none] at hc
        rw [List.any_eq_true] at a
        obtain ⟨x, hx, hy⟩ := a
        exact absurd hy (hc x hx)
    · have n : s.ctrls.find? (·.fn == h) = none := by
        rw [List.find?_eq_none]
        intro x hx hy
        exact a (List.any_eq_true.2 ⟨x, hx, hy⟩)
      cases b : s.hasFn h
      · simp [n]
      · simp [a, n, List.find?_append]
  · rw [if_neg e]
    have k : (s.setCtrl f g).ctrls.find? (·.fn == h)
        = (if s.ctrls.any (·.fn == f) || !s.hasFn f then s.ctrls else s.ctrls ++ [{ fn := f }]).find? (·.fn == h) :=
      find_map_ne Ctrl.fn h f e g hg _
    have k2 : (if s.ctrls.any (·.fn == f) || !s.hasFn f then s.ctrls else s.ctrls ++ [{ fn := f }]).find? (·.fn == h)
        = s.ctrls.find? (·.fn == h) := by
      split
      · rfl
      · rw [List.find?_append]
        have : [({ fn := f } : Ctrl)].find? (·.fn == h) = none := by
          simp; exact fun x => e x.symm
        rw [this, Option.or_none]
    rw [k, k2]

/-- The controllers of two states agree but for what posting an entry changes, and as much stays to be shut down. -/
def SameCtrls (t s : State) : Prop :=
  (∀ f, (t.ctrl? f).map ctrlView = (s.ctrl? f).map ctrlView) ∧
    (s.ctrls.all (·.shst != 1) = true → t.ctrls.all (·.shst != 1) = true)

theorem SameCtrls.refl (s : State) : SameCtrls s s := ⟨fun _ => rfl, id⟩

theorem SameCtrls.trans {a b c : State} (h : SameCtrls a b) (k : SameCtrls b c) : SameCtrls a c :=
  ⟨fun f => (h.1 f).trans (k.1 f), fun x => h.2 (k.2 x)⟩

theorem SameCtrls.of_eq {t s : State} (h : t.ctrls = s.ctrls) (b : t.boot = s.boot) : SameCtrls t s := by
  have e : ∀ f, t.ctrl? f = s.ctrl? f := by
    intro f; unfold State.ctrl? State.hasFn; rw [h, b]
  exact ⟨fun f => by rw [e], by rw [h]; exact id⟩

theorem sameCtrls_setCtrl (s : State) (f : Fn) (g : Ctrl → Ctrl) (hg : ∀ x, ctrlView (g x) = ctrlView x) :
    SameCtrls (s.setCtrl f g) s := by
  have hf : ∀ x, (g x).fn = x.fn := fun x => by
    have h := congrArg Ctrl.fn (hg x)
    exact h
  have hs : ∀ x, (g x).shst = x.shst := fun x => by
    have h := congrArg Ctrl.shst (hg x)
    exact h
  refine ⟨fun h => ?_, fun h => ?_⟩
  · rw [ctrl_setCtrl_of s f g hf]
    split
    · cases s.ctrl? h with
      | none => rfl
      | some c => simp [hg]
    · rfl
  · have : ∀ cs : List Ctrl, cs.all (·.shst != 1) = true →
        (cs.map fun c => if c.fn = f then g c else c).all (·.shst != 1) = true := by
      intro cs hc
      rw [List.all_map]
      rw [List.all_eq_true] at hc ⊢
      intro x hx
      have := hc x hx
      simp only [Function.comp]
      split
      · rw [hs]; exact this
      · exact this
    refine this _ ?_
    split
    · exact h
    · simpa using h

theorem sendMsix_ctrls (f : Fn) (v : Nat) (s : State) : SameCtrls (sendMsix f v s) s := by
  unfold sendMsix
  split
  · exact .refl _
  · split
    · exact sameCtrls_setCtrl _ _ _ fun _ => rfl
    · exact .of_eq rfl rfl

theorem interrupt_ctrls (f : Fn) (q v : Nat) (s : State) : SameCtrls (interrupt f q v s) s := by
  unfold interrupt
  split
  · exact .refl _
  · split
    · exact sendMsix_ctrls _ _ _
    · dsimp only
      split
      · exact (sendMsix_ctrls _ _ _).trans (sameCtrls_setCtrl _ _ _ fun _ => rfl)
      · exact sameCtrls_setCtrl _ _ _ fun _ => rfl

theorem view_tails (c : Ctrl) (k : Nat) :
    ctrlView { c with
      acq := if c.acq.qid = k then { c.acq with tail := (c.acq.tail + 1) % max 1 c.acq.size } else c.acq
      cqs := c.cqs.map fun q => if q.qid = k then { q with tail := (q.tail + 1) % max 1 q.size } else q } = ctrlView c := by
  simp only [ctrlView, Ctrl.mk.injEq, List.map_map, and_true, true_and]
  refine ⟨?_, ?_⟩
  · apply List.map_congr_left; intro y _; simp only [Function.comp]; by_cases h : y.qid = k <;> simp [h]
  · by_cases h : c.acq.qid = k <;> simp [h]

theorem postCqe_ctrls (f : Fn) (q cid : Nat) (st : Status) (d : Nat) (s : State) : SameCtrls (postCqe f q cid st d s) s := by
  unfold postCqe
  split
  · exact .refl _
  · exact (interrupt_ctrls _ _ _ _).trans ((sameCtrls_setCtrl _ _ _ fun x => view_tails x _).trans (.of_eq rfl rfl))

theorem giveBack_ctrls (sl : Slot) (s : State) : (giveBack sl s).ctrls = s.ctrls := rfl
theorem dropStaged_ctrls (sl : Slot) (s : State) : (dropStaged sl s).ctrls = s.ctrls := by
  unfold dropStaged
  show (List.foldl _ s _).ctrls = s.ctrls
  refine foldl_keep (·.ctrls) _ ?_ _ _
  intro _ _; rfl
theorem dropStaged_boot (sl : Slot) (s : State) : (dropStaged sl s).boot = s.boot := by
  unfold dropStaged
  show (List.foldl _ s _).boot = s.boot
  refine foldl_keep (·.boot) _ ?_ _ _
  intro _ _; rfl

theorem finish_ctrls (ix : Nat) (st : Status) (d : Nat) (s : State) : SameCtrls (finish ix st d s) s := by
  unfold finish
  split
  · exact .refl _
  · refine SameCtrls.trans (.of_eq (dropStaged_ctrls _ _) (dropStaged_boot _ _)) ?_
    refine SameCtrls.trans (.of_eq rfl rfl : SameCtrls (giveBack _ _) _) ?_
    split
    · exact .refl _
    · exact postCqe_ctrls _ _ _ _ _ _

theorem complete_ctrls (ix : Nat) (st : Status) (d : Nat) (s : State) : SameCtrls (complete ix st d s) s := by
  unfold complete
  split
  · exact .refl _
  · split
    · exact .of_eq rfl rfl
    · rename_i sl _ _
      have : ∀ (l : List (Nat × Tick)) (s : State), SameCtrls (l.foldl (fun s a => finish a.1 stOk 1 s) s) s := by
        intro l
        induction l with
        | nil => exact fun s => .refl s
        | cons a l ih => exact fun s => (ih _).trans (finish_ctrls _ _ _ _)
      exact (this _ _).trans (finish_ctrls _ _ _ _)

/-! ### Slots, tenants and the outbox -/

theorem sendMsix_slots (f : Fn) (v : Nat) (s : State) : (sendMsix f v s).slots = s.slots := by
  unfold sendMsix; split
  · rfl
  · split <;> rfl

theorem interrupt_slots (f : Fn) (q v : Nat) (s : State) : (interrupt f q v s).slots = s.slots := by
  unfold interrupt; split
  · rfl
  · split
    · exact sendMsix_slots _ _ _
    · dsimp only
      split
      · rw [sendMsix_slots]; rfl
      · rfl

theorem postCqe_slots (f : Fn) (q cid : Nat) (st : Status) (d : Nat) (s : State) : (postCqe f q cid st d s).slots = s.slots := by
  unfold postCqe; split
  · rfl
  · dsimp only; rw [interrupt_slots]; rfl

theorem dropStaged_slots (sl : Slot) (s : State) : (dropStaged sl s).slots = s.slots := by
  unfold dropStaged
  show (List.foldl _ s _).slots = s.slots
  refine foldl_keep (·.slots) _ ?_ _ _
  intro _ _; rfl

theorem dropStaged_outbox (sl : Slot) (s : State) : (dropStaged sl s).outbox = s.outbox := by
  unfold dropStaged
  show (List.foldl _ s _).outbox = s.outbox
  refine foldl_keep (·.outbox) _ ?_ _ _
  intro _ _; rfl

theorem finish_slots (ix : Nat) (st : Status) (d : Nat) (s : State) :
    (finish ix st d s).slots = s.slots.filter (·.ix != ix) := by
  unfold finish
  split
  · rename_i h
    unfold State.slot? at h
    rw [List.find?_eq_none] at h
    symm; rw [List.filter_eq_self]
    intro x hx; have := h x hx; simpa [bne] using this
  · dsimp only [State.dropSlot]
    rw [dropStaged_slots]
    split
    · rfl
    · show (postCqe _ _ _ _ _ s).slots.filter _ = _
      rw [postCqe_slots]

theorem slot_filter_eq (s : State) (ix : Nat) : (s.slots.filter (·.ix != ix)).find? (·.ix == ix) = none := by
  rw [List.find?_eq_none]
  intro x hx
  simp only [List.mem_filter, bne_iff_ne, ne_eq] at hx
  simpa using hx.2

theorem finish_slot (ix : Nat) (st : Status) (d : Nat) (s : State) : (finish ix st d s).slot? ix = none := by
  unfold State.slot?
  rw [finish_slots]
  exact slot_filter_eq s ix

theorem finish_slot_ne (ix j : Nat) (h : j ≠ ix) (st : Status) (d : Nat) (s : State) :
    (finish ix st d s).slot? j = s.slot? j := by
  unfold State.slot?
  rw [finish_slots, List.find?_filter]
  congr 1
  funext x
  by_cases e : x.ix = j
  · subst e; simp [h]
  · simp [e]

/-- Messages only join the outbox. -/
theorem sendMsix_outbox (f : Fn) (v : Nat) (s : State) (o : Output) (h : o ∈ s.outbox) : o ∈ (sendMsix f v s).outbox := by
  unfold sendMsix; split
  · exact h
  · split
    · exact h
    · exact List.mem_cons_of_mem _ h

theorem interrupt_outbox (f : Fn) (q v : Nat) (s : State) (o : Output) (h : o ∈ s.outbox) : o ∈ (interrupt f q v s).outbox := by
  unfold interrupt; split
  · exact h
  · split
    · exact sendMsix_outbox _ _ _ _ h
    · dsimp only
      split
      · exact sendMsix_outbox _ _ _ _ h
      · exact h

theorem postCqe_outbox (f : Fn) (q cid : Nat) (st : Status) (d : Nat) (s : State) (o : Output) (h : o ∈ s.outbox) :
    o ∈ (postCqe f q cid st d s).outbox := by
  unfold postCqe; split
  · exact h
  · exact interrupt_outbox _ _ _ _ _ (List.mem_cons_of_mem _ h)

theorem postCqe_posts (f : Fn) (q cid : Nat) (st : Status) (d : Nat) (s : State) (h : (s.ctrl? f).isSome = true) :
    ∃ cq, Output.cqe f cq q cid st d ∈ (postCqe f q cid st d s).outbox := by
  unfold postCqe; split
  · rename_i e; rw [e] at h; cases h
  · rename_i c _
    exact ⟨(c.cqOf q).1, interrupt_outbox _ _ _ _ _ (List.mem_cons_self ..)⟩

theorem finish_outbox (ix : Nat) (st : Status) (d : Nat) (s : State) (o : Output) (h : o ∈ s.outbox) :
    o ∈ (finish ix st d s).outbox := by
  unfold finish; split
  · exact h
  · dsimp only [State.dropSlot]
    rw [dropStaged_outbox]
    split
    · exact h
    · exact postCqe_outbox _ _ _ _ _ _ _ h

/-- The end of a command whose controller stands posts its entry and frees its slot. -/
theorem finish_posted {sl : Slot} (st : Status) (d : Nat) {s : State} (h : s.slot? sl.ix = some sl) (o : sl.orphan = false)
    (c : (s.ctrl? sl.fn).isSome = true) : Posted sl st d (finish sl.ix st d s) := by
  refine ⟨finish_slot _ _ _ _, ?_⟩
  unfold finish
  rw [h]
  dsimp only [State.dropSlot]
  rw [dropStaged_outbox, o]
  exact postCqe_posts _ _ _ _ _ _ c

theorem complete_finish {sl : Slot} (st : Status) (d : Nat) {s : State} (h : s.slot? sl.ix = some sl) (t : sl.timers = [])
    (p : s.pfail.stopped = false) : complete sl.ix st d s = finish sl.ix st d s := by
  unfold complete
  rw [h]
  simp [p, t]

/-! ### Settling -/

theorem startWaiting_quiet (s : State) (h : s.slots.all (·.phase != .waitEarlier) = true) :
    s.slots.foldl (fun s sl => if sl.phase = .waitEarlier then startWaiting s sl else s) s = s := by
  have : ∀ (l : List Slot) (s : State), l.all (·.phase != .waitEarlier) = true →
      l.foldl (fun s sl => if sl.phase = .waitEarlier then startWaiting s sl else s) s = s := by
    intro l
    induction l with
    | nil => intros; rfl
    | cons a l ih =>
      intro s h
      rw [List.all_cons, Bool.and_eq_true] at h
      rw [List.foldl_cons, if_neg (by simpa using h.1)]
      exact ih s h.2
  exact this _ _ h

theorem settleSanitize_quiet (s : State) (h : s.tenants.all (·.sanitize.isNone) = true) : settleSanitize s = s := by
  unfold settleSanitize
  have : s.tenants.filter (·.sanitize.isSome) = [] := by
    rw [List.filter_eq_nil_iff]
    rw [List.all_eq_true] at h
    intro a ha; have := h a ha; simp_all
  rw [this]; rfl

theorem settleShutdown_quiet (s : State) (h : s.ctrls.all (·.shst != 1) = true) : settleShutdown s = s := by
  unfold settleShutdown
  have : (s.ctrls.map fun c =>
      if c.shst = 1 && !(s.staged.any fun p => !p.tomb && p.committed && (tenantNs s c.fn.tenant).contains p.nsid)
      then { c with shst := 2 } else c) = s.ctrls := by
    conv => rhs; rw [← List.map_id s.ctrls]
    apply List.map_congr_left
    rw [List.all_eq_true] at h
    intro a ha
    have := h a ha
    simp only [bne_iff_ne, ne_eq] at this
    simp [this]
  rw [this]

/-- A quiet device only keeps its idle tick when it settles. -/
theorem settle_quiet (s : State) (h : quiet s = true) : settle s = touchIdle s := by
  simp only [quiet, Bool.and_eq_true] at h
  unfold settle
  dsimp only
  rw [startWaiting_quiet s h.1.1, settleSanitize_quiet s h.1.2, settleShutdown_quiet s h.2]

theorem quiet_of {t s : State} (h : quiet s = true) (a : t.slots.all (·.phase != .waitEarlier) = true)
    (b : t.tenants = s.tenants) (c : SameCtrls t s) : quiet t = true := by
  simp only [quiet, Bool.and_eq_true] at h ⊢
  exact ⟨⟨a, by rw [b]; exact h.1.2⟩, c.2 h.2⟩

theorem quiet_finish {s : State} (h : quiet s = true) (ix : Nat) (st : Status) (d : Nat) : quiet (finish ix st d s) = true := by
  refine quiet_of h ?_ (finish_frame ix st d s).1.2.2.2.2.2.2.2.2.2.2.2.1 (finish_ctrls _ _ _ _)
  rw [finish_slots]
  simp only [quiet, Bool.and_eq_true, List.all_eq_true] at h ⊢
  exact fun x hx => h.1.1 x (List.mem_filter.1 hx).1

/-- A command that ends while nothing else waits: settling adds nothing. -/
theorem settle_finish {s : State} (h : quiet s = true) (ix : Nat) (st : Status) (d : Nat) :
    settle (finish ix st d s) = touchIdle (finish ix st d s) := settle_quiet _ (quiet_finish h ix st d)

theorem posted_touchIdle {sl : Slot} {st : Status} {d : Nat} {u : State} (h : Posted sl st d u) : Posted sl st d (touchIdle u) := h

/-! ### Commands in slots that run -/

/-- `t` has what the end of a command needs from `s`. -/
structure Near (t s : State) : Prop where
  slots : t.slots = s.slots
  tenants : t.tenants = s.tenants
  pfail : t.pfail = s.pfail
  ctrl : ∀ f, (s.ctrl? f).isSome = true → (t.ctrl? f).isSome = true
  shst : s.ctrls.all (·.shst != 1) = true → t.ctrls.all (·.shst != 1) = true

theorem near_arrive (s : State) (t : Tick) : Near (s.arrive t) s := ⟨rfl, rfl, rfl, fun _ h => h, id⟩

theorem near_emit {a s : State} (h : Near a s) (o : Output) : Near (a.emit o) s := ⟨h.1, h.2, h.3, h.4, h.5⟩

theorem near_setCtrl {a s : State} (h : Near a s) (f : Fn) (g : Ctrl → Ctrl) (hf : ∀ x, (g x).fn = x.fn)
    (hs : ∀ x, (g x).shst = x.shst) : Near (a.setCtrl f g) s := by
  refine ⟨h.1, h.2, h.3, fun k e => ?_, fun e => ?_⟩
  · rw [ctrl_setCtrl_of a f g hf]
    have := h.4 k e
    split <;> simp [this]
  · have h5 := h.5 e
    have : ∀ cs : List Ctrl, cs.all (·.shst != 1) = true →
        (cs.map fun c => if c.fn = f then g c else c).all (·.shst != 1) = true := by
      intro cs hc
      rw [List.all_map]
      rw [List.all_eq_true] at hc ⊢
      intro x hx
      have := hc x hx
      simp only [Function.comp]
      split
      · rw [hs]; exact this
      · exact this
    refine this _ ?_
    split
    · exact h5
    · simpa using h5

theorem near_quiet {a s : State} (h : Near a s) (q : quiet s = true) : quiet a = true := by
  simp only [quiet, Bool.and_eq_true] at q ⊢
  exact ⟨⟨by rw [h.1]; exact q.1.1, by rw [h.2]; exact q.1.2⟩, h.5 q.2⟩

theorem Ready.fetched {s : State} {sl : Slot} (h : Ready s sl) (t : Tick) (p : Body → Bool) (hp : p sl.sqe.body = true) :
    fetched (s.arrive t) sl.ix p = true := by
  obtain ⟨h1, h2, h3, -⟩ := h
  unfold Machine.fetched
  rw [show (s.arrive t).slot? sl.ix = some sl from h1]
  have : (s.arrive t).serving = true := h3
  simp [h2, hp, this]

theorem adminRun_ready {s : State} {sl : Slot} (h : Ready s sl) (t : Tick) (p : Body → Bool) (hp : p sl.sqe.body = true)
    (run : Slot → State → State) : adminRun sl.ix p run (s.arrive t) = settle (run sl (s.arrive t)) := by
  unfold adminRun
  rw [h.fetched t p hp, show (s.arrive t).fw.pauseSince = none from h.2.2.2.1, show (s.arrive t).slot? sl.ix = some sl from h.1]
  simp only [Bool.not_true, Option.isSome_none, Bool.or_self, Bool.false_eq_true, if_false, h.2.2.2.2.1]

theorem settle_complete {s a : State} {sl : Slot} (h : Ready s sl) (n : Near a s) (st : Status) (d : Nat) :
    settle (complete sl.ix st d a) = touchIdle (finish sl.ix st d a) ∧ Posted sl st d (touchIdle (finish sl.ix st d a)) := by
  obtain ⟨h1, h2, h3, h4, h5, h6, h7, h8, h9⟩ := h
  have hs : a.slot? sl.ix = some sl := by unfold State.slot?; rw [n.1]; exact h1
  have hp : a.pfail.stopped = false := by
    rw [n.3]; simp [State.serving] at h3; exact h3.2
  rw [complete_finish st d hs h7 hp]
  exact ⟨settle_finish (near_quiet n h9) _ _ _, finish_posted st d hs h6 (n.4 _ h8)⟩

theorem ctrlView_of {ix st d} {a : State} {f : Fn} {c : Ctrl} (h : a.ctrl? f = some c) :
    ∃ c', (touchIdle (finish ix st d a)).ctrl? f = some c' ∧ ctrlView c' = ctrlView c := by
  have e : (touchIdle (finish ix st d a)).ctrl? f = (finish ix st d a).ctrl? f := rfl
  have k := (finish_ctrls ix st d a).1 f
  rw [h] at k
  rw [e]
  cases hc : (finish ix st d a).ctrl? f with
  | none => rw [hc] at k; cases k
  | some c' => rw [hc] at k; exact ⟨c', rfl, Option.some.inj k⟩

theorem field_of {ix st d} {a : State} {f : Fn} {c : Ctrl} {α} (g : Ctrl → α) (hg : ∀ x, g (ctrlView x) = g x) (h : a.ctrl? f = some c) :
    ((touchIdle (finish ix st d a)).ctrl? f).map g = some (g c) := by
  obtain ⟨c', h1, h2⟩ := ctrlView_of (ix := ix) (st := st) (d := d) h
  rw [h1, Option.map_some, ← hg, h2, hg]


theorem settle_ready {s a : State} {sl : Slot} (h : Ready s sl) (st : Status) (d : Nat) (n : Near a s) :
    settle (complete sl.ix st d a) = touchIdle (finish sl.ix st d a) := (settle_complete h n st d).1
theorem posted_ready {s a : State} {sl : Slot} (h : Ready s sl) {st : Status} {d : Nat} (n : Near a s) :
    Posted sl st d (touchIdle (finish sl.ix st d a)) := (settle_complete h n st d).2

end Sys2Proof.Machine
end

