-- ==== Sys2Proof/Laws/Keeps.lean ====
section
/-! SUPPORT. One lemma per shared operation: it leaves the queue of waiting commands, MIN_SVN and the mask of
revoked keys as they were (R421). Only `raiseSvn` writes the last two; its lemma says that both only rise. -/

namespace Sys2Proof.Machine

/-- `t` has the queue, the MIN_SVN and the revoked keys of `s`. -/
@[simp, reducible] def Keeps (t s : State) : Prop :=
  t.pending = s.pending ∧ t.fw.minSvn = s.fw.minSvn ∧ t.fw.revoked = s.fw.revoked

theorem Keeps.trans {a b c : State} (h : Keeps a b) (k : Keeps b c) : Keeps a c :=
  ⟨h.1.trans k.1, h.2.1.trans k.2.1, h.2.2.trans k.2.2⟩

theorem ite_keeps (c : Prop) [Decidable c] {a b s : State} (ha : Keeps a s) (hb : Keeps b s) :
    Keeps (if c then a else b) s := by
  split
  · exact ha
  · exact hb

theorem foldl_keeps' {α} (f : State → α → State) (xs : List α) (s s0 : State)
    (h : ∀ s x, Keeps (f s x) s) (h0 : Keeps s s0) : Keeps (xs.foldl f s) s0 := by
  induction xs generalizing s with
  | nil => exact h0
  | cons x xs ih => exact ih _ ⟨(h s x).1.trans h0.1, (h s x).2.1.trans h0.2.1, (h s x).2.2.trans h0.2.2⟩

@[simp] theorem foldl_keeps {α} (f : State → α → State) (xs : List α) (s : State)
    (h1 : ∀ s x, (f s x).pending = s.pending) (h2 : ∀ s x, (f s x).fw.minSvn = s.fw.minSvn)
    (h3 : ∀ s x, (f s x).fw.revoked = s.fw.revoked) : Keeps (xs.foldl f s) s :=
  foldl_keeps' f xs s s (fun s x => ⟨h1 s x, h2 s x, h3 s x⟩) ⟨rfl, rfl, rfl⟩

/-! ### Ops -/

@[simp] theorem State.arrive_keeps (s : State) (t : Tick) : Keeps (State.arrive s t) s := by
  unfold State.arrive
  simp

@[simp] theorem State.emit_keeps (s : State) (o : Output) : Keeps (State.emit s o) s := by
  unfold State.emit
  simp

@[simp] theorem State.setCtrl_keeps (s : State) (f : Fn) (g : Ctrl → Ctrl) : Keeps (State.setCtrl s f g) s := by
  unfold State.setCtrl
  simp

@[simp] theorem State.setSlot_keeps (s : State) (i : Nat) (g : Slot → Slot) : Keeps (State.setSlot s i g) s := by
  unfold State.setSlot
  simp

@[simp] theorem State.dropSlot_keeps (s : State) (i : Nat) : Keeps (State.dropSlot s i) s := by
  unfold State.dropSlot
  simp

@[simp] theorem State.setNs_keeps (s : State) (n : Nat) (g : Ns → Ns) : Keeps (State.setNs s n g) s := by
  unfold State.setNs
  simp

@[simp] theorem State.setTenant_keeps (s : State) (t : Nat) (g : Tenant → Tenant) :
    Keeps (State.setTenant s t g) s := by
  unfold State.setTenant
  simp

@[simp] theorem setNs_fold_keeps {α} (n : α → Nat) (g : α → Ns → Ns) (xs : List α) (s : State) :
    Keeps (xs.foldl (fun s x => s.setNs (n x) (g x)) s) s :=
  foldl_keeps' _ _ _ _ (fun _ _ => State.setNs_keeps ..) ⟨rfl, rfl, rfl⟩

@[simp] theorem setTenant_fold_keeps {α} (n : α → Nat) (g : α → Tenant → Tenant) (xs : List α) (s : State) :
    Keeps (xs.foldl (fun s x => s.setTenant (n x) (g x)) s) s :=
  foldl_keeps' _ _ _ _ (fun _ _ => State.setTenant_keeps ..) ⟨rfl, rfl, rfl⟩

@[simp] theorem State.setRun_keeps (s : State) (a : Nat) (g : GRun → GRun) : Keeps (State.setRun s a g) s := by
  unfold State.setRun
  simp

@[simp] theorem State.setEngine_keeps (s : State) (p : Nat) (g : Engine → Engine) :
    Keeps (State.setEngine s p g) s := by
  unfold State.setEngine
  simp

@[simp] theorem State.setLink_keeps (s : State) (p : Port) (g : Link → Link) : Keeps (State.setLink s p g) s := by
  unfold State.setLink
  (repeat' split) <;> simp

@[simp] theorem State.setDie_keeps (s : State) (d : DieId) (g : Die → Die) : Keeps (State.setDie s d g) s := by
  unfold State.setDie
  simp

@[simp] theorem State.setEp_keeps (s : State) (e : Endpoint) (g : Ep → Ep) : Keeps (State.setEp s e g) s := by
  unfold State.setEp
  simp

@[simp] theorem State.setCount_keeps (s : State) (t : Nat) (g : DspCount → DspCount) :
    Keeps (State.setCount s t g) s := by
  unfold State.setCount
  simp

@[simp] theorem rimeFlushStart_keeps (s : State) : Keeps (rimeFlushStart s) s := by
  unfold rimeFlushStart
  (repeat' split) <;> simp

@[simp] theorem rimeAppend_keeps (code sev : Nat) (tenant : Option Nat) (shared : Bool) (param : List Byte)
    (s : State) : Keeps (rimeAppend code sev tenant shared param s) s := by
  unfold rimeAppend
  dsimp only
  repeat' first
    | split
    | refine foldl_keeps' _ _ _ _ (fun _ _ => ?_) ?_
  all_goals simp

@[simp] theorem rime_keeps (code sev : Nat) (tenant : Option Nat) (shared : Bool) (param : List Byte)
    (s : State) : Keeps (rime code sev tenant shared param s) s := by
  unfold rime
  (repeat' split) <;> simp

@[simp] theorem rimeDev_keeps (code sev : Nat) (shared : Bool) (param : List Byte) (s : State) :
    Keeps (rimeDev code sev shared param s) s := by
  unfold rimeDev
  simp

@[simp] theorem rimeTen_keeps (code sev tenant : Nat) (param : List Byte) (s : State) :
    Keeps (rimeTen code sev tenant param s) s := by
  unfold rimeTen
  simp

@[simp] theorem rimeFlushEnd_keeps (s : State) : Keeps (rimeFlushEnd s) s := by
  unfold rimeFlushEnd
  split
  · simp
  · dsimp only
    split
    · split <;> simp
    · split <;> simp

/-! ### Firn -/

@[simp] theorem firnRebase_keeps (s : State) : Keeps (firnRebase s) s := by
  unfold firnRebase
  simp

@[simp] theorem firnEnter_keeps (l : Lock) (s : State) : Keeps (firnEnter l s) s := by
  unfold firnEnter
  (repeat' split) <;> simp

@[simp] theorem firnSetPeriod_keeps (s : State) : Keeps (firnSetPeriod s) s := by
  unfold firnSetPeriod
  simp

@[simp] theorem firnRestartLoss_keeps (at_ : Tick) (s : State) : Keeps (firnRestartLoss at_ s) s := by
  unfold firnRestartLoss
  simp

@[simp] theorem firnEdge_keeps (at_ : Tick) (s : State) : Keeps (firnEdge at_ s) s := by
  unfold firnEdge
  simp

@[simp] theorem firnLose_keeps (s : State) : Keeps (firnLose s) s := by
  unfold firnLose
  simp

@[simp] theorem firnHoldoverEnd_keeps (s : State) : Keeps (firnHoldoverEnd s) s := by
  unfold firnHoldoverEnd
  (repeat' split) <;> simp

@[simp] theorem epochReject_keeps (s : State) : Keeps (epochReject s) s := by
  unfold epochReject
  simp

@[simp] theorem devWinErr_keeps (f : Fn) (off : Nat) (s : State) : Keeps (devWinErr f off s) s := by
  unfold devWinErr
  simp

@[simp] theorem epochWrite_keeps (f : Fn) (count : Nat) (s : State) : Keeps (epochWrite f count s) s := by
  unfold epochWrite
  dsimp only
  repeat' first
    | split
    | refine foldl_keeps' _ _ _ _ (fun _ _ => ?_) ?_
  all_goals simp

@[simp] theorem losePtm_keeps (p : Port) (s : State) : Keeps (losePtm p s) s := by
  unfold losePtm
  (repeat' split) <;> simp

@[simp] theorem firnStart_keeps (s : State) : Keeps (firnStart s) s := by
  unfold firnStart
  simp

@[simp] theorem firnSourceChange_keeps (old : Nat) (s : State) : Keeps (firnSourceChange old s) s := by
  unfold firnSourceChange
  (repeat' split) <;> simp

@[simp] theorem firnNewPlan_keeps (p : Plan) (s : State) : Keeps (firnNewPlan p s) s := by
  unfold firnNewPlan
  dsimp only
  repeat' first
    | split
    | refine foldl_keeps' _ _ _ _ (fun _ _ => ?_) ?_
  all_goals simp

/-! ### HostOps -/

@[simp] theorem sendMsix_keeps (f : Fn) (vector : Nat) (s : State) : Keeps (sendMsix f vector s) s := by
  unfold sendMsix
  (repeat' split) <;> simp

@[simp] theorem interrupt_keeps (f : Fn) (cqid vector : Nat) (s : State) : Keeps (interrupt f cqid vector s) s := by
  unfold interrupt
  dsimp only
  repeat' first
    | split
    | refine foldl_keeps' _ _ _ _ (fun _ _ => ?_) ?_
  all_goals simp

@[simp] theorem postCqe_keeps (f : Fn) (sqid cid : Nat) (st : Status) (dw0 : Nat) (s : State) :
    Keeps (postCqe f sqid cid st dw0 s) s := by
  unfold postCqe
  (repeat' split) <;> simp

@[simp] theorem giveBack_keeps (sl : Slot) (s : State) : Keeps (giveBack sl s) s := by
  unfold giveBack
  simp

@[simp] theorem dropStaged_keeps (sl : Slot) (s : State) : Keeps (dropStaged sl s) s := by
  unfold dropStaged
  simp

@[simp] theorem dropReads_keeps (mine : ReadUse → Bool) (s : State) : Keeps (dropReads mine s) s := by
  unfold dropReads
  simp

@[simp] theorem finish_keeps (ix : Nat) (st : Status) (dw0 : Nat) (s : State) : Keeps (finish ix st dw0 s) s := by
  unfold finish
  (repeat' split) <;> simp

@[simp] theorem complete_keeps (ix : Nat) (st : Status) (dw0 : Nat) (s : State) : Keeps (complete ix st dw0 s) s := by
  unfold complete
  (repeat' split) <;> simp

@[simp] theorem completeAborted_keeps (ix by_ dw0 : Nat) (s : State) : Keeps (completeAborted ix by_ dw0 s) s := by
  unfold completeAborted
  (repeat' split) <;> simp

@[simp] theorem raiseEvent_keeps (f : Fn) (ev : Event) (s : State) : Keeps (raiseEvent f ev s) s := by
  unfold raiseEvent
  (repeat' split) <;> simp

@[simp] theorem raiseAll_keeps (p : Ctrl → Bool) (ev : Event) (s : State) : Keeps (raiseAll p ev s) s := by
  unfold raiseAll
  simp

@[simp] theorem raiseSmart_keeps (s : State) : Keeps (raiseSmart s) s := by
  unfold raiseSmart
  simp

@[simp] theorem touchIdle_keeps (s : State) : Keeps (touchIdle s) s := by
  unfold touchIdle
  simp

@[simp] theorem takeAsn_keeps (s : State) : Keeps (takeAsn s) s := by
  unfold takeAsn
  simp

/-! ### Kdf -/

@[simp] theorem draw_keeps (n : Nat) (s : State) : Keeps (draw n s).2 s := by simp [draw]

@[simp] theorem freeNat_keeps (s : State) : Keeps (freeNat s).2 s := by simp [freeNat]

@[simp] theorem pick_keeps (cands : List Nat) (s : State) : Keeps (pick cands s).2 s := by
  unfold pick
  split <;> simp

/-! ### MediaOps -/

@[simp] theorem askPages_keeps (nsid : Nat) (pages : List Nat) (s : State) : Keeps (askPages nsid pages s) s := by
  unfold askPages
  simp

@[simp] theorem touchPages_keeps (nsid : Nat) (pages : List Nat) (s : State) : Keeps (touchPages nsid pages s) s := by
  unfold touchPages
  simp

@[simp] theorem reserveWrite_keeps (what num : Nat) (bytes : List Byte) (s : State) :
    Keeps (reserveWrite what num bytes s) s := by
  unfold reserveWrite
  simp

@[simp] theorem reservePages_keeps (what first : Nat) (bytes : List Byte) (s : State) :
    Keeps (reservePages what first bytes s) s := by
  unfold reservePages
  simp

@[simp] theorem flushPiece_keeps (image : Nat) (p : Staged) (s : State) : Keeps (flushPiece image p s) s := by
  unfold flushPiece
  simp

@[simp] theorem rimeWritten_keeps (s : State) : Keeps (rimeWritten s) s := by
  unfold rimeWritten
  simp

@[simp] theorem keepFor_keeps (nsid lba : Nat) (old new : Nat × List Byte) (dropped : Bool) (s : State) :
    Keeps (keepFor nsid lba old new dropped s) s := by
  unfold keepFor
  simp

@[simp] theorem takeCharge_keeps (nsid : Nat) (charge : List (Nat × Nat)) (s : State) :
    Keeps (takeCharge nsid charge s) s := by
  unfold takeCharge
  simp

@[simp] theorem setLeanLimits_keeps (s : State) : Keeps (setLeanLimits s) s := by
  unfold setLeanLimits
  simp

@[simp] theorem enterDevState_keeps (d : DevState) (cause : Nat) (s : State) : Keeps (enterDevState d cause s) s := by
  unfold enterDevState
  simp

@[simp] theorem failUncommitted_keeps (but : Option Nat) (s : State) : Keeps (failUncommitted but s) s := by
  unfold failUncommitted
  simp

@[simp] theorem checkDevState_keeps (but : Option Nat) (s : State) : Keeps (checkDevState but s) s := by
  unfold checkDevState
  dsimp only
  repeat' first
    | split
    | refine foldl_keeps' _ _ _ _ (fun _ _ => ?_) ?_
  all_goals simp

@[simp] theorem enterDamaged_keeps (nsid lba : Nat) (s : State) : Keeps (enterDamaged nsid lba s) s := by
  unfold enterDamaged
  (repeat' split) <;> simp

@[simp] theorem blocksLost_keeps (but : Option Nat) (s : State) : Keeps (blocksLost but s) s := by
  unfold blocksLost
  (repeat' split) <;> simp

@[simp] theorem setBlock_keeps (d : DieId) (num : Nat) (g : Block → Block) (s : State) :
    Keeps (setBlock d num g s) s := by
  unfold setBlock
  simp

@[simp] theorem queueRefresh_keeps (d : DieId) (num : Nat) (s : State) : Keeps (queueRefresh d num s) s := by
  unfold queueRefresh
  (repeat' split) <;> simp

@[simp] theorem countRead_keeps (d : DieId) (num : Nat) (s : State) : Keeps (countRead d num s) s := by
  unfold countRead
  dsimp only
  repeat' first
    | split
    | refine foldl_keeps' _ _ _ _ (fun _ _ => ?_) ?_
  all_goals simp

@[simp] theorem setBand_keeps (serial : Nat) (g : Band → Band) (s : State) : Keeps (setBand serial g s) s := by
  unfold setBand
  simp

@[simp] theorem moveReserve_keeps (s : State) : Keeps (moveReserve s) s := by
  unfold moveReserve
  dsimp only
  repeat' first
    | split
    | refine foldl_keeps' _ _ _ _ (fun _ _ => ?_) ?_
  all_goals simp

theorem openBand_keeps (kind : BandKind) (dom : Nat) (s : State) (x : State × Band) (h : openBand kind dom s = some x) :
    Keeps x.1 s := by
  unfold openBand at h
  simp only [Option.ite_none_left_eq_some, Option.some.injEq] at h
  obtain ⟨-, rfl⟩ := h
  dsimp only
  split <;> simp

theorem bandFor_keeps (kind : BandKind) (dom : Nat) (no : List Nat) (s : State) (x : State × Band)
    (h : bandFor kind dom no s = some x) : Keeps x.1 s := by
  unfold bandFor at h
  split at h
  · have h := Option.some.inj h
    subst h
    simp
  · exact openBand_keeps _ _ _ _ h

@[simp] theorem dropWaiting_keeps (d : DieId) (o : DieOp) (s : State) : Keeps (dropWaiting d o s) s := by
  unfold dropWaiting
  simp

@[simp] theorem dieStart_keeps (d : DieId) (o : DieOp) (s : State) : Keeps (dieStart d o s) s := by
  unfold dieStart
  (repeat' split) <;> simp

@[simp] theorem dieResume_keeps (d : DieId) (o : DieOp) (s : State) : Keeps (dieResume d o s) s := by
  unfold dieResume
  simp

@[simp] theorem dieKick_keeps (d : DieId) (s : State) : Keeps (dieKick d s) s := by
  unfold dieKick
  dsimp only
  repeat' first
    | split
    | refine foldl_keeps' _ _ _ _ (fun _ _ => ?_) ?_
  all_goals simp

@[simp] theorem dieAsk_keeps (d : DieId) (o : DieOp) (s : State) : Keeps (dieAsk d o s) s := by
  unfold dieAsk
  simp

@[simp] theorem kickAll_keeps (s : State) : Keeps (kickAll s) s := by
  unfold kickAll
  simp

@[simp] theorem startRebuild_keeps (u : ReadUse) (serial row ch : Nat) (s : State) :
    Keeps (startRebuild u serial row ch s).1 s := by
  unfold startRebuild
  split
  · simp
  · dsimp only
    split
    · simp
    · split
      · simp
      · exact foldl_keeps' _ _ _ _ (fun _ _ => by split <;> simp) (by simp)

@[simp] theorem askPage_keeps (u : ReadUse) (serial row ch : Nat) (s : State) :
    Keeps (askPage u serial row ch s).1 s := by
  unfold askPage
  repeat' split
  all_goals simp

/-- A fold that carries an answer beside the state keeps what each of its steps keeps. -/

theorem foldl_fst_keeps {α β : Type} (f : State × β → α → State × β) (xs : List α) (x : State × β) (s0 : State)
    (h : ∀ x y, Keeps (f x y).1 x.1) (h0 : Keeps x.1 s0) : Keeps (xs.foldl f x).1 s0 := by
  induction xs generalizing x with
  | nil => exact h0
  | cons y ys ih =>
    exact ih _ ⟨(h x y).1.trans h0.1, (h x y).2.1.trans h0.2.1, (h x y).2.2.trans h0.2.2⟩

@[simp] theorem askFetch_keeps (u : ReadUse) (r : Run) (e : MapEntry) (s : State) :
    Keeps (askFetch u r e s).1 s := by
  unfold askFetch
  dsimp only
  generalize hx : List.foldl _ (_ : State × PageAsk) _ = x
  have k : Keeps x.1 s := by
    rw [← hx]
    refine foldl_fst_keeps _ _ _ _ (fun y p => ?_) (by simp)
    split
    · simp
    · split <;> simp
  (repeat' split) <;> simp [k.1, k.2.1, k.2.2]

@[simp] theorem writeMapPage_keeps (nsid page : Nat) (s : State) : Keeps (writeMapPage nsid page s) s := by
  unfold writeMapPage
  (repeat' split) <;> simp

@[simp] theorem writeUntil_keeps (bound : Nat) (s : State) : Keeps (writeUntil bound s) s := by
  unfold writeUntil
  exact foldl_keeps' _ _ _ _ (fun _ _ => by split <;> simp) (by simp)

@[simp] theorem journalFlush_keeps (s : State) : Keeps (journalFlush s) s := by
  unfold journalFlush
  (repeat' split) <;> simp

@[simp] theorem journalAdd_keeps (n : Nat) (s : State) : Keeps (journalAdd n s) s := by
  unfold journalAdd
  (repeat' split) <;> simp

@[simp] theorem setEntry_keeps (nsid grain : Nat) (e : MapEntry) (s : State) : Keeps (setEntry nsid grain e s) s := by
  unfold setEntry
  simp

@[simp] theorem purgeTombs_keeps (s : State) : Keeps (purgeTombs s) s := by
  unfold purgeTombs
  simp

/-! ### Power -/

@[simp] theorem avsSend_keeps (level tries : Nat) (s : State) : Keeps (avsSend level tries s) s := by
  unfold avsSend
  simp

@[simp] theorem avsAsk_keeps (level : Nat) (s : State) : Keeps (avsAsk level s) s := by
  unfold avsAsk
  (repeat' split) <;> simp

@[simp] theorem psReach_keeps (n : Nat) (wake : Bool) (s : State) : Keeps (psReach n wake s) s := by
  unfold psReach
  dsimp only
  repeat' first
    | split
    | refine foldl_keeps' _ _ _ _ (fun _ _ => ?_) ?_
  all_goals simp

@[simp] theorem psExit_keeps (m : Nat) (s : State) : Keeps (psExit m s) s := by
  unfold psExit
  (repeat' split) <;> simp

@[simp] theorem psExitNext_keeps (m : Nat) (s : State) : Keeps (psExitNext m s) s := by
  unfold psExitNext
  simp

@[simp] theorem psLower_keeps (n : Nat) (s : State) : Keeps (psLower n s) s := by
  unfold psLower
  dsimp only
  split <;> simp

@[simp] theorem psEnter_keeps (n : Nat) (s : State) : Keeps (psEnter n s) s := by
  unfold psEnter
  (repeat' split) <;> simp

@[simp] theorem wake_keeps (s : State) : Keeps (wake s) s := by
  unfold wake
  dsimp only
  repeat' first
    | split
    | refine foldl_keeps' _ _ _ _ (fun _ _ => ?_) ?_
  all_goals simp

@[simp] theorem psDecide_keeps (s : State) : Keeps (psDecide s) s := by
  unfold psDecide
  (repeat' split) <;> simp

@[simp] theorem psTryPending_keeps (s : State) : Keeps (psTryPending s) s := by
  unfold psTryPending
  (repeat' split) <;> simp

@[simp] theorem psEntryEnd_keeps (s : State) : Keeps (psEntryEnd s) s := by
  unfold psEntryEnd
  dsimp only
  repeat' first
    | split
    | refine foldl_keeps' _ _ _ _ (fun _ _ => ?_) ?_
  all_goals simp

@[simp] theorem avsAcked_keeps (s : State) : Keeps (avsAcked s) s := by
  unfold avsAcked
  dsimp only
  repeat' first
    | split
    | refine foldl_keeps' _ _ _ _ (fun _ _ => ?_) ?_
  all_goals simp

@[simp] theorem regulatorFault_keeps (level : Nat) (s : State) : Keeps (regulatorFault level s) s := by
  unfold regulatorFault
  dsimp only
  repeat' first
    | split
    | refine foldl_keeps' _ _ _ _ (fun _ _ => ?_) ?_
  all_goals simp

@[simp] theorem pmbusStart_keeps (use : Nat) (s : State) : Keeps (pmbusStart use s) s := by
  unfold pmbusStart
  simp

/-! ### Drain -/

theorem grantOne_keeps (s t : State) (h : grantOne s = some t) : Keeps t s := by
  unfold grantOne at h
  repeat' first
    | split at h
    | (dsimp only at h; split at h)
  all_goals try dsimp only at h
  all_goals first
    | exact (Option.some_ne_none _ h.symm).elim
    | (have h := Option.some.inj h; subst h; simp; done)
    | (have h := Option.some.inj h; subst h; repeat' split
       all_goals simp)

@[simp] theorem grantRoom_keeps (n : Nat) (s : State) : Keeps (grantRoom n s) s := by
  induction n generalizing s with
  | zero => simp [grantRoom]
  | succ n ih =>
    unfold grantRoom
    split
    · simp
    · rename_i t h
      simp [ih, grantOne_keeps s t h]

@[simp] theorem undamage_keeps (nsid lba count : Nat) (s : State) : Keeps (undamage nsid lba count s) s := by
  unfold undamage
  simp

@[simp] theorem keepForRuns_keeps (nsid lba : Nat) (old new : Nat × List Byte) (dropped : Bool) (s : State) :
    Keeps (keepForRuns nsid lba old new dropped s) s := by
  unfold keepForRuns
  simp

@[simp] theorem moveGrain_keeps (n : Ns) (grain : Nat) (e : MapEntry) (data : List (List Byte)) (asns : List Nat)
    (s : State) : Keeps (moveGrain n grain e data asns s) s := by
  unfold moveGrain
  dsimp only
  repeat' first
    | split
    | refine foldl_keeps' _ _ _ _ (fun _ _ => ?_) ?_
  all_goals simp

@[simp] theorem dropCharge_keeps (nsid : Nat) (charge : List (Nat × Nat)) (s : State) :
    Keeps (dropCharge nsid charge s) s := by
  unfold dropCharge
  simp

@[simp] theorem updPiece_keeps (asn lba : Nat) (g : Piece → Piece) (s : State) : Keeps (updPiece asn lba g s) s := by
  unfold updPiece
  simp

@[simp] theorem settleWrites_keeps (s : State) : Keeps (settleWrites s) s := by
  unfold settleWrites
  dsimp only
  repeat' first
    | split
    | refine foldl_keeps' _ _ _ _ (fun _ _ => ?_) ?_
  all_goals simp

@[simp] theorem dropStale_keeps (p : Staged) (s : State) : Keeps (dropStale p s) s := by
  unfold dropStale
  (repeat' split) <;> simp

@[simp] theorem commitPieces_keeps (p : Staged) (s : State) : Keeps (commitPieces p s) s := by
  unfold commitPieces
  split
  · simp
  · dsimp only
    split
    · simp
    · split
      · simp
      · simp only [Keeps, journalAdd_keeps]
        refine foldl_keeps' _ _ _ _ (fun _ _ => by simp) (foldl_keeps' _ _ _ _ (fun _ _ => by split <;> simp) ?_)
        refine foldl_keeps' _ _ _ _ (fun _ _ => by simp) (foldl_keeps' _ _ _ _ (fun _ _ => ?_)
          (foldl_keeps' _ _ _ _ (fun _ _ => by split <;> simp) (by simp)))
        refine foldl_keeps' _ _ _ _ (fun _ _ => ?_) (by simp)
        split
        · simp
        · split <;> simp

@[simp] theorem commitReady_keeps (s : State) : Keeps (commitReady s) s := by
  simp only [Keeps, commitReady, purgeTombs_keeps, settleWrites_keeps]
  refine foldl_keeps' _ _ _ _ (fun _ _ => ?_) (by simp)
  split <;> simp

@[simp] theorem foldParity_keeps (serial row : Nat) (image : List Byte) (s : State) :
    Keeps (foldParity serial row image s) s := by
  unfold foldParity
  simp

@[simp] theorem issueParity_keeps (serial : Nat) (s : State) : Keeps (issueParity serial s) s := by
  unfold issueParity
  (repeat' split) <;> simp

@[simp] theorem issuePage_keeps (serial p : Nat) (s : State) : Keeps (issuePage serial p s) s := by
  unfold issuePage
  (repeat' split) <;> simp

@[simp] theorem issuePages_keeps (serial : Nat) (s : State) : Keeps (issuePages serial s) s := by
  unfold issuePages
  (repeat' split) <;> simp

@[simp] theorem fillBand_keeps (serial upto : Nat) (s : State) : Keeps (fillBand serial upto s) s := by
  unfold fillBand
  simp

@[simp] theorem fillGroup_keeps (serial : Nat) (s : State) : Keeps (fillGroup serial s) s := by
  unfold fillGroup
  (repeat' split) <;> simp

theorem putRuns_keeps (serial : Nat) (ps : List Placed) (s t : State) (h : putRuns serial ps s = some t) :
    Keeps t s := by
  unfold putRuns at h
  split at h
  · exact (Option.some_ne_none _ h.symm).elim
  · simp only [Option.ite_none_left_eq_some, Option.some.injEq] at h
    obtain ⟨-, rfl⟩ := h
    simp

@[simp] theorem placeRuns_keeps (kind : BandKind) (dom : Nat) (no : List Nat) (ps : List Placed) (s : State) :
    Keeps (placeRuns kind dom no ps s) s := by
  unfold placeRuns
  dsimp only
  split
  · simp
  · rename_i t b hb
    have k1 : Keeps t s := bandFor_keeps _ _ _ _ _ hb
    split
    · rename_i u hu
      have k2 := putRuns_keeps _ _ _ _ hu
      exact ⟨k2.1.trans k1.1, k2.2.1.trans k1.2.1, k2.2.2.trans k1.2.2⟩
    · split
      · simpa using k1
      · rename_i t' b' hb'
        have k2 := bandFor_keeps _ _ _ _ _ hb'
        have k2 : Keeps t' s := by simpa [k1.1, k1.2.1, k1.2.2] using k2
        cases hp : putRuns b'.serial ps t' with
        | none => simpa using k2
        | some u =>
          have k3 := putRuns_keeps _ _ _ _ hp
          exact ⟨k3.1.trans k2.1, k3.2.1.trans k2.2.1, k3.2.2.trans k2.2.2⟩

@[simp] theorem drainVerified_keeps (p : Placed) (s : State) : Keeps (drainVerified p s) s := by
  unfold drainVerified
  simp

@[simp] theorem copyVerified_keeps (r : Run) (src : MapEntry) (s : State) : Keeps (copyVerified r src s) s := by
  unfold copyVerified
  dsimp only
  repeat' first
    | split
    | refine foldl_keeps' _ _ _ _ (fun _ _ => ?_) ?_
  all_goals simp

@[simp] theorem settleBand_keeps (serial : Nat) (s : State) : Keeps (settleBand serial s) s := by
  unfold settleBand
  dsimp only
  repeat' first
    | split
    | refine foldl_keeps' _ _ _ _ (fun _ _ => ?_) ?_
  all_goals first
    | (simp; done)
    | (simp
       repeat' first
         | split
         | refine foldl_keeps' _ _ _ _ (fun _ _ => ?_) ?_
       all_goals simp)

@[simp] theorem encodeGrain_keeps (p : Staged) (n : Ns) (grain : Nat) (verified : Bool) (s : State) :
    Keeps (encodeGrain p n grain verified s) s := by
  unfold encodeGrain
  (repeat' split) <;> simp

@[simp] theorem placeGroup_keeps (n : Ns) (grain : Nat) (s : State) : Keeps (placeGroup n grain s) s := by
  unfold placeGroup
  dsimp only
  repeat' first
    | split
    | refine foldl_keeps' _ _ _ _ (fun _ _ => ?_) ?_
  all_goals simp

@[simp] theorem fetchEntry_keeps (u : ReadUse) (n : Ns) (grain : Nat) (s : State) :
    Keeps (fetchEntry u n grain s).1 s := by
  unfold fetchEntry
  dsimp only
  split <;> simp

@[simp] theorem encodeCopy_keeps (nsid grain : Nat) (e : MapEntry) (s : State) :
    Keeps (encodeCopy nsid grain e s) s := by
  unfold encodeCopy
  (repeat' split) <;> simp

@[simp] theorem programAll_keeps (s : State) : Keeps (programAll s) s := by
  unfold programAll
  dsimp only
  repeat' first
    | split
    | refine foldl_keeps' _ _ _ _ (fun _ _ => ?_) ?_
  all_goals simp

@[simp] theorem drainAll_keeps (s : State) : Keeps (drainAll s) s := by
  unfold drainAll
  dsimp only
  repeat' first
    | split
    | refine foldl_keeps' _ _ _ _ (fun _ _ => ?_) ?_
  all_goals first
    | (simp; done)
    | (simp
       repeat' first
         | split
         | refine foldl_keeps' _ _ _ _ (fun _ _ => ?_) ?_
       all_goals simp)

@[simp] theorem blankNs_keeps (nsid : Nat) (s : State) : Keeps (blankNs nsid s) s := by
  unfold blankNs
  simp

@[simp] theorem cryptoErase_keeps (nsid : Nat) (s : State) : Keeps (cryptoErase nsid s) s := by
  unfold cryptoErase
  simp

@[simp] theorem formatNs_keeps (nsid lbaf : Nat) (s : State) : Keeps (formatNs nsid lbaf s) s := by
  unfold formatNs
  simp

@[simp] theorem slmPut_keeps (tenant off : Nat) (bs : List Byte) (s : State) : Keeps (slmPut tenant off bs s) s := by
  unfold slmPut
  simp

@[simp] theorem slmRun_keeps (sl : Slot) (s : State) : Keeps (slmRun sl s) s := by
  unfold slmRun
  (repeat' split) <;> simp

@[simp] theorem dropImage_keeps (tenant index : Nat) (s : State) : Keeps (dropImage tenant index s) s := by
  unfold dropImage
  simp

@[simp] theorem updImage_keeps (tenant index : Nat) (g : Image → Image) (s : State) :
    Keeps (updImage tenant index g s) s := by
  unfold updImage
  simp

@[simp] theorem startWaiting_keeps (s : State) (sl : Slot) : Keeps (startWaiting s sl) s := by
  unfold startWaiting
  dsimp only
  repeat' first
    | split
    | refine foldl_keeps' _ _ _ _ (fun _ _ => ?_) ?_
  all_goals simp

@[simp] theorem settleSanitize_keeps (s : State) : Keeps (settleSanitize s) s := by
  unfold settleSanitize
  dsimp only
  repeat' first
    | split
    | refine foldl_keeps' _ _ _ _ (fun _ _ => ?_) ?_
  all_goals simp

@[simp] theorem settleShutdown_keeps (s : State) : Keeps (settleShutdown s) s := by
  unfold settleShutdown
  simp

@[simp] theorem settle_keeps (s : State) : Keeps (settle s) s := by
  unfold settle
  dsimp only
  repeat' first
    | split
    | refine foldl_keeps' _ _ _ _ (fun _ _ => ?_) ?_
  all_goals first
    | (simp; done)
    | (simp
       repeat' first
         | split
         | refine foldl_keeps' _ _ _ _ (fun _ _ => ?_) ?_
       all_goals simp)

/-! ### NvmeIo -/

@[simp] theorem noteUnrecovered_keeps (ix lba : Nat) (s : State) : Keeps (noteUnrecovered ix lba s) s := by
  unfold noteUnrecovered
  (repeat' split) <;> simp

@[simp] theorem readMediaDone_keeps (ix : Nat) (s : State) : Keeps (readMediaDone ix s) s := by
  unfold readMediaDone
  (repeat' split) <;> simp

@[simp] theorem loseLba_keeps (ix lba : Nat) (s : State) : Keeps (loseLba ix lba s) s := by
  unfold loseLba
  simp

@[simp] theorem issueReads_keeps (ix : Nat) (grains : List Nat) (s : State) : Keeps (issueReads ix grains s) s := by
  unfold issueReads
  split
  · simp
  · split
    · simp
    · refine foldl_keeps' _ _ _ _ (fun _ _ => ?_) (by simp)
      dsimp only
      split
      · simp
      · split
        all_goals first
          | (simp; done)
          | (rename_i h
             have k := congrArg Prod.fst h
             dsimp only at k
             subst k
             simp)

@[simp] theorem purgeStill_keeps (s : State) : Keeps (purgeStill s) s := by
  unfold purgeStill
  simp

@[simp] theorem startRead_keeps (ix : Nat) (s : State) : Keeps (startRead ix s) s := by
  unfold startRead
  dsimp only
  repeat' first
    | split
    | refine foldl_keeps' _ _ _ _ (fun _ _ => ?_) ?_
  all_goals simp

@[simp] theorem runRead_keeps (ix : Nat) (s : State) : Keeps (runRead ix s) s := by
  unfold runRead
  (repeat' split) <;> simp

@[simp] theorem countStill_keeps (sl : Slot) (s : State) : Keeps (countStill sl s) s := by
  unfold countStill
  dsimp only
  repeat' first
    | split
    | refine foldl_keeps' _ _ _ _ (fun _ _ => ?_) ?_
  all_goals simp

@[simp] theorem landPieces_keeps (ix : Nat) (s : State) : Keeps (landPieces ix s) s := by
  unfold landPieces
  split
  · simp
  · refine foldl_keeps' _ _ _ _ (fun _ _ => ?_) (by simp)
    split
    · dsimp only
      split
      · simp
      · split
        · simp
        · have h : ∀ (xs : List Nat) (t : State) (n : Ns) (q : Staged), Keeps (xs.foldl (fun s g =>
              if (mergeGrain s n q g).2.2 then encodeGrain q n g true s else s) t) t := fun xs t n q =>
            foldl_keeps' _ _ _ _ (fun _ _ => by split <;> simp) ⟨rfl, rfl, rfl⟩
          split <;> simp [(h _ _ _ _).1, (h _ _ _ _).2.1, (h _ _ _ _).2.2]
    · simp

@[simp] theorem landAll_keeps (s : State) : Keeps (landAll s) s := by
  unfold landAll
  simp

@[simp] theorem startWrite_keeps (ix : Nat) (s : State) : Keeps (startWrite ix s) s := by
  unfold startWrite
  dsimp only
  repeat' first
    | split
    | refine foldl_keeps' _ _ _ _ (fun _ _ => ?_) ?_
  all_goals first
    | (simp; done)
    | (simp
       repeat' first
         | split
         | refine foldl_keeps' _ _ _ _ (fun _ _ => ?_) ?_
       all_goals simp)

@[simp] theorem runWrite_keeps (ix : Nat) (s : State) : Keeps (runWrite ix s) s := by
  unfold runWrite
  dsimp only
  repeat' first
    | split
    | refine foldl_keeps' _ _ _ _ (fun _ _ => ?_) ?_
  all_goals simp

@[simp] theorem resvRun_keeps (ix : Nat) (g : Resv → Fn → Status × Resv) (s : State) : Keeps (resvRun ix g s) s := by
  unfold resvRun
  (repeat' split) <;> simp

/-! ### Runs -/

@[simp] theorem updLane_keeps (asn edge ix : Nat) (g : Lane → Lane) (s : State) :
    Keeps (updLane asn edge ix g s) s := by
  unfold updLane
  simp

@[simp] theorem setTurn_keeps (asn edge : Nat) (t : Nat × Nat) (s : State) : Keeps (setTurn asn edge t s) s := by
  unfold setTurn
  simp

@[simp] theorem updRep_keeps (asn node ix : Nat) (g : Replica → Replica) (s : State) :
    Keeps (updRep asn node ix g s) s := by
  unfold updRep
  simp

@[simp] theorem startRep_keeps (asn node ix : Nat) (s : State) : Keeps (startRep asn node ix s) s := by
  unfold startRep
  (repeat' split) <;> simp

@[simp] theorem setEngUse_keeps (pos tenant : Nat) (g : EngUse → EngUse) (s : State) :
    Keeps (setEngUse pos tenant g s) s := by
  unfold setEngUse
  simp

@[simp] theorem countUnit_keeps (cls tenant bytes : Nat) (s : State) : Keeps (countUnit cls tenant bytes s) s := by
  unfold countUnit
  simp

@[simp] theorem touchStalls_keeps (asn : Nat) (s : State) : Keeps (touchStalls asn s) s := by
  unfold touchStalls
  (repeat' split) <;> simp

@[simp] theorem endDispatch_keeps (asn node rep : Nat) (s : State) : Keeps (endDispatch asn node rep s) s := by
  unfold endDispatch
  (repeat' split) <;> simp

@[simp] theorem reclaimRun_keeps (asn : Nat) (s : State) : Keeps (reclaimRun asn s) s := by
  unfold reclaimRun
  simp

@[simp] theorem zeroSinks_keeps (asn : Nat) (s : State) : Keeps (zeroSinks asn s) s := by
  unfold zeroSinks
  dsimp only
  repeat' first
    | split
    | refine foldl_keeps' _ _ _ _ (fun _ _ => ?_) ?_
  all_goals simp

@[simp] theorem completeRun_keeps (asn : Nat) (st : Status) (fail : Option (Nat × Nat × Nat)) (report : Bool)
    (s : State) : Keeps (completeRun asn st fail report s) s := by
  unfold completeRun
  (repeat' split) <;> simp

@[simp] theorem failNode_keeps (asn node rep status detail : Nat) (s : State) :
    Keeps (failNode asn node rep status detail s) s := by
  unfold failNode
  (repeat' split) <;> simp

@[simp] theorem noteFailure_keeps (asn edge lane : Nat) (s : State) : Keeps (noteFailure asn edge lane s) s := by
  unfold noteFailure
  dsimp only
  repeat' first
    | split
    | refine foldl_keeps' _ _ _ _ (fun _ _ => ?_) ?_
  all_goals simp

@[simp] theorem takeEnd_keeps (asn edge rep : Nat) (s : State) : Keeps (takeEnd asn edge rep s) s := by
  unfold takeEnd
  (repeat' split) <;> simp

@[simp] theorem consume_keeps (asn edge rep : Nat) (s : State) : Keeps (consume asn edge rep s) s := by
  unfold consume
  (repeat' split) <;> simp

@[simp] theorem emitBytes_keeps (asn edge rep : Nat) (bs : List Byte) (s : State) :
    Keeps (emitBytes asn edge rep bs s) s := by
  unfold emitBytes
  (repeat' split) <;> simp

@[simp] theorem emitEnd_keeps (asn edge rep : Nat) (s : State) : Keeps (emitEnd asn edge rep s) s := by
  unfold emitEnd
  (repeat' split) <;> simp

@[simp] theorem emitAnswer_keeps (asn edge rep : Nat) (bs : List Byte) (s : State) :
    Keeps (emitAnswer asn edge rep bs s) s := by
  unfold emitAnswer
  (repeat' split) <;> simp

@[simp] theorem noteWaiting_keeps (cls tenant mine all : Nat) (s : State) :
    Keeps (noteWaiting cls tenant mine all s) s := by
  unfold noteWaiting
  simp

@[simp] theorem countMoved_keeps (typ tenant bytes : Nat) (s : State) : Keeps (countMoved typ tenant bytes s) s := by
  unfold countMoved
  dsimp only
  (repeat' split) <;> simp

@[simp] theorem placeChunk_keeps (asn edge lane : Nat) (c : Chunk) (s : State) :
    Keeps (placeChunk asn edge lane c s) s := by
  unfold placeChunk
  simp

theorem pumpSource_keeps (s t : State) (asn edge rep : Nat) (h : pumpSource s asn edge rep = some t) : Keeps t s := by
  unfold pumpSource at h
  split at h
  · exact (Option.some_ne_none _ h.symm).elim
  · dsimp only at h
    split at h
    · exact (Option.some_ne_none _ h.symm).elim
    · split at h
      · split at h
        · exact (Option.some_ne_none _ h.symm).elim
        · have h := Option.some.inj h
          subst h
          exact foldl_keeps' _ _ _ _ (fun _ _ => by simp) (by simp)
      · split at h
        · exact (Option.some_ne_none _ h.symm).elim
        · split at h
          · have h := Option.some.inj h
            subst h
            simp
          · have h := Option.some.inj h
            subst h
            split
            · refine foldl_keeps' _ _ _ _ (fun _ _ => by simp) ?_
              split <;> simp
            · split <;> simp

theorem passEnded_keeps (s t : State) (asn edge : Nat) (r : GRun) (h : passEnded asn edge r s = some t) :
    Keeps t s := by
  unfold passEnded at h
  repeat' first
    | split at h
    | (dsimp only at h; split at h)
  all_goals try dsimp only at h
  all_goals first
    | exact (Option.some_ne_none _ h.symm).elim
    | (have h := Option.some.inj h; subst h; simp; done)
    | (have h := Option.some.inj h; subst h; repeat' split
       all_goals simp)

theorem pumpRedeal_keeps (s t : State) (asn edge : Nat) (h : pumpRedeal s asn edge = some t) : Keeps t s := by
  unfold pumpRedeal at h
  split at h
  · exact (Option.some_ne_none _ h.symm).elim
  · dsimp only at h
    repeat' first
    | split at h
    | (dsimp only at h; split at h)
    all_goals first
      | exact (Option.some_ne_none _ h.symm).elim
      | (have h := passEnded_keeps _ _ _ _ _ h; exact h)
      | (have h := Option.some.inj h
         subst h
         first
           | (simp; done)
           | exact foldl_keeps' _ _ _ _ (fun _ _ => by simp) (by simp)
           | (split
              · exact foldl_keeps' _ _ _ _ (fun _ _ => by simp) (by simp)
              · simp))

theorem pumpMerge_keeps (s t : State) (asn edge : Nat) (h : pumpMerge s asn edge = some t) : Keeps t s := by
  unfold pumpMerge at h
  repeat' first
    | split at h
    | (dsimp only at h; split at h)
  all_goals try dsimp only at h
  all_goals first
    | exact (Option.some_ne_none _ h.symm).elim
    | (have h := passEnded_keeps _ _ _ _ _ h; simpa using h)
    | (have h := Option.some.inj h; subst h; simp; done)
    | (have h := Option.some.inj h; subst h; repeat' split
       all_goals simp)

@[simp] theorem pumpMerge_getD_keeps (s : State) (asn edge : Nat) : Keeps ((pumpMerge s asn edge).getD s) s := by
  cases h : pumpMerge s asn edge with
  | none => simp
  | some t => simpa using pumpMerge_keeps s t asn edge h

@[simp] theorem nodeFetch_keeps (asn node nsid g lba : Nat) (m : Run) (e : MapEntry) (s : State) :
    Keeps (nodeFetch asn node nsid g lba m e s) s := by
  unfold nodeFetch
  split
  all_goals first
    | (simp; done)
    | (rename_i h
       have k := congrArg Prod.fst h
       dsimp only at k
       subst k
       simp)

theorem translateGrain_keeps (s t : State) (asn : Nat) (x : Nat × Nat × Nat × Nat)
    (h : translateGrain s asn x = some t) : Keeps t s := by
  unfold translateGrain at h
  repeat' first
    | split at h
    | (dsimp only at h; split at h)
  all_goals try dsimp only at h
  all_goals first
    | exact (Option.some_ne_none _ h.symm).elim
    | (have h := Option.some.inj h; subst h; simp; done)
    | (have h := Option.some.inj h; subst h; repeat' split
       all_goals simp)

theorem deliverLba_keeps (s t : State) (asn : Nat) (x : Nat × Nat × Nat × Nat)
    (h : deliverLba s asn x = some t) : Keeps t s := by
  unfold deliverLba at h
  repeat' first
    | split at h
    | (dsimp only at h; split at h)
  all_goals try dsimp only at h
  all_goals first
    | exact (Option.some_ne_none _ h.symm).elim
    | (have h := Option.some.inj h; subst h; simp; done)
    | (have h := Option.some.inj h; subst h; repeat' split
       all_goals simp)

theorem pumpEnd_keeps (s t : State) (asn node rep : Nat) (h : pumpEnd s asn node rep = some t) : Keeps t s := by
  unfold pumpEnd at h
  repeat' first
    | split at h
    | (dsimp only at h; split at h)
  all_goals first
    | exact (Option.some_ne_none _ h.symm).elim
    | skip
  have h := Option.some.inj h
  subst h
  refine foldl_keeps' _ _ _ _ (fun s x => ?_) (by simp)
  repeat' split
  all_goals simp

theorem orElse_cases {α} {a : Option α} {f : Unit → Option α} {t : α} (h : a.orElse f = some t) :
    a = some t ∨ f () = some t := by
  cases a with
  | none => exact .inr h
  | some x => exact .inl h

theorem pumpOnce_keeps (s t : State) (asn : Nat) (h : pumpOnce s asn = some t) : Keeps t s := by
  unfold pumpOnce at h
  split at h
  · exact (Option.some_ne_none _ h.symm).elim
  · split at h
    · exact (Option.some_ne_none _ h.symm).elim
    · dsimp only at h
      rcases orElse_cases h with h | h
      · obtain ⟨x, -, h⟩ := List.exists_of_findSome?_eq_some h
        exact deliverLba_keeps _ _ _ _ h
      rcases orElse_cases h with h | h
      · obtain ⟨x, -, h⟩ := List.exists_of_findSome?_eq_some h
        exact translateGrain_keeps _ _ _ _ h
      rcases orElse_cases h with h | h
      · obtain ⟨x, -, h⟩ := List.exists_of_findSome?_eq_some h
        obtain ⟨y, -, h⟩ := List.exists_of_findSome?_eq_some h
        exact pumpSource_keeps _ _ _ _ _ h
      rcases orElse_cases h with h | h
      · obtain ⟨x, -, h⟩ := List.exists_of_findSome?_eq_some h
        exact pumpRedeal_keeps _ _ _ _ h
      rcases orElse_cases h with h | h
      · obtain ⟨x, -, h⟩ := List.exists_of_findSome?_eq_some h
        exact pumpMerge_keeps _ _ _ _ h
      obtain ⟨x, -, h⟩ := List.exists_of_findSome?_eq_some h
      exact pumpEnd_keeps _ _ _ _ _ h

@[simp] theorem pumpN_keeps (n asn : Nat) (s : State) : Keeps (pumpN n asn s) s := by
  induction n generalizing s with
  | zero => simp [pumpN]
  | succ n ih =>
    unfold pumpN
    split
    · simp
    · rename_i t h
      simp [ih, pumpOnce_keeps s t asn h]

@[simp] theorem touchChain_keeps (asn : Nat) (s : State) : Keeps (touchChain asn s) s := by
  unfold touchChain
  dsimp only
  repeat' first
    | split
    | refine foldl_keeps' _ _ _ _ (fun _ _ => ?_) ?_
  all_goals simp

@[simp] theorem noteJobs_keeps (asn : Nat) (s : State) : Keeps (noteJobs asn s) s := by
  unfold noteJobs
  dsimp only
  repeat' first
    | split
    | refine foldl_keeps' _ _ _ _ (fun _ _ => ?_) ?_
  all_goals simp

@[simp] theorem pump_keeps (asn : Nat) (s : State) : Keeps (pump asn s) s := by
  unfold pump
  split <;> simp

@[simp] theorem placeResult_keeps (asn node rep : Nat) (s : State) : Keeps (placeResult asn node rep s) s := by
  unfold placeResult
  dsimp only
  repeat' first
    | split
    | refine foldl_keeps' _ _ _ _ (fun _ _ => ?_) ?_
  all_goals simp

@[simp] theorem endReplica_keeps (asn node rep : Nat) (s : State) : Keeps (endReplica asn node rep s) s := by
  unfold endReplica
  dsimp only
  repeat' first
    | split
    | refine foldl_keeps' _ _ _ _ (fun _ _ => ?_) ?_
  all_goals simp

/-! ### RunCtl -/

@[simp] theorem startSources_keeps (asn : Nat) (s : State) : Keeps (startSources asn s) s := by
  unfold startSources
  dsimp only
  repeat' first
    | split
    | refine foldl_keeps' _ _ _ _ (fun _ _ => ?_) ?_
  all_goals simp

@[simp] theorem noteDepth_keeps (pos tenant : Nat) (s : State) : Keeps (noteDepth pos tenant s) s := by
  unfold noteDepth
  simp

@[simp] theorem enqueue_keeps (pos asn node rep : Nat) (s : State) : Keeps (enqueue pos asn node rep s) s := by
  unfold enqueue
  simp

@[simp] theorem releaseRun_keeps (r : GRun) (asg : List (Nat × Nat × Nat)) (bufs : List (Nat × Nat × Nat))
    (s : State) : Keeps (releaseRun r asg bufs s) s := by
  unfold releaseRun
  dsimp only
  repeat' first
    | split
    | refine foldl_keeps' _ _ _ _ (fun _ _ => ?_) ?_
  all_goals simp

@[simp] theorem tryRelease_keeps (asn : Nat) (s : State) : Keeps (tryRelease asn s) s := by
  unfold tryRelease
  (repeat' split) <;> simp

@[simp] theorem releaseAll_keeps (s : State) : Keeps (releaseAll s) s := by
  unfold releaseAll
  simp

@[simp] theorem fence_keeps (p : Party) (s : State) : Keeps (fence p s) s := by
  unfold fence
  (repeat' split) <;> simp

@[simp] theorem rehome_keeps (pos : Nat) (s : State) : Keeps (rehome pos s) s := by
  unfold rehome
  dsimp only
  repeat' first
    | split
    | refine foldl_keeps' _ _ _ _ (fun _ _ => ?_) ?_
  all_goals simp

@[simp] theorem engineFault_keeps (p cause : Nat) (s : State) : Keeps (engineFault p cause s) s := by
  unfold engineFault
  split
  · simp
  · rename_i e he
    split
    · simp
    · dsimp only
      cases e.job <;> cases e.pos <;> cases (spareOf s e.cluster) <;> by_cases h : e.status = 0 <;> simp [h]

@[simp] theorem noteWait_keeps (pos tenant : Nat) (s : State) : Keeps (noteWait pos tenant s) s := by
  unfold noteWait
  simp

@[simp] theorem sinkTake_keeps (asn edge node : Nat) (c : Chunk) (s : State) :
    Keeps (sinkTake asn edge node c s) s := by
  unfold sinkTake
  dsimp only
  repeat' first
    | split
    | refine foldl_keeps' _ _ _ _ (fun _ _ => ?_) ?_
  all_goals simp

@[simp] theorem engineTrap_keeps (asn node rep cause pc addr : Nat) (s : State) :
    Keeps (engineTrap asn node rep cause pc addr s) s := by
  unfold engineTrap
  (repeat' split) <;> simp

/-! ### Compute -/

@[simp] theorem memCommand_keeps (p : Body → Bool) (t : Tick) (ix : Nat) (s : State) :
    Keeps (memCommand p t ix s) s := by
  unfold memCommand
  dsimp only
  repeat' first
    | split
    | refine foldl_keeps' _ _ _ _ (fun _ _ => ?_) ?_
  all_goals first
    | (simp; done)
    | (simp
       repeat' first
         | split
         | refine foldl_keeps' _ _ _ _ (fun _ _ => ?_) ?_
       all_goals simp)

/-! ### Colmus -/

@[simp] theorem trapEngine_keeps (e : Engine) (cause addr : Nat) (s : State) : Keeps (trapEngine e cause addr s) s := by
  unfold trapEngine
  (repeat' split) <;> simp

@[simp] theorem bankError_keeps (e : Engine) (addr : Nat) (s : State) : Keeps (bankError e addr s) s := by
  unfold bankError
  dsimp only
  repeat' first
    | split
    | refine foldl_keeps' _ _ _ _ (fun _ _ => ?_) ?_
  all_goals first
    | (simp; done)
    | (simp
       repeat' first
         | split
         | refine foldl_keeps' _ _ _ _ (fun _ _ => ?_) ?_
       all_goals simp)

theorem issue_keeps (p : Nat) (w : Word) (ctl rsv : Bool) (regs : List Reg) (accum : Option Nat) (barrier : Bool)
    (body : Engine → State → Act) (s : State)
    (hb : ∀ e e' fx s', body e s = .done e' fx s' → Keeps s' s) :
    Keeps (issue p w ctl rsv regs accum barrier body s) s := by
  unfold issue
  split
  · simp
  · split
    · simp
    · split
      · simp
      · split
        · simp
        · dsimp only
          split
          · split <;> simp
          · simp
          · rename_i e' fx s' h
            have k := hb _ _ _ _ h
            split
            · exact k
            · split
              · simpa using k
              · exact k

theorem plain_keeps (w : Engine → List Wr) (s : State) (e e' : Engine) (fx : Fx) (s' : State)
    (h : plain w e s = .done e' fx s') :
    Keeps s' s := by
  simp only [plain, Act.done.injEq] at h
  simp [← h.2.2]

@[simp] theorem rDDD_keeps (p major func lat : Nat) (f : RFmt) (op : Word → Word → Word) (s : State) :
    Keeps (rDDD p major func lat f op s) s :=
  issue_keeps _ _ _ _ _ _ _ _ _ (plain_keeps _ _)

@[simp] theorem rDD_keeps (p major func lat : Nat) (f : RFmt) (op : Word → Word) (s : State) :
    Keeps (rDD p major func lat f op s) s :=
  issue_keeps _ _ _ _ _ _ _ _ _ (plain_keeps _ _)

@[simp] theorem iDD_keeps (p major : Nat) (f : IFmt) (rsv : Bool) (op : Word → Word) (s : State) :
    Keeps (iDD p major f rsv op s) s :=
  issue_keeps _ _ _ _ _ _ _ _ _ (plain_keeps _ _)

/-! ### ColmusMem -/

@[simp] theorem putSram_keeps (tenant cluster : Nat) (m : List Host.Cell) (s : State) :
    Keeps (putSram tenant cluster m s) s := by
  unfold putSram
  simp

@[simp] theorem popN_pumpMerges_keeps (asn edge : Nat) (s : State) : Keeps (popN.pumpMerges asn edge s) s := by
  unfold popN.pumpMerges
  exact foldl_keeps' _ _ _ _ (fun s x => by simp) (by simp)

@[simp] theorem popN_keeps (asn edge rep fuel n : Nat) (s : State) : Keeps (popN asn edge rep fuel n s) s := by
  induction fuel generalizing n s with
  | zero => simp [popN]
  | succ k ih =>
    unfold popN
    split
    · simp
    · split
      · simp
      · split
        · simp
        · dsimp only
          split <;> simp [ih]

@[simp] theorem flushOut_keeps (asn edge rep : Nat) (s : State) : Keeps (flushOut asn edge rep s) s := by
  unfold flushOut
  dsimp only
  repeat' first
    | split
    | refine foldl_keeps' _ _ _ _ (fun _ _ => ?_) ?_
  all_goals simp

@[simp] theorem pumpFor_keeps (e : Engine) (s : State) : Keeps (pumpFor e s) s := by
  unfold pumpFor
  (repeat' split) <;> simp

theorem portLoad_keeps (s s' : State) (e e' : Engine) (fx : Fx) (off n addr : Nat) (bs : List Byte)
    (h : portLoad s e off n addr = (.done e' fx s', bs)) : Keeps s' s := by
  unfold portLoad at h
  split at h
  · simp at h
  · dsimp only at h
    repeat' split at h
    all_goals first
      | (simp at h; done)
      | (simp only [Prod.mk.injEq, Act.done.injEq] at h
         simp [← h.1.2.2])

theorem loadBody_keeps (f : MFmt) (dst : Reg) (ok : Nat → Bool) (s : State) (e e' : Engine) (fx : Fx) (s' : State)
    (h : loadBody f dst ok e s = .done e' fx s') : Keeps s' s := by
  unfold loadBody at h
  dsimp only at h
  split at h
  · simp at h
  · split at h
    · simp at h
    · split at h
      · simp at h
      · split at h
        · simp at h
        · simp only [Act.done.injEq] at h
          simp [← h.2.2]
      · split at h
        · simp at h
        · split at h
          · simp at h
          · split at h
            · simp at h
            · simp only [Act.done.injEq] at h
              simp [← h.2.2]
      · split at h
        · rename_i e1 fx1 s1 bs hp
          have k := portLoad_keeps _ _ _ _ _ _ _ _ _ hp
          simp only [Act.done.injEq] at h
          simpa [← h.2.2] using k
        · rename_i a bs hn hp
          subst h
          exact (hn _ _ _ rfl).elim

@[simp] theorem doLoad_keeps (p major : Nat) (areg : Bool) (f : MFmt) (ok : Nat → Bool) (s : State) :
    Keeps (doLoad p major areg f ok s) s :=
  issue_keeps _ _ _ _ _ _ _ _ _ (loadBody_keeps _ _ _ _)

theorem portStore_keeps (s s' : State) (e e' : Engine) (fx : Fx) (off addr : Nat) (bs : List Byte)
    (h : portStore s e off addr bs = .done e' fx s') : Keeps s' s := by
  unfold portStore at h
  split at h
  · simp at h
  · dsimp only at h
    repeat' split at h
    all_goals first
      | (simp at h; done)
      | (simp only [Act.done.injEq] at h
         simp [← h.2.2])

theorem storeBody_keeps (f : MFmt) (src : Engine → Word) (ok : Nat → Bool) (s : State) (e e' : Engine) (fx : Fx)
    (s' : State)
    (h : storeBody f src ok e s = .done e' fx s') : Keeps s' s := by
  unfold storeBody at h
  dsimp only at h
  split at h
  · simp at h
  · split at h
    · simp at h
    · split at h
      · simp at h
      · simp only [Act.done.injEq] at h
        simp [← h.2.2]
      · split at h
        · simp at h
        · split at h
          · simp at h
          · simp only [Act.done.injEq] at h
            simp [← h.2.2]
      · split at h
        · rename_i e1 fx1 s1 hp
          have k := portStore_keeps _ _ _ _ _ _ _ _ hp
          simp only [Act.done.injEq] at h
          simpa [← h.2.2] using k
        · rename_i a hn
          exact (hn _ _ _ h).elim

@[simp] theorem doStore_keeps (p major : Nat) (areg : Bool) (f : MFmt) (ok : Nat → Bool) (s : State) :
    Keeps (doStore p major areg f ok s) s :=
  issue_keeps _ _ _ _ _ _ _ _ _ (storeBody_keeps _ _ _ _)

@[simp] theorem portLoadOf_keeps (reg p : Nat) (f : MFmt) (s : State) : Keeps (portLoadOf reg p f s) s := by
  unfold portLoadOf
  (repeat' split) <;> simp

@[simp] theorem portStoreOf_keeps (out : Bool) (reg p : Nat) (f : MFmt) (value : Option Nat) (s : State) :
    Keeps (portStoreOf out reg p f value s) s := by
  unfold portStoreOf
  (repeat' split) <;> simp

/-! ### ColmusMul -/

@[simp] theorem doMul_keeps (p func : Nat) (signed : Bool) (f : RFmt) (s : State) : Keeps (doMul p func signed f s) s :=
  issue_keeps _ _ _ _ _ _ _ _ _ (plain_keeps _ _)

@[simp] theorem doMac_keeps (p func : Nat) (signed sub : Bool) (f : RFmt) (s : State) :
    Keeps (doMac p func signed sub f s) s :=
  issue_keeps _ _ _ _ _ _ _ _ _ (plain_keeps _ _)

@[simp] theorem doAcc_keeps (p func : Nat) (f : RFmt) (rsv : Bool) (srcs : List Reg) (v : Engine → BitVec 72)
    (s : State) : Keeps (doAcc p func f rsv srcs v s) s :=
  issue_keeps _ _ _ _ _ _ _ _ _ (plain_keeps _ _)

/-! ### ColmusFp -/

@[simp] theorem doFma_keeps (p func : Nat) (op : Word → Word → Word → Word) (f : RFmt) (s : State) :
    Keeps (doFma p func op f s) s :=
  issue_keeps _ _ _ _ _ _ _ _ _ (plain_keeps _ _)

/-! ### ColmusCtl -/

@[simp] theorem frameWrite_keeps (a : Nat) (w : Word) (x : Engine × State) : Keeps (frameWrite a w x).2 x.2 := by
  unfold frameWrite
  repeat' split
  all_goals simp

@[simp] theorem discardInput_keeps (asn edge rep fuel : Nat) (s : State) :
    Keeps (discardInput asn edge rep fuel s) s := by
  induction fuel generalizing s with
  | zero => simp [discardInput]
  | succ k ih =>
    unfold discardInput
    repeat' split
    all_goals simp [ih]

/-! ### Units -/

@[simp] theorem passTurn_keeps (cls tenant : Nat) (s : State) : Keeps (passTurn cls tenant s) s := by
  unfold passTurn
  simp

@[simp] theorem noteUnit_keeps (cls tenant bytes : Nat) (s : State) : Keeps (noteUnit cls tenant bytes s) s := by
  unfold noteUnit
  simp

@[simp] theorem classEmptied_keeps (typ : Nat) (s : State) : Keeps (classEmptied typ s) s := by
  unfold classEmptied
  split
  · simp
  · refine foldl_keeps' _ _ _ _ (fun _ _ => ?_) (by simp)
    split
    · simp
    · split <;> simp

@[simp] theorem feltFailed_keeps (inst kind : Nat) (s : State) : Keeps (feltFailed inst kind s) s := by
  unfold feltFailed
  dsimp only
  repeat' first
    | split
    | refine foldl_keeps' _ _ _ _ (fun _ _ => ?_) ?_
  all_goals simp

theorem feltBind_keeps (inst asn node rep : Nat) (s t : State) (h : feltBind inst asn node rep s = some t) :
    Keeps t s := by
  unfold feltBind at h
  repeat' first
    | split at h
    | (dsimp only at h; split at h)
  all_goals try dsimp only at h
  all_goals first
    | exact (Option.some_ne_none _ h.symm).elim
    | (have h := Option.some.inj h; subst h; simp; done)
    | (have h := Option.some.inj h; subst h; repeat' split
       all_goals simp)

@[simp] theorem feltUnbind_keeps (asn node rep : Nat) (s : State) : Keeps (feltUnbind asn node rep s) s := by
  unfold feltUnbind
  simp

@[simp] theorem endOutputs_keeps (asn node rep : Nat) (fail : Option (Nat × Nat)) (s : State) :
    Keeps (endOutputs asn node rep fail s) s := by
  unfold endOutputs
  dsimp only
  repeat' first
    | split
    | refine foldl_keeps' _ _ _ _ (fun _ _ => ?_) ?_
  all_goals simp

@[simp] theorem packStream_keeps (inst asn node rep edge : Nat) (c : Option Chunk) (verified : Bool)
    (s : State) : Keeps (packStream inst asn node rep edge c verified s) s := by
  unfold packStream
  dsimp only
  repeat' first
    | split
    | refine foldl_keeps' _ _ _ _ (fun _ _ => ?_) ?_
  all_goals simp

@[simp] theorem packChunk_keeps (inst asn node rep edge : Nat) (c : Chunk) (verified : Bool) (s : State) :
    Keeps (packChunk inst asn node rep edge c verified s) s := by
  unfold packChunk
  (repeat' split) <;> simp

@[simp] theorem unpackStream_keeps (asn node rep edge : Nat) (c : Option Chunk) (s : State) :
    Keeps (unpackStream asn node rep edge c s) s := by
  unfold unpackStream
  dsimp only
  repeat' first
    | split
    | refine foldl_keeps' _ _ _ _ (fun _ _ => ?_) ?_
  all_goals simp

@[simp] theorem unpackChunk_keeps (asn node rep edge : Nat) (c : Chunk) (s : State) :
    Keeps (unpackChunk asn node rep edge c s) s := by
  unfold unpackChunk
  dsimp only
  repeat' first
    | split
    | refine foldl_keeps' _ _ _ _ (fun _ _ => ?_) ?_
  all_goals simp

@[simp] theorem updUnit_keeps (u : Nat) (g : Unit8 → Unit8) (s : State) : Keeps (updUnit u g s) s := by
  unfold updUnit
  simp

@[simp] theorem updSlot_keeps (k : Nat) (g : KeySlot → KeySlot) (s : State) : Keeps (updSlot k g s) s := by
  unfold updSlot
  simp

@[simp] theorem dropJob_keeps (asn node rep : Nat) (s : State) : Keeps (dropJob asn node rep s) s := by
  unfold dropJob
  simp

@[simp] theorem failJob_keeps (asn node rep detail : Nat) (s : State) : Keeps (failJob asn node rep detail s) s := by
  unfold failJob
  simp

@[simp] theorem endKeyJobs_keeps (slot : Nat) (s : State) : Keeps (endKeyJobs slot s) s := by
  unfold endKeyJobs
  simp

@[simp] theorem saveJob_keeps (u : Nat) (s : State) : Keeps (saveJob u s) s := by
  unfold saveJob
  (repeat' split) <;> simp

@[simp] theorem startJob_keeps (u asn node rep : Nat) (s : State) : Keeps (startJob u asn node rep s) s := by
  unfold startJob
  dsimp only
  repeat' first
    | split
    | refine foldl_keeps' _ _ _ _ (fun _ _ => ?_) ?_
  all_goals simp

@[simp] theorem jobConsume_keeps (asn edge rep n : Nat) (s : State) : Keeps (jobConsume asn edge rep n s) s := by
  unfold jobConsume
  dsimp only
  repeat' first
    | split
    | refine foldl_keeps' _ _ _ _ (fun _ _ => ?_) ?_
  all_goals simp

@[simp] theorem cipherEnd_keeps (u : Nat) (j : Job) (size aad edge : Nat) (s : State) :
    Keeps (cipherEnd u j size aad edge s) s := by
  unfold cipherEnd
  (repeat' split) <;> simp

theorem jobStep_keeps (u n : Nat) (finish_ : Job → Nat → State → State)
    (output : Job → GRun → Nat → Bool → List Byte) (s : State)
    (hf : ∀ j e s, Keeps (finish_ j e s) s) :
    Keeps (jobStep u n finish_ output s) s := by
  unfold jobStep
  split
  · simp
  · split
    · simp
    · split
      · simp
      · split
        · simp
        · dsimp only
          split
          · simp
          · split
            · simp
            · simp only [Keeps, settle_keeps]
              repeat' split
              all_goals simp [hf]

@[simp] theorem digestEnd_keeps (u : Nat) (j : Job) (edge : Nat) (s : State) : Keeps (digestEnd u j edge s) s := by
  unfold digestEnd
  dsimp only
  repeat' first
    | split
    | refine foldl_keeps' _ _ _ _ (fun _ _ => ?_) ?_
  all_goals simp

/-! ### Twill -/

@[simp] theorem updTw_keeps (tenant : Nat) (g : TwPart → TwPart) (s : State) : Keeps (updTw tenant g s) s := by
  unfold updTw
  simp

@[simp] theorem twLose_keeps (tenant slot : Nat) (s : State) : Keeps (twLose tenant slot s) s := by
  unfold twLose
  simp

@[simp] theorem twCycles_keeps (n : Nat) (s : State) : Keeps (twCycles n s) s := by
  unfold twCycles
  simp

@[simp] theorem twFind_keeps (q : TwReq) (tenant : Nat) (find : List TwEntry → Option TwEntry) (s : State) :
    Keeps (twFind q tenant find s).2 s := by
  unfold twFind
  repeat' split
  all_goals simp

@[simp] theorem twScan_keeps (q : TwReq) (tenant : Nat) (s : State) : Keeps (twScan q tenant s).2 s := by
  unfold twScan
  dsimp only
  repeat' split
  all_goals simp

@[simp] theorem twAdd_keeps (tenant key : Nat) (value : BitVec 64) (s : State) :
    Keeps (twAdd tenant key value s) s := by
  unfold twAdd
  simp

@[simp] theorem twSet_keeps (tenant key : Nat) (value : BitVec 64) (s : State) :
    Keeps (twSet tenant key value s) s := by
  unfold twSet
  simp

@[simp] theorem twUpdateRun_keeps (q : TwReq) (tenant : Nat) (s : State) : Keeps (twUpdateRun q tenant s).2 s := by
  unfold twUpdateRun
  dsimp only
  repeat' split
  all_goals simp

theorem twServe_keeps (op asn node : Nat) (run : TwReq → Nat → State → List Byte × State) (s : State)
    (hr : ∀ q t s, Keeps (run q t s).2 s) : Keeps (twServe op asn node run s) s := by
  unfold twServe
  split
  · simp
  · dsimp only
    split
    · simp
    · split
      · simp
      · split
        · simp
        · split
          · simp
          · split
            · simp
            · split
              · simp only [Keeps, settle_keeps, pump_keeps]
                split <;> simp
              · simp only [Keeps, settle_keeps, pump_keeps]
                split <;> simp [hr]

/-! ### Media -/

@[simp] theorem lightLed_keeps (s : State) : Keeps (lightLed s) s := by
  unfold lightLed
  simp

@[simp] theorem placeWaiting_keeps (s : State) : Keeps (placeWaiting s) s := by
  unfold placeWaiting
  dsimp only
  repeat' first
    | split
    | refine foldl_keeps' _ _ _ _ (fun _ _ => ?_) ?_
  all_goals simp

@[simp] theorem grainRead_keeps (f : Fetch) (s : State) : Keeps (grainRead f s) s := by
  unfold grainRead
  dsimp only
  repeat' first
    | split
    | refine foldl_keeps' _ _ _ _ (fun _ _ => ?_) ?_
  all_goals first
    | (simp; done)
    | (simp
       repeat' first
         | split
         | refine foldl_keeps' _ _ _ _ (fun _ _ => ?_) ?_
       all_goals simp)

@[simp] theorem grainLost_keeps (f : Fetch) (s : State) : Keeps (grainLost f s) s := by
  unfold grainLost
  dsimp only
  repeat' first
    | split
    | refine foldl_keeps' _ _ _ _ (fun _ _ => ?_) ?_
  all_goals simp

@[simp] theorem fetchReady_keeps (f : Fetch) (s : State) : Keeps (fetchReady f s) s := by
  unfold fetchReady
  dsimp only
  repeat' first
    | split
    | refine foldl_keeps' _ _ _ _ (fun _ _ => ?_) ?_
  all_goals simp

@[simp] theorem sampleDone_keeps (d : DieId) (num : Nat) (pass bad : Bool) (s : State) :
    Keeps (sampleDone d num pass bad s) s := by
  unfold sampleDone
  dsimp only
  repeat' first
    | split
    | refine foldl_keeps' _ _ _ _ (fun _ _ => ?_) ?_
  all_goals simp

@[simp] theorem pageRead_keeps (u : ReadUse) (serial row ch step : Nat) (weak : Bool) (s : State) :
    Keeps (pageRead u serial row ch step weak s) s := by
  unfold pageRead
  dsimp only
  repeat' first
    | split
    | refine foldl_keeps' _ _ _ _ (fun _ _ => ?_) ?_
  all_goals simp

@[simp] theorem pageLost_keeps (u : ReadUse) (serial ch : Nat) (s : State) : Keeps (pageLost u serial ch s) s := by
  unfold pageLost
  (repeat' split) <;> simp

@[simp] theorem pageGood_keeps (u : ReadUse) (serial row ch step : Nat) (weak : Bool) (s : State) :
    Keeps (pageGood u serial row ch step weak s) s := by
  unfold pageGood
  dsimp only
  repeat' first
    | split
    | refine foldl_keeps' _ _ _ _ (fun _ _ => ?_) ?_
  all_goals simp

@[simp] theorem pageFails_keeps (u : ReadUse) (serial ch : Nat) (s : State) : Keeps (pageFails u serial ch s) s := by
  unfold pageFails
  (repeat' split) <;> simp

@[simp] theorem rebuildPage_keeps (u : ReadUse) (serial row ch : Nat) (s : State) :
    Keeps (rebuildPage u serial row ch s) s := by
  unfold rebuildPage
  dsimp only
  split
  all_goals
    rename_i h
    have k := congrArg Prod.fst h
    dsimp only at k
    subst k
    simp only [Keeps, pageRead_keeps, pageLost_keeps, startRebuild_keeps]
    split
    · exact ite_keeps _ ⟨rfl, rfl, rfl⟩ (queueRefresh_keeps ..)
    · simp

@[simp] theorem countHour_keeps (d : DieId) (k : Nat) (s : State) : Keeps (countHour d k s) s := by
  unfold countHour
  simp

@[simp] theorem moveRun_keeps (s : State) (r : Run) : Keeps (moveRun s r) s := by
  unfold moveRun
  split
  · simp
  · rename_i n _
    dsimp only
    split
    · simp
    · have k := askFetch_keeps (.move n.nsid r.grain) r (entryOf n r.grain) s
      generalize askFetch (.move n.nsid r.grain) r (entryOf n r.grain) s = x at k
      split <;> simp_all

@[simp] theorem moveRuns_keeps (room : Nat) (rs : List Run) (s : State) : Keeps (moveRuns room rs s).1 s := by
  induction rs generalizing room s with
  | nil => simp [moveRuns]
  | cons r rs ih =>
    have h : ∀ (xs : List Run) (t : State), Keeps (xs.foldl moveRun t) t := fun xs t =>
      foldl_keeps' _ _ _ _ (fun _ _ => by simp) ⟨rfl, rfl, rfl⟩
    unfold moveRuns
    split
    · exact ih ..
    · dsimp only
      split
      all_goals
        split
        · simp
        · exact (ih ..).trans (h _ _)

@[simp] theorem earlyCopy_keeps (d : DieId) (num : Nat) (s : State) : Keeps (earlyCopy d num s) s := by
  unfold earlyCopy
  dsimp only
  repeat' first
    | split
    | refine foldl_keeps' _ _ _ _ (fun _ _ => ?_) ?_
  all_goals simp

@[simp] theorem pageEnds_keeps (d : DieId) (u : ReadUse) (serial row ch step : Nat) (decoded weak : Bool)
    (s : State) : Keeps (pageEnds d u serial row ch step decoded weak s) s := by
  unfold pageEnds
  (repeat' split) <;> simp

@[simp] theorem readEnds_keeps (d : DieId) (o : DieOp) (decoded weak : Bool) (s : State) :
    Keeps (readEnds d o decoded weak s) s := by
  unfold readEnds
  (repeat' split) <;> simp

@[simp] theorem drainOne_keeps (p : Staged) (n : Ns) (grain inst : Nat) (verified : Bool) (s : State) :
    Keeps (drainOne p n grain inst verified s) s := by
  unfold drainOne
  split
  · dsimp only
    have k := fetchEntry_keeps (.merge p.asn p.lba n.nsid grain inst verified) n grain s
    generalize fetchEntry (.merge p.asn p.lba n.nsid grain inst verified) n grain s = x at k
    split <;> simp_all
  · simp

@[simp] theorem drainGroup_keeps (n : Ns) (grain inst : Nat) (verified : Bool) (s : State) :
    Keeps (drainGroup n grain inst verified s) s := by
  unfold drainGroup
  dsimp only
  repeat' first
    | split
    | refine foldl_keeps' _ _ _ _ (fun _ _ => ?_) ?_
  all_goals first
    | (simp; done)
    | (simp
       repeat' first
         | split
         | refine foldl_keeps' _ _ _ _ (fun _ _ => ?_) ?_
       all_goals simp)

@[simp] theorem retireBlock_keeps (d : DieId) (num : Nat) (s : State) : Keeps (retireBlock d num s) s := by
  unfold retireBlock
  simp

@[simp] theorem retireFailed_keeps (s : State) : Keeps (retireFailed s) s := by
  unfold retireFailed
  refine foldl_keeps' _ _ _ _ (fun _ _ => ?_) (by simp)
  split
  · simp
  · split <;> simp

@[simp] theorem eraseDead_keeps (s : State) : Keeps (eraseDead s) s := by
  unfold eraseDead
  dsimp only
  repeat' first
    | split
    | refine foldl_keeps' _ _ _ _ (fun _ _ => ?_) ?_
  all_goals simp

@[simp] theorem afterMove_keeps (s : State) : Keeps (afterMove s) s := by
  unfold afterMove
  simp

@[simp] theorem eraseEnds_keeps (d : DieId) (num : Nat) (ok : Bool) (s : State) : Keeps (eraseEnds d num ok s) s := by
  unfold eraseEnds
  (repeat' split) <;> simp

@[simp] theorem unplace_keeps (hit : Placed → Bool) (failed : Bool) (s : State) : Keeps (unplace hit failed s) s := by
  unfold unplace
  simp

@[simp] theorem dropPrograms_keeps (hit : Nat → Nat → Nat → Bool) (s : State) : Keeps (dropPrograms hit s) s := by
  unfold dropPrograms
  simp

@[simp] theorem closeBand_keeps (serial : Nat) (s : State) : Keeps (closeBand serial s) s := by
  unfold closeBand
  simp

@[simp] theorem dropColumn_keeps (serial row ch : Nat) (s : State) : Keeps (dropColumn serial row ch s) s := by
  unfold dropColumn
  dsimp only
  repeat' first
    | split
    | refine foldl_keeps' _ _ _ _ (fun _ _ => ?_) ?_
  all_goals simp

@[simp] theorem mediaFault_keeps (p : Placed) (s : State) : Keeps (mediaFault p s) s := by
  unfold mediaFault
  dsimp only
  repeat' first
    | split
    | refine foldl_keeps' _ _ _ _ (fun _ _ => ?_) ?_
  all_goals simp

@[simp] theorem programFails_keeps (d : DieId) (serial row ch : Nat) (s : State) :
    Keeps (programFails d serial row ch s) s := by
  unfold programFails
  (repeat' split) <;> simp

theorem quantumBand_keeps (kind : BandKind) (dom : Nat) (s : State) (x : State × Band)
    (h : quantumBand kind dom s = some x) : Keeps x.1 s := by
  unfold quantumBand at h
  split at h
  · exact (Option.some_ne_none _ h.symm).elim
  · rename_i t b hb
    have k1 : Keeps t s := bandFor_keeps _ _ _ _ _ hb
    split at h
    · have h := Option.some.inj h
      subst h
      exact k1
    · have k2 := bandFor_keeps _ _ _ _ _ h
      simpa [k1.1, k1.2.1, k1.2.2] using k2

@[simp] theorem releaseQuantum_keeps (dom : Nat) (s : State) : Keeps (releaseQuantum dom s) s := by
  unfold releaseQuantum
  dsimp only
  split
  · simp
  · split
    · simp
    · split
      · simp
      · rename_i t b hb
        have k : Keeps t s := quantumBand_keeps _ _ _ _ hb
        simp [k.1, k.2.1, k.2.2]

@[simp] theorem releaseQuanta_keeps (s : State) : Keeps (releaseQuanta s) s := by
  simp only [Keeps, releaseQuanta, afterMove_keeps]
  exact foldl_keeps' _ _ _ _ (fun _ _ => by simp) (by simp)

@[simp] theorem moveOp_keeps (o : DieOp) (s : State) : Keeps (moveOp o s) s := by
  unfold moveOp
  (repeat' split) <;> simp

@[simp] theorem isolateDie_keeps (d : DieId) (cause : Nat) (s : State) : Keeps (isolateDie d cause s) s := by
  unfold isolateDie
  split
  · simp
  · simp only [Keeps, blocksLost_keeps, placeWaiting_keeps]
    refine foldl_keeps' _ _ _ _ (fun _ _ => by simp) ?_
    exact foldl_keeps' _ _ _ _ (fun _ _ => by simp) (by simp)

@[simp] theorem isolateBy_keeps (ch : Nat) (silent driven : List Nat) (s : State) :
    Keeps (isolateBy ch silent driven s) s := by
  unfold isolateBy
  dsimp only
  repeat' first
    | split
    | refine foldl_keeps' _ _ _ _ (fun _ _ => ?_) ?_
  all_goals simp

@[simp] theorem resetDie_keeps (d : DieId) (s : State) : Keeps (resetDie d s) s := by
  unfold resetDie
  simp

@[simp] theorem checkpoint_keeps (s : State) : Keeps (checkpoint s) s := by
  unfold checkpoint
  simp

@[simp] theorem forcedPageWrites_keeps (s : State) : Keeps (forcedPageWrites s) s := by
  unfold forcedPageWrites
  (repeat' split) <;> simp

@[simp] theorem startSamples_keeps (s : State) : Keeps (startSamples s) s := by
  unfold startSamples
  dsimp only
  repeat' first
    | split
    | refine foldl_keeps' _ _ _ _ (fun _ _ => ?_) ?_
  all_goals simp

@[simp] theorem shelfStop_keeps (state : Nat) (s : State) : Keeps (shelfStop state s) s := by
  unfold shelfStop
  simp

@[simp] theorem shelfEnds_keeps (s : State) : Keeps (shelfEnds s) s := by
  unfold shelfEnds
  (repeat' split) <;> simp

@[simp] theorem shelfTagFail_keeps (nsid page : Nat) (s : State) : Keeps (shelfTagFail nsid page s) s := by
  unfold shelfTagFail
  dsimp only
  repeat' first
    | split
    | refine foldl_keeps' _ _ _ _ (fun _ _ => ?_) ?_
  all_goals simp

@[simp] theorem shelve_keeps (nsid page : Nat) (s : State) : Keeps (shelve nsid page s) s := by
  unfold shelve
  dsimp only
  repeat' first
    | split
    | refine foldl_keeps' _ _ _ _ (fun _ _ => ?_) ?_
  all_goals simp

@[simp] theorem evict_keeps (s : State) : Keeps (evict s) s := by
  unfold evict
  dsimp only
  repeat' first
    | split
    | refine foldl_keeps' _ _ _ _ (fun _ _ => ?_) ?_
  all_goals simp

@[simp] theorem pageArrived_keeps (nsid page : Nat) (s : State) : Keeps (pageArrived nsid page s) s := by
  unfold pageArrived
  dsimp only
  repeat' first
    | split
    | refine foldl_keeps' _ _ _ _ (fun _ _ => ?_) ?_
  all_goals simp

/-! ### PowerFail -/

@[simp] theorem reproof_keeps (s : State) : Keeps (reproof s) s := by
  unfold reproof
  dsimp only
  repeat' first
    | split
    | refine foldl_keeps' _ _ _ _ (fun _ _ => ?_) ?_
  all_goals simp

@[simp] theorem taskDue_keeps (k u : Nat) (s : State) : Keeps (taskDue k u s) s := by
  unfold taskDue
  (repeat' split) <;> simp

@[simp] theorem taskServed_keeps (k u : Nat) (s : State) : Keeps (taskServed k u s) s := by
  unfold taskServed
  simp

@[simp] theorem holdupDue_keeps (s : State) : Keeps (holdupDue s) s := by
  unfold holdupDue
  (repeat' split) <;> simp

@[simp] theorem holdupJudge_keeps (s : State) : Keeps (holdupJudge s) s := by
  unfold holdupJudge
  dsimp only
  repeat' first
    | split
    | refine foldl_keeps' _ _ _ _ (fun _ _ => ?_) ?_
  all_goals simp

@[simp] theorem holdupTransfer_keeps (k : Nat) (s : State) : Keeps (holdupTransfer k s) s := by
  unfold holdupTransfer
  (repeat' split) <;> simp

@[simp] theorem holdupTestStart_keeps (s : State) : Keeps (holdupTestStart s) s := by
  unfold holdupTestStart
  dsimp only
  repeat' first
    | split
    | refine foldl_keeps' _ _ _ _ (fun _ _ => ?_) ?_
  all_goals simp

@[simp] theorem resetPrograms_keeps (s : State) : Keeps (resetPrograms s) s := by
  unfold resetPrograms
  dsimp only
  repeat' first
    | split
    | refine foldl_keeps' _ _ _ _ (fun _ _ => ?_) ?_
  all_goals simp

@[simp] theorem parkMedia_keeps (s : State) : Keeps (parkMedia s) s := by
  unfold parkMedia
  simp

@[simp] theorem endStart_keeps (s : State) : Keeps (endStart s) s := by
  unfold endStart
  simp

theorem keeps_moraine {t s : State} (m : Moraine) (h : Keeps t s) : Keeps { t with moraine := m } s := h

@[simp] theorem writeDump_keeps (cause : Nat) (cut : Bool) (s : State) : Keeps (writeDump cause cut s) s := by
  unfold writeDump
  exact keeps_moraine _ (reservePages_keeps 4 _ _ s)

@[simp] theorem pfailMove_keeps (s : State) : Keeps (pfailMove s) s := by
  unfold pfailMove
  dsimp only
  repeat' first
    | split
    | refine foldl_keeps' _ _ _ _ (fun _ _ => ?_) ?_
  all_goals simp

@[simp] theorem pfailRun_keeps (n : Nat) (s : State) : Keeps (pfailRun n s) s := by
  induction n generalizing s with
  | zero => simp [pfailRun]
  | succ n ih =>
    unfold pfailRun
    dsimp only
    split <;> simp [ih]

@[simp] theorem pfailNext_keeps (s : State) : Keeps (pfailNext s) s := by
  unfold pfailNext
  simp

@[simp] theorem pfailDone_keeps (s : State) : Keeps (pfailDone s) s := by
  unfold pfailDone
  simp

@[simp] theorem pfailBegin_keeps (s : State) : Keeps (pfailBegin s) s := by
  unfold pfailBegin
  simp

@[simp] theorem handoverFail_keeps (s : State) : Keeps (handoverFail s) s := by
  unfold handoverFail
  (repeat' split) <;> simp

@[simp] theorem stopService_keeps (s : State) : Keeps (stopService s) s := by
  unfold stopService
  dsimp only
  repeat' first
    | split
    | refine foldl_keeps' _ _ _ _ (fun _ _ => ?_) ?_
  all_goals simp

@[simp] theorem stopAndRun_keeps (s : State) : Keeps (stopAndRun s) s := by
  unfold stopAndRun
  (repeat' split) <;> simp

@[simp] theorem postDeferred_keeps (s : State) : Keeps (postDeferred s) s := by
  unfold postDeferred
  exact foldl_keeps' _ _ _ _ (fun _ _ => by split <;> simp) (by simp)

@[simp] theorem resumeService_keeps (s : State) : Keeps (resumeService s) s := by
  unfold resumeService
  simp

@[simp] theorem declareFatal_keeps (cause : Nat) (s : State) : Keeps (declareFatal cause s) s := by
  unfold declareFatal
  dsimp only
  repeat' first
    | split
    | refine foldl_keeps' _ _ _ _ (fun _ _ => ?_) ?_
  all_goals simp

theorem keeps_boot {t s : State} (b : Boot) (h : Keeps t s) : Keeps { t with boot := b } s := h

@[simp] theorem sequenceRecord_keeps (s : State) : Keeps (sequenceRecord s) s := by
  unfold sequenceRecord
  dsimp only
  split
  · simp
  · split
    · exact (pfailDone_keeps _).trans (keeps_boot _ (writeDump_keeps _ _ _))
    · simp

theorem keeps_staged {t s : State} (xs : List Staged) (h : Keeps t s) : Keeps { t with staged := xs } s := h

@[simp] theorem pfailProgram_keeps (ok : Bool) (s : State) : Keeps (pfailProgram ok s) s := by
  unfold pfailProgram
  split
  · simp
  · split
    · split
      · simp
      · exact (pfailNext_keeps _).trans (keeps_staged _ (flushPiece_keeps _ _ s))
    · exact (pfailNext_keeps _).trans (journalFlush_keeps s)
    · exact sequenceRecord_keeps s
    · simp

@[simp] theorem programEnds_keeps (d : DieId) (o : DieOp) (ok : Bool) (s : State) : Keeps (programEnds d o ok s) s := by
  unfold programEnds
  dsimp only
  simp only [Keeps, dieKick_keeps, landAll_keeps, grantRoom_keeps, afterMove_keeps]
  split
  · split <;> simp
  · simp

/-! ### Mbx -/

@[simp] theorem endSession_keeps (e : Endpoint) (s : State) : Keeps (endSession e s) s := by
  unfold endSession
  (repeat' split) <;> simp

@[simp] theorem endSessions_keeps (p : Ep → Bool) (s : State) : Keeps (endSessions p s) s := by
  unfold endSessions
  simp

@[simp] theorem deliver_keeps (q : Rq) (opcode status : Nat) (body : List Byte) (s : State) :
    Keeps (deliver q opcode status body s) s := by
  unfold deliver
  dsimp only
  repeat' first
    | split
    | refine foldl_keeps' _ _ _ _ (fun _ _ => ?_) ?_
  all_goals simp

@[simp] theorem respond_keeps (q : Rq) (opcode status : Nat) (body : List Byte) (s : State) :
    Keeps (respond q opcode status body s) s := by
  unfold respond
  dsimp only
  repeat' first
    | split
    | refine foldl_keeps' _ _ _ _ (fun _ _ => ?_) ?_
  all_goals simp

@[simp] theorem keepExecuting_keeps (q : Rq) (opcode limit : Nat) (s : State) :
    Keeps (keepExecuting q opcode limit s) s := by
  unfold keepExecuting
  simp

@[simp] theorem refuse_keeps (q : Rq) (opcode status : Nat) (s : State) : Keeps (refuse q opcode status s) s := by
  unfold refuse
  simp

@[simp] theorem park_keeps (q : Rq) (code limit : Nat) (s : State) : Keeps (park q code limit s) s := by
  unfold park
  simp

@[simp] theorem unpark_keeps (q : Rq) (s : State) : Keeps (unpark q s) s := by
  unfold unpark
  simp

theorem request_elim (P : State → Prop) (fm : Form) (q : Rq) (run : Role → State → State) (s : State)
    (hk : ∀ t, Keeps t s → P t) (hr : ∀ r s1, Keeps s1 s → P (touchIdle (run r s1))) : P (request fm q run s) := by
  unfold request
  by_cases a : isParked s q fm.code = true
  · rw [if_pos a]
    split
    · exact hk _ ⟨rfl, rfl, rfl⟩
    · exact hr _ _ (by simp)
  · rw [if_neg a]
    dsimp only
    repeat' split
    all_goals first
      | exact hr _ _ (by simp)
      | exact hk _ (by simp)

theorem request_keeps (fm : Form) (q : Rq) (run : Role → State → State) (s : State)
    (hr : ∀ r s, Keeps (run r s) s) : Keeps (request fm q run s) s :=
  request_elim (Keeps · s) fm q run s (fun _ h => h) (fun r s1 h => by
    have k := hr r s1
    simp_all)

theorem answer_keeps (fm : Form) (q : Rq) (run : Role → State → Nat × List Byte × State) (s : State)
    (hr : ∀ r s, Keeps (run r s).2.2 s) : Keeps (answer fm q run s) s := by
  unfold answer
  exact request_keeps _ _ _ _ (fun r s => by simp [hr])

@[simp] theorem dropBulk_keeps (q : Rq) (s : State) : Keeps (dropBulk q s) s := by
  unfold dropBulk
  simp

theorem bulkRequest_keeps (fm : Form) (q : Rq) (len : Nat) (run : Role → List Byte → State → State) (s : State)
    (hr : ∀ r bs s, Keeps (run r bs s) s) : Keeps (bulkRequest fm q len run s) s := by
  have k := request_keeps fm q (fun r s' => run r (bulkOf s q len) s') s (fun r s' => hr _ _ _)
  unfold bulkRequest
  dsimp only
  split <;> split
  all_goals first
    | exact k
    | exact ⟨by simpa using k.1, by simpa using k.2.1, by simpa using k.2.2⟩

/-! ### Queues -/

@[simp] theorem cutSlot_keeps (sl : Slot) (s : State) : Keeps (cutSlot sl s).1 s := by
  unfold cutSlot
  split
  · simp
  · dsimp only
    split <;> simp

@[simp] theorem endSlot_keeps (ix : Nat) (st : Status) (s : State) : Keeps (endSlot ix st s) s := by
  unfold endSlot
  dsimp only
  repeat' first
    | split
    | refine foldl_keeps' _ _ _ _ (fun _ _ => ?_) ?_
  all_goals simp

@[simp] theorem dropAer_keeps (ix : Nat) (f : Fn) (s : State) : Keeps (dropAer ix f s) s := by
  unfold dropAer
  simp

@[simp] theorem resetController_keeps (f : Fn) (s : State) : Keeps (resetController f s) s := by
  unfold resetController
  simp

@[simp] theorem resetFunction_keeps (f : Fn) (s : State) : Keeps (resetFunction f s) s := by
  unfold resetFunction
  simp

@[simp] theorem resetPort_keeps (p : Port) (s : State) : Keeps (resetPort p s) s := by
  unfold resetPort
  simp

@[simp] theorem anaChange_keeps (p : Ctrl → Bool) (s : State) : Keeps (anaChange p s) s := by
  unfold anaChange
  simp

@[simp] theorem dropLink_keeps (p : Port) (s : State) : Keeps (dropLink p s) s := by
  unfold dropLink
  dsimp only
  have k : ∀ g, Keeps ((losePtm p s).setLink p g) s := fun g => by simp
  refine ite_keeps _ ((anaChange_keeps _ _).trans ?_) ?_
  all_goals exact (resetPort_keeps p _).trans (ite_keeps _ ((shelfEnds_keeps _).trans (k _)) (k _))

theorem arbitrate_keeps (s t : State) (f : Fn) (q : Nat) (h : arbitrate s = some (f, q, t)) : Keeps t s := by
  unfold arbitrate at h
  repeat' first
    | split at h
    | (dsimp only at h; split at h)
  all_goals try dsimp only at h
  all_goals first
    | exact (Option.some_ne_none _ h.symm).elim
    | (simp only [Option.some.injEq, Prod.mk.injEq] at h
       obtain ⟨-, -, rfl⟩ := h
       simp)

@[simp] theorem popSq_keeps (f : Fn) (qid : Nat) (s : State) : Keeps (popSq f qid s).1 s := by
  simp [popSq]

theorem adminRun_keeps (ix : Nat) (p : Body → Bool) (run : Slot → State → State) (s : State)
    (hr : ∀ sl s, Keeps (run sl s) s) : Keeps (adminRun ix p run s) s := by
  unfold adminRun
  repeat' split
  all_goals simp [hr]

/-! ### Change -/

@[simp] theorem setFwSlot_keeps (i : Nat) (im : Option FwImage) (s : State) : Keeps (setFwSlot i im s) s := by
  unfold setFwSlot
  (repeat' split) <;> simp

@[simp] theorem setPair_keeps (i : Nat) (p : PairState) (s : State) : Keeps (setPair i p s) s := by
  unfold setPair
  (repeat' split) <;> simp

@[simp] theorem pairServes_keeps (i : Nat) (s : State) : Keeps (pairServes i s) s := by
  unfold pairServes
  simp

@[simp] theorem workDone_keeps (kind unit : Nat) (s : State) : Keeps (workDone kind unit s) s := by
  unfold workDone
  simp

@[simp] theorem pairLeaves_keeps (i : Nat) (s : State) : Keeps (pairLeaves i s) s := by
  unfold pairLeaves
  (repeat' split) <;> simp

@[simp] theorem pairFault_keeps (i cause : Nat) (s : State) : Keeps (pairFault i cause s) s := by
  unfold pairFault
  (repeat' split) <;> simp

@[simp] theorem handoverStart_keeps (q : Option Rq) (slot : Option Nat) (s : State) :
    Keeps (handoverStart q slot s) s := by
  unfold handoverStart
  simp

@[simp] theorem handoverTake_keeps (s : State) : Keeps (handoverTake s) s := by
  unfold handoverTake
  (repeat' split) <;> simp

@[simp] theorem stageChunk_keeps (q : Rq) (code : Nat) (recovery : Bool) (offset total : Nat) (data : List Byte)
    (s : State) : Keeps (stageChunk q code recovery offset total data s) s := by
  unfold stageChunk
  (repeat' split) <;> simp

@[simp] theorem stageWritten_keeps (q : Rq) (recovery : Bool) (offset total : Nat) (data : List Byte)
    (s : State) : Keeps (stageWritten q recovery offset total data s) s := by
  unfold stageWritten
  dsimp only
  repeat' first
    | split
    | refine foldl_keeps' _ _ _ _ (fun _ _ => ?_) ?_
  all_goals simp

theorem and_or_keeps (a b : Nat) : a &&& (a ||| b) = a := by
  apply Nat.eq_of_testBit_eq
  intro i
  cases h : a.testBit i <;> simp [h]

@[simp] theorem raiseSvn_pending (s : State) : (raiseSvn s).pending = s.pending := by
  unfold raiseSvn
  split
  · rfl
  · dsimp only
    split <;> simp

theorem raiseSvn_raises (s : State) :
    s.fw.minSvn ≤ (raiseSvn s).fw.minSvn ∧ s.fw.revoked &&& (raiseSvn s).fw.revoked = s.fw.revoked := by
  unfold raiseSvn
  split
  · simp
  · dsimp only
    split <;> simp [and_or_keeps]

theorem repairRequest_keeps (kind unit : Nat) (unitOk : Bool) (q : Rq) (run : State → Option Nat × State) (s : State)
    (hr : ∀ s, Keeps (run s).2 s) : Keeps (repairRequest kind unit unitOk q run s) s := by
  refine request_keeps _ _ _ _ (fun r s => ?_)
  split
  · simp
  · have k := hr s
    split <;> rename_i heq <;> rw [heq] at k <;> simpa using k

@[simp] theorem workAdd_keeps (kind unit : Nat) (s : State) : Keeps (workAdd kind unit s) s := by
  unfold workAdd
  simp

@[simp] theorem startRecals_keeps (s : State) : Keeps (startRecals s) s := by
  unfold startRecals
  dsimp only
  repeat' first
    | split
    | refine foldl_keeps' _ _ _ _ (fun _ _ => ?_) ?_
  all_goals simp

@[simp] theorem settleRecals_keeps (s : State) : Keeps (settleRecals s) s := by
  unfold settleRecals
  simp

@[simp] theorem reeqDue_keeps (p : Port) (s : State) : Keeps (reeqDue p s) s := by
  unfold reeqDue
  simp

/-! ### Keys -/

@[simp] theorem clearSlot_keeps (k : Nat) (s : State) : Keeps (clearSlot k s) s := by
  unfold clearSlot
  simp

@[simp] theorem placeKey_keeps (k owner : Nat) (p : KeyPolicy) (origin : Nat) (key : List Byte) (s : State) :
    Keeps (placeKey k owner p origin key s) s := by
  unfold placeKey
  simp

theorem keyRequest_keeps (code slot gen more : Nat) (byOwner bad : Bool) (q : Rq)
    (run : State → Nat × List Byte × State)
    (s : State) (hr : ∀ s, Keeps (run s).2.2 s) : Keeps (keyRequest code slot gen more byOwner bad q run s) s := by
  refine answer_keeps _ _ _ _ (fun r s => ?_)
  split <;> simp [hr]

theorem fillSlot_keeps (slot tenant : Nat) (run : State → Nat × List Byte × State) (s : State)
    (hr : ∀ s, Keeps (run s).2.2 s) : Keeps (fillSlot slot tenant run s).2.2 s := by
  unfold fillSlot
  dsimp only
  split
  · simp
  · split
    · simp
    · split <;> simp [hr]

/-! ### Settings -/

@[simp] theorem retune_keeps (old new : TenRec) (s : State) : Keeps (retune old new s) s := by
  unfold retune
  dsimp only
  repeat' first
    | split
    | refine foldl_keeps' _ _ _ _ (fun _ _ => ?_) ?_
  all_goals simp

@[simp] theorem putInForce_keeps (b : SetBody) (s : State) : Keeps (putInForce b s) s := by
  unfold putInForce
  dsimp only
  repeat' first
    | split
    | refine foldl_keeps' _ _ _ _ (fun _ _ => ?_) ?_
  all_goals first
    | (simp; done)
    | (simp
       repeat' first
         | split
         | refine foldl_keeps' _ _ _ _ (fun _ _ => ?_) ?_
       all_goals simp)

@[simp] theorem applyLive_keeps (s : State) : Keeps (applyLive s) s := by
  unfold applyLive
  dsimp only
  repeat' first
    | split
    | refine foldl_keeps' _ _ _ _ (fun _ _ => ?_) ?_
  all_goals simp

@[simp] theorem setBank_keeps (i : Nat) (b : Option Bank) (s : State) : Keeps (setBank i b s) s := by
  unfold setBank
  simp

@[simp] theorem commitBegin_keeps (c : Commit) (b : SetBody) (s : State) : Keeps (commitBegin c b s) s := by
  unfold commitBegin
  simp

@[simp] theorem commitStart_keeps (c : Commit) (s : State) : Keeps (commitStart c s) s := by
  unfold commitStart
  dsimp only
  repeat' first
    | split
    | refine foldl_keeps' _ _ _ _ (fun _ _ => ?_) ?_
  all_goals simp

@[simp] theorem commitNext_keeps (n : Nat) (s : State) : Keeps (commitNext n s) s := by
  induction n generalizing s with
  | zero => simp [commitNext]
  | succ n ih =>
    unfold commitNext
    split <;> simp [ih]

@[simp] theorem commitAsk_keeps (c : Commit) (s : State) : Keeps (commitAsk c s) s := by
  unfold commitAsk
  simp

@[simp] theorem commitStep_keeps (s : State) : Keeps (commitStep s) s := by
  unfold commitStep
  (repeat' split) <;> simp

@[simp] theorem newView_keeps (tn : Nat) (s : State) : Keeps (newView tn s) s := by
  unfold newView
  simp

@[simp] theorem commitAnswer_keeps (c : Commit) (b : SetBody) (s : State) : Keeps (commitAnswer c b s) s := by
  unfold commitAnswer
  (repeat' split) <;> simp

@[simp] theorem commitTake_keeps (s : State) : Keeps (commitTake s) s := by
  unfold commitTake
  (repeat' split) <;> simp

@[simp] theorem liveAccept_keeps (l : Live) (s : State) : Keeps (liveAccept l s) s := by
  unfold liveAccept
  simp

@[simp] theorem mapMode_keeps (s : State) : Keeps (mapMode s) s := by
  unfold mapMode
  simp

@[simp] theorem addNs_keeps (n : Ns) (s : State) : Keeps (addNs n s) s := by
  unfold addNs
  dsimp only
  repeat' first
    | split
    | refine foldl_keeps' _ _ _ _ (fun _ _ => ?_) ?_
  all_goals simp

@[simp] theorem nsChanged_keeps (tenant : Nat) (s : State) : Keeps (nsChanged tenant s) s := by
  unfold nsChanged
  simp

/-! ### Tenants -/

@[simp] theorem proofFails_keeps (e : Endpoint) (s : State) : Keeps (proofFails e s) s := by
  unfold proofFails
  dsimp only
  repeat' first
    | split
    | refine foldl_keeps' _ _ _ _ (fun _ _ => ?_) ?_
  all_goals simp

@[simp] theorem drainEnd_keeps (tenant : Nat) (s : State) : Keeps (drainEnd tenant s) s := by
  unfold drainEnd
  (repeat' split) <;> simp

@[simp] theorem credRequest_keeps (code : Nat) (prog : Bool) (roles : Role → Bool) (q : Rq) (bulkLen : Nat)
    (s : State) :
    Keeps (credRequest code prog roles q bulkLen s) s := by
  unfold credRequest
  exact bulkRequest_keeps _ _ _ _ _ (fun _ _ _ => by simp)

theorem foldl_keeps_of {α} (f : State → α → State) (h : ∀ s x, Keeps (f s x) s) (xs : List α) (s : State) :
    Keeps (xs.foldl f s) s := foldl_keeps' f xs s s h ⟨rfl, rfl, rfl⟩

@[simp] theorem eraseTenant_keeps (tn : Nat) (s : State) : Keeps (eraseTenant tn s) s := by
  have h1 := foldl_keeps_of (fun s (r : GRun) => completeRun r.asn stGraphAborted none true s) (by simp)
  have h2 := foldl_keeps_of (fun s n => cryptoErase n s) (by simp)
  have h3 := foldl_keeps_of (fun s k => clearSlot k s) (by simp)
  unfold eraseTenant
  dsimp only
  split <;> simp [h1, h2, h3]

@[simp] theorem reseed_keeps (seed : List Byte) (s : State) : Keeps (reseed seed s) s := by
  unfold reseed
  simp

@[simp] theorem destroyBegin_keeps (tn : Nat) (s : State) : Keeps (destroyBegin tn s).1 s := by
  simp only [Keeps, destroyBegin, endSessions_keeps]
  refine foldl_keeps' _ _ _ _ (fun s x => ?_) (by simp)
  simp

@[simp] theorem destroyEnd_keeps (x : Nat × List Nat) (s : State) : Keeps (destroyEnd x s) s := by
  unfold destroyEnd
  simp

@[simp] theorem erasureStart_keeps (s : State) : Keeps (erasureStart s) s := by
  unfold erasureStart
  (repeat' split) <;> simp

@[simp] theorem erasureAsk_keeps (q : Rq) (kind : EraseKind) (limit : Nat) (destroys erases : List Nat) (s : State) :
    Keeps (erasureAsk q kind limit destroys erases s) s := by
  have h (xs : List Nat) (a : State × List (Nat × List Nat)) :
      Keeps (xs.foldl (fun a tn => ((destroyBegin tn a.1).1, a.2 ++ [(destroyBegin tn a.1).2])) a).1 a.1 := by
    induction xs generalizing a with
    | nil => simp
    | cons x xs ih =>
      have k := ih ((destroyBegin x a.1).1, a.2 ++ [(destroyBegin x a.1).2])
      simpa using k
  have k := h destroys (keepExecuting q (EraseKind.code kind) limit s, [])
  simp only [erasureAsk, Keeps, settle_keeps, erasureStart_keeps]
  simpa using k

@[simp] theorem rebirth_keeps (s : State) : Keeps (rebirth s) s := by
  unfold rebirth
  simp

@[simp] theorem ownerBecomes_keeps (cred seed : List Byte) (why : Nat) (s : State) :
    Keeps (ownerBecomes cred seed why s) s := by
  unfold ownerBecomes
  simp

@[simp] theorem ownerLeaves_keeps (s : State) : Keeps (ownerLeaves s) s := by
  unfold ownerLeaves
  simp

@[simp] theorem erasureEnd_keeps (e : Erasure) (s : State) : Keeps (erasureEnd e s) s := by
  unfold erasureEnd
  (repeat' split) <;> simp

@[simp] theorem erasureStep_keeps (s : State) : Keeps (erasureStep s) s := by
  have h := foldl_keeps_of (fun s tn => eraseTenant tn s) (by simp)
  unfold erasureStep
  split
  · simp
  · dsimp only
    split
    · split <;> simp [h]
    · split <;> simp
    · simp
    · simp

theorem whenStopped_keeps (q : Rq) (code : Nat) (run : State → State) (s : State)
    (hr : ∀ s, Keeps (run s) s) : Keeps (whenStopped q code run s) s := by
  unfold whenStopped
  split <;> simp [hr]

/-! ### Memories -/

@[simp] theorem updChan_keeps (ch : Nat) (g : DramCh → DramCh) (s : State) : Keeps (updChan ch g s) s := by
  unfold updChan
  simp

@[simp] theorem retrainDue_keeps (ch cause : Nat) (s : State) : Keeps (retrainDue ch cause s) s := by
  unfold retrainDue
  simp

@[simp] theorem retrainAges_keeps (s : State) : Keeps (retrainAges s) s := by
  refine foldl_keeps' _ _ _ _ (fun s c => ?_) (by simp)
  split
  · simp
  · (repeat' split) <;> simp

@[simp] theorem retrainStart_keeps (want : Option Nat) (s : State) : Keeps (retrainStart want s) s := by
  unfold retrainStart
  (repeat' split) <;> simp

@[simp] theorem repairStart_keeps (s : State) : Keeps (repairStart s) s := by
  unfold repairStart
  (repeat' split) <;> simp

@[simp] theorem rowFails_keeps (ch row : Nat) (s : State) : Keeps (rowFails ch row s) s := by
  unfold rowFails
  simp

@[simp] theorem losePage_keeps (nsid page : Nat) (s : State) : Keeps (losePage nsid page s) s := by
  unfold losePage
  simp

@[simp] theorem calvingTake_keeps (s : State) : Keeps (calvingTake s) s := by
  unfold calvingTake
  dsimp only
  repeat' first
    | split
    | refine foldl_keeps' _ _ _ _ (fun _ _ => ?_) ?_
  all_goals simp

@[simp] theorem startTests_keeps (s : State) : Keeps (startTests s) s := by
  unfold startTests
  simp

@[simp] theorem overrideTest_keeps (c : Nat) (s : State) : Keeps (overrideTest c s) s := by
  unfold overrideTest
  (repeat' split) <;> simp

@[simp] theorem startOverrideTests_keeps (s : State) : Keeps (startOverrideTests s) s := by
  unfold startOverrideTests
  (repeat' split) <;> simp

@[simp] theorem setRemap_keeps (cls mcr n : Nat) (s : State) : Keeps (setRemap cls mcr n s) s := by
  unfold setRemap
  simp

@[simp] theorem poisonBuffer_keeps (asn edge lane off : Nat) (s : State) :
    Keeps (poisonBuffer asn edge lane off s) s := by
  unfold poisonBuffer
  simp

@[simp] theorem macroFull_keeps (cls mcr offset : Nat) (s : State) : Keeps (macroFull cls mcr offset s) s := by
  unfold macroFull
  dsimp only
  split
  · simp
  · simp
  · split <;> simp
  · simp
  · split <;> simp
  · simp
  · simp

@[simp] theorem remapOne_keeps (cls mcr offset : Nat) (s : State) : Keeps (remapOne cls mcr offset s) s := by
  unfold remapOne
  dsimp only
  repeat' first
    | split
    | refine foldl_keeps' _ _ _ _ (fun _ _ => ?_) ?_
  all_goals simp

@[simp] theorem runTests_keeps (s : State) : Keeps (runTests s) s := by
  unfold runTests
  dsimp only
  repeat' first
    | split
    | refine foldl_keeps' _ _ _ _ (fun _ _ => ?_) ?_
  all_goals simp

@[simp] theorem stagingLost_keeps (addr : Nat) (s : State) : Keeps (stagingLost addr s) s := by
  unfold stagingLost
  dsimp only
  repeat' first
    | split
    | refine foldl_keeps' _ _ _ _ (fun _ _ => ?_) ?_
  all_goals simp

@[simp] theorem contextLost_keeps (u offset : Nat) (s : State) : Keeps (contextLost u offset s) s := by
  unfold contextLost
  (repeat' split) <;> simp

@[simp] theorem keyLost_keeps (addr : Nat) (s : State) : Keeps (keyLost addr s) s := by
  unfold keyLost
  dsimp only
  repeat' first
    | split
    | refine foldl_keeps' _ _ _ _ (fun _ _ => ?_) ?_
  all_goals simp

@[simp] theorem ringLost_keeps (offset : Nat) (s : State) : Keeps (ringLost offset s) s := by
  unfold ringLost
  (repeat' split) <;> simp

@[simp] theorem locationLost_keeps (cls mcr offset : Nat) (s : State) : Keeps (locationLost cls mcr offset s) s := by
  unfold locationLost
  dsimp only
  repeat' first
    | split
    | refine foldl_keeps' _ _ _ _ (fun _ _ => ?_) ?_
  all_goals first
    | (simp; done)
    | (simp
       repeat' first
         | split
         | refine foldl_keeps' _ _ _ _ (fun _ _ => ?_) ?_
       all_goals simp)

@[simp] theorem dramCorrected_keeps (ch row : Nat) (s : State) : Keeps (dramCorrected ch row s) s := by
  unfold dramCorrected
  dsimp only
  repeat' first
    | split
    | refine foldl_keeps' _ _ _ _ (fun _ _ => ?_) ?_
  all_goals simp

@[simp] theorem pagePolicyTake_keeps (s : State) : Keeps (pagePolicyTake s) s := by
  unfold pagePolicyTake
  simp

@[simp] theorem endRunOf_keeps (x : Nat × Nat) (s : State) : Keeps (endRunOf x s) s := by
  unfold endRunOf
  simp

@[simp] theorem unitLeaves_keeps (u : Nat) (s : State) : Keeps (unitLeaves u s) s := by
  unfold unitLeaves
  (repeat' split) <;> simp

@[simp] theorem partyLeaves_keeps (p : Party) (s : State) : Keeps (partyLeaves p s) s := by
  unfold partyLeaves
  (repeat' split) <;> simp

/-! ### Views -/

@[simp] theorem alertSeen_keeps (v : View) (recs : List (Nat × RimeRec)) (s : State) :
    Keeps (alertSeen v recs s) s := by
  unfold alertSeen
  (repeat' split) <;> simp

@[simp] theorem takeSnapshot_keeps (s : State) : Keeps (takeSnapshot s) s := by
  unfold takeSnapshot
  simp

/-! ### Admin -/

@[simp] theorem deleteNs_keeps (nsid : Nat) (s : State) : Keeps (deleteNs nsid s) s := by
  unfold deleteNs
  simp

@[simp] theorem waitForIo_keeps (ix asn : Nat) (san : Bool) (ns : List Nat) (s : State) :
    Keeps (waitForIo ix asn san ns s) s := by
  unfold waitForIo
  simp

@[simp] theorem completeFree_keeps (ix : Nat) (s : State) : Keeps (completeFree ix s) s := by
  unfold completeFree
  simp

/-! ### Start -/

@[simp] theorem countLoss_keeps (forced : Bool) (kind : Nat) (s : State) : Keeps (countLoss forced kind s) s := by
  unfold countLoss
  (repeat' split) <;> simp

@[simp] theorem undoMap_keeps (s : State) : Keeps (undoMap s) s := by
  unfold undoMap
  simp

@[simp] theorem loseMedia_keeps (s : State) : Keeps (loseMedia s) s := by
  unfold loseMedia
  simp

@[simp] theorem undestroy_keeps (s : State) : Keeps (undestroy s) s := by
  unfold undestroy
  simp

@[simp] theorem commitStands_keeps (s : State) : Keeps (commitStands s) s := by
  unfold commitStands
  (repeat' split) <;> simp

@[simp] theorem loseTenants_keeps (s : State) : Keeps (loseTenants s) s := by
  unfold loseTenants
  simp

@[simp] theorem loseUnits_keeps (s : State) : Keeps (loseUnits s) s := by
  unfold loseUnits
  simp

@[simp] theorem loseRepair_keeps (s : State) : Keeps (loseRepair s) s := by
  unfold loseRepair
  simp

@[simp] theorem loseRime_keeps (kind : Nat) (s : State) : Keeps (loseRime kind s) s := by
  unfold loseRime
  simp

@[simp] theorem loseNor_keeps (s : State) : Keeps (loseNor s) s := by
  unfold loseNor
  (repeat' split) <;> simp

@[simp] theorem losePower_keeps (kind : Nat) (s : State) : Keeps (losePower kind s) s := by
  unfold losePower
  simp

@[simp] theorem enterReset_keeps (forced : Bool) (life : Life) (s : State) : Keeps (enterReset forced life s) s := by
  unfold enterReset
  simp

@[simp] theorem trainLinks_keeps (s : State) : Keeps (trainLinks s) s := by
  unfold trainLinks
  simp

@[simp] theorem bootBegin_keeps (s : State) : Keeps (bootBegin s) s := by
  unfold bootBegin
  simp

@[simp] theorem takeNextActive_keeps (s : State) : Keeps (takeNextActive s) s := by
  unfold takeNextActive
  (repeat' split) <;> simp

@[simp] theorem bootHolds_keeps (s : State) : Keeps (bootHolds s) s := by
  unfold bootHolds
  simp

@[simp] theorem startRecord_keeps (code sev : Nat) (param : List Byte) (s : State) :
    Keeps (startRecord code sev param s) s := by
  unfold startRecord
  simp

@[simp] theorem stageDone_keeps (s : State) : Keeps (stageDone s) s := by
  unfold stageDone
  simp

@[simp] theorem romVerified_keeps (active other : Bool) (reason : Nat) (s : State) :
    Keeps (romVerified active other reason s) s := by
  unfold romVerified
  dsimp only
  repeat' first
    | split
    | refine foldl_keeps' _ _ _ _ (fun _ _ => ?_) ?_
  all_goals simp

@[simp] theorem restoreBlank_keeps (s : State) : Keeps (restoreBlank s) s := by
  unfold restoreBlank
  simp

@[simp] theorem settingsChosen_keeps (s : State) : Keeps (settingsChosen s) s := by
  unfold settingsChosen
  dsimp only
  repeat' first
    | split
    | refine foldl_keeps' _ _ _ _ (fun _ _ => ?_) ?_
  all_goals simp

@[simp] theorem dramTrained_keeps (known : Bool) (trained : List Bool) (s : State) :
    Keeps (dramTrained known trained s) s := by
  unfold dramTrained
  (repeat' split) <;> simp

@[simp] theorem keysBack_keeps (s : State) : Keeps (keysBack s) s := by
  unfold keysBack
  simp

@[simp] theorem journalBack_keeps (s : State) : Keeps (journalBack s) s := by
  unfold journalBack
  simp

@[simp] theorem startRecords_keeps (s : State) : Keeps (startRecords s) s := by
  unfold startRecords
  simp

@[simp] theorem startNote_keeps (s : State) : Keeps (startNote s) s := by
  unfold startNote
  simp

@[simp] theorem askStillPages_keeps (s : State) : Keeps (askStillPages s) s := by
  unfold askStillPages
  simp

@[simp] theorem endDestroyed_keeps (s : State) : Keeps (endDestroyed s) s := by
  unfold endDestroyed
  exact foldl_keeps' _ _ _ _ (fun _ _ => by simp) (by simp)

@[simp] theorem becomeReady_keeps (s : State) : Keeps (becomeReady s) s := by
  have e (c : Prop) [Decidable c] (t : State) : Keeps (if c then t else holdupDue t) t := by split <;> simp
  have f (c : Prop) [Decidable c] (t : State) :
      Keeps (if c then firnStart (startNote t) else startNote (firnStart t)) t := by split <;> simp
  have g (c : Prop) [Decidable c] (a b : Nat) (h : Bool) (bs : List Byte) (t : State) :
      Keeps (if c then t else raiseSmart (rimeDev a b h bs t)) t := by split <;> simp
  simp [becomeReady, e, f, g]

@[simp] theorem restart_keeps (kind : Nat) (s : State) : Keeps (restart kind s) s := by
  unfold restart
  simp

@[simp] theorem fatalRestart_keeps (cause : Nat) (s : State) : Keeps (fatalRestart cause s) s := by
  unfold fatalRestart
  dsimp only
  by_cases h : cause = 2
  · simp only [h, reduceIte]
    split <;> simp
  · simp only [h, reduceIte]
    split <;> simp

@[simp] theorem fatalEnd_keeps (cause : Nat) (s : State) : Keeps (fatalEnd cause s) s := by
  unfold fatalEnd
  dsimp only
  split <;> simp

@[simp] theorem norDone_keeps (j : NorJob) (s : State) : Keeps (norDone j s) s := by
  unfold norDone
  dsimp only
  repeat' first
    | split
    | refine foldl_keeps' _ _ _ _ (fun _ _ => ?_) ?_
  all_goals simp

@[simp] theorem rimeFlushAll_keeps (n : Nat) (s : State) : Keeps (rimeFlushAll n s) s := by
  induction n generalizing s with
  | zero => simp [rimeFlushAll]
  | succ n ih =>
    unfold rimeFlushAll
    split <;> simp [ih]

/-! ### Beat -/

@[simp] theorem suspendStill_keeps (s : State) : Keeps (suspendStill s) s := by
  unfold suspendStill
  simp

@[simp] theorem resumeStill_keeps (phase : Nat) (s : State) : Keeps (resumeStill phase s) s := by
  unfold resumeStill
  (repeat' split) <;> simp

@[simp] theorem openTail_keeps (since : Tick) (s : State) : Keeps (openTail since s) s := by
  unfold openTail
  (repeat' split) <;> simp

@[simp] theorem rimeFlushPoint_keeps (s : State) : Keeps (rimeFlushPoint s) s := by
  unfold rimeFlushPoint
  dsimp only
  repeat' first
    | split
    | refine foldl_keeps' _ _ _ _ (fun _ _ => ?_) ?_
  all_goals simp

@[simp] theorem overrideWork_keeps (task : Nat) (s : State) : Keeps (overrideWork task s) s := by
  unfold overrideWork
  (repeat' split) <;> simp

@[simp] theorem maintWork_keeps (ns : Nat) (s : State) : Keeps (maintWork ns s) s := by
  unfold maintWork
  dsimp only
  have a : ∀ (c : Prop) [Decidable c] (t : State), Keeps t s → Keeps (repairStart
    (if c then retrainStart none t else t)) s :=
    fun c _ t k => (repairStart_keeps _).trans (ite_keeps _ ((retrainStart_keeps _ _).trans k) k)
  have b : ∀ (c : Prop) [Decidable c] (t : State), Keeps t s → Keeps (if c then startTests t else t) s :=
    fun c _ t k => ite_keeps _ ((startTests_keeps _).trans k) k
  have k := b (50000 ≤ ns) _ (a (3000000 ≤ ns) (retrainAges (settleRecals (startRecals (startSamples
    (checkpoint (rimeFlushPoint s)))))) (by simp))
  exact ite_keeps _ ((holdupTestStart_keeps _).trans k) k

@[simp] theorem workWork_keeps (s : State) : Keeps (workWork s) s := by
  unfold workWork
  dsimp only
  split <;> simp

@[simp] theorem overrideBegin_keeps (s : State) : Keeps (overrideBegin s) s := by
  unfold overrideBegin
  (repeat' split) <;> simp

@[simp] theorem windowBegins_keeps (tail : Bool) (i : Nat) (s : State) : Keeps (windowBegins tail i s) s := by
  have e (f1 f2 f3 f4 : State → State) (h1 : ∀ t, Keeps (f1 t) t) (h2 : ∀ t, Keeps (f2 t) t)
      (h3 : ∀ t, Keeps (f3 t) t) (h4 : ∀ t, Keeps (f4 t) t) (t : State) :
      Keeps (f4 (psTryPending (f3 (f2 (f1 t))))) t := by simp [h1, h2, h3, h4]
  exact e (fun t => if tail then openTail s.firn.windowAt t else t)
    (fun t => if upkeepAwake t then overrideBegin t else t)
    (fun t => match firnPlanned t with
      | some .still => if t.firn.suspended then t else suspendStill t
      | _ => resumeStill (((s.firn.plan.windows[i]?).map (·.start)).getD 0) t)
    (fun t => if !upkeepAwake t then t
      else match firnActs t, firnPlanned t with
      | some .work, _ => workWork t
      | some .maint, some .maint => maintWork (t.firn.plan.windowNs i) t
      | _, _ => t)
    (fun t => by split <;> simp) (fun t => by split <;> simp)
    (fun t => by
      split
      · split <;> simp
      · simp)
    (fun t => by
      split
      · simp
      · split <;> simp)
    { s with
      firn := { s.firn with window := i, windowAt := s.now }
      media := { s.media with quantaReleased := false } }

@[simp] theorem arbTake_keeps (s : State) : Keeps (arbTake s) s := by
  unfold arbTake
  simp

@[simp] theorem boundaryTakes_keeps (s : State) : Keeps (boundaryTakes s) s := by
  unfold boundaryTakes
  (repeat' split) <;> simp

@[simp] theorem beatWraps_keeps (s : State) : Keeps (beatWraps s) s := by
  unfold beatWraps
  simp

@[simp] theorem beatTelemetry_keeps (s : State) : Keeps (beatTelemetry s) s := by
  unfold beatTelemetry
  simp

@[simp] theorem beatPower_keeps (s : State) : Keeps (beatPower s) s := by
  unfold beatPower
  simp

/-! ### Sideband -/

@[simp] theorem writeDoorbell_keeps (f : Fn) (c : Ctrl) (v : Nat) (s : State) : Keeps (writeDoorbell f c v s) s := by
  unfold writeDoorbell
  dsimp only
  repeat' first
    | split
    | refine foldl_keeps' _ _ _ _ (fun _ _ => ?_) ?_
  all_goals simp

@[simp] theorem writeMbxCtrl_keeps (f : Fn) (v : Nat) (s : State) : Keeps (writeMbxCtrl f v s) s := by
  unfold writeMbxCtrl
  dsimp only
  repeat' first
    | split
    | refine foldl_keeps' _ _ _ _ (fun _ _ => ?_) ?_
  all_goals simp

@[simp] theorem writeEpochCount_keeps (f : Fn) (v : Nat) (s : State) : Keeps (writeEpochCount f v s) s := by
  unfold writeEpochCount
  (repeat' split) <;> simp

@[simp] theorem writeDevErr_keeps (f : Fn) (v : Nat) (s : State) : Keeps (writeDevErr f v s) s := by
  unfold writeDevErr
  simp

@[simp] theorem writeWindow_keeps (f : Fn) (c : Ctrl) (off : Nat) (value : Word) (s : State) :
    Keeps (writeWindow f c off value s) s := by
  unfold writeWindow
  dsimp only
  repeat' first
    | split
    | refine foldl_keeps' _ _ _ _ (fun _ _ => ?_) ?_
  all_goals simp

@[simp] theorem writeController_keeps (f : Fn) (c : Ctrl) (off : Nat) (v : Nat) (s : State) :
    Keeps (writeController f c off v s) s := by
  unfold writeController
  dsimp only
  repeat' first
    | split
    | refine foldl_keeps' _ _ _ _ (fun _ _ => ?_) ?_
  all_goals simp

@[simp] theorem sendUnmasked_keeps (f : Fn) (s : State) : Keeps (sendUnmasked f s) s := by
  unfold sendUnmasked
  (repeat' split) <;> simp

@[simp] theorem writeMsix_keeps (f : Fn) (off : Nat) (v : Nat) (s : State) : Keeps (writeMsix f off v s) s := by
  unfold writeMsix
  (repeat' split) <;> simp

@[simp] theorem miServe_keeps (t : Tick) (ep : Endpoint) (data : State → Option (List Byte)) (s : State) :
    Keeps (miServe t ep data s) s := by
  unfold miServe
  repeat' split
  all_goals (dsimp only; repeat' split)
  all_goals simp

theorem spdmServe_keeps (t : Tick) (ep : Endpoint) (code : Nat) (run : State → Option (List Byte) × State) (s : State)
    (hr : ∀ s, Keeps (run s).2 s) : Keeps (spdmServe t ep code run s) s := by
  cases ep
  all_goals
    unfold spdmServe
    dsimp only
    split
    · simp
    · split <;> simp [hr]

end Sys2Proof.Machine
end

