-- ==== Sys2Proof/Laws/Mailbox.lean ====
section
/-! SUPPORT. Mailbox requests that pass their checks: the state in which the opcode's own rules run, and what an answer
leaves. -/

namespace Sys2Proof.Machine

/-! ### Endpoints -/

theorem ep_setEp_of (s : State) (e : Endpoint) (g : Ep → Ep) (hg : ∀ x, (g x).ep = x.ep) (h : Endpoint) :
    (s.setEp e g).ep h = if h = e then g (s.ep e) else s.ep h := by
  unfold State.ep State.setEp
  dsimp only
  have p : ∀ x : Ep, ((fun x => x.ep == h) ∘ fun x => if x.ep = e then g x else x) x = (x.ep == h) := by
    intro x; simp only [Function.comp]; split <;> simp [hg]
  rw [List.find?_map, funext p]
  by_cases a : s.eps.any (·.ep == e) = true
  · rw [if_pos a]
    by_cases b : h = e
    · subst b
      obtain ⟨y, hy, hye⟩ := List.any_eq_true.1 a
      cases f : s.eps.find? (fun x => x.ep == h) with
      | none =>
        rw [List.find?_eq_none] at f
        exact absurd hye (f y hy)
      | some y =>
        have := List.find?_some f
        simp only [beq_iff_eq] at this
        simp [this]
    · rw [if_neg b]
      cases f : s.eps.find? (fun x => x.ep == h) with
      | none => simp
      | some y =>
        have := List.find?_some f
        simp only [beq_iff_eq] at this
        simp [this, b]
  · rw [if_neg a]
    have n : s.eps.find? (fun x => x.ep == e) = none := by
      rw [List.find?_eq_none]; intro x hx hb
      exact a (List.any_eq_true.2 ⟨x, hx, hb⟩)
    rw [List.find?_append]
    by_cases b : h = e
    · subst b; simp [n]
    · rw [if_neg b]
      have : (List.find? (fun x => x.ep == h) [({ ep := e } : Ep)]) = none := by simp [Ne.symm b]
      rw [this]
      cases f : s.eps.find? (fun x => x.ep == h) with
      | none => simp
      | some y =>
        have := List.find?_some f
        simp only [beq_iff_eq] at this
        simp [this, b]

@[simp] theorem ep_arrive (s : State) (t : Tick) (e : Endpoint) : (s.arrive t).ep e = s.ep e := rfl
@[simp] theorem ep_touchIdle (s : State) (e : Endpoint) : (touchIdle s).ep e = s.ep e := rfl
@[simp] theorem ep_deliver (q : Rq) (c st : Nat) (b : List Byte) (s : State) (e : Endpoint) :
    (deliver q c st b s).ep e = s.ep e := by
  unfold State.ep; rw [(deliver_frame q c st b s).2.2.2.2.2.2.2.2.2.1]

/-! ### What an answer leaves -/

theorem complete_outbox (ix : Nat) (st : Status) (d : Nat) (s : State) (o : Output) (h : o ∈ s.outbox) :
    o ∈ (complete ix st d s).outbox := by
  unfold complete
  split
  · exact h
  · split
    · exact h
    · rename_i sl _ _
      have : ∀ (l : List (Nat × Tick)) (s : State), o ∈ s.outbox → o ∈ (l.foldl (fun s a => finish a.1 stOk 1 s) s).outbox := by
        intro l
        induction l with
        | nil => exact fun _ h => h
        | cons a l ih => exact fun s h => ih _ (finish_outbox _ _ _ _ _ h)
      exact this _ _ (finish_outbox _ _ _ _ _ h)

theorem deliver_outbox (q : Rq) (c st : Nat) (b : List Byte) (s : State) :
    Output.mbx q.ep c st q.tag q.seq b ∈ (deliver q c st b s).outbox := by
  have m : Output.mbx q.ep c st q.tag q.seq b ∈ (s.emit (.mbx q.ep c st q.tag q.seq b)).outbox := List.mem_cons_self ..
  unfold deliver
  dsimp only
  (repeat' split) <;> first
    | exact m
    | exact sendMsix_outbox _ _ _ _ m
    | exact complete_outbox _ _ _ _ _ m

/-- A request that executes on no endpoint and is answered: the answer goes out and its endpoint keeps it. -/
theorem respond_responded (q : Rq) (c st : Nat) (b : List Byte) (s : State) (h : (s.ep q.ep).executing = none) :
    Responded q c st b (respond q c st b s) := by
  unfold respond
  simp only [h, Option.map_none, Option.getD_none, Bool.false_eq_true, if_false]
  have e := ep_setEp_of s q.ep (fun x => { x with executing := none, stored := some (q.seq, c, st, b) }) (fun _ => rfl) q.ep
  rw [if_pos rfl] at e
  refine ⟨deliver_outbox _ _ _ _ _, ?_, ?_⟩ <;> rw [ep_deliver, e]

theorem responded_touchIdle {q : Rq} {c st : Nat} {b : List Byte} {u : State} (h : Responded q c st b u) :
    Responded q c st b (touchIdle u) := h

theorem respond_ep_ne (q : Rq) (c st : Nat) (b : List Byte) (s : State) (e : Endpoint) (h : e ≠ q.ep) :
    (respond q c st b s).ep e = s.ep e := by
  unfold respond
  have k := ep_setEp_of s q.ep (fun x => { x with executing := none, stored := some (q.seq, c, st, b) }) (fun _ => rfl) e
  rw [if_neg h] at k
  dsimp only
  split
  · exact k
  · rw [ep_deliver]; exact k

theorem executing_keep (q : Rq) (c l : Nat) (s : State) : Executing q c (keepExecuting q c l s) := by
  unfold Executing keepExecuting
  rw [ep_setEp_of (hg := ?_), if_pos rfl]
  rotate_left
  · exact fun _ => rfl
  dsimp only
  split
  · split
    · rename_i h
      rw [h.1, h.2]
      rfl
    · rfl
  · rfl

/-- A request that nothing has to wait for runs at once (R434). -/
theorem waits_clear {s : State} {q : Rq} {c : Nat} (k : Tick)
    (h : s.eps.all (fun x => x.ep == q.ep || x.executing.all fun e => !conflicts s c q e.2.1 e.1) = true) :
    waitsBehind s q c k = false := by
  unfold waitsBehind
  rw [List.any_eq_false]
  intro x hx
  have := List.all_eq_true.1 h x hx
  cases e : x.executing with
  | none => simp
  | some y =>
    rw [e] at this
    simp only [Bool.or_eq_true, beq_iff_eq, Option.all_some, Bool.not_eq_true'] at this
    rcases this with this | this <;> simp [this]

/-- An endpoint that executes nothing holds no waiting request. -/
theorem parked_none {s : State} {q : Rq} (c : Nat) (h : (s.ep q.ep).executing = none) : isParked s q c = false := by
  unfold isParked
  rw [h]
  simp

/-! ### The state in which an opcode's own rules run -/

/-- The device awake, and the session of the endpoint refreshed (R397). -/
def entered (q : Rq) (s : State) : State :=
  (wake s).setEp q.ep fun x => { x with session := x.session.map fun y => (y.1, y.2.1, (wake s).now) }

theorem entered_frame (q : Rq) (s : State) :
    SameCore (entered q s) s ∧ (entered q s).now = s.now ∧ (entered q s).pins = s.pins ∧ (entered q s).boot = s.boot ∧
    (entered q s).firn = s.firn ∧ (entered q s).linkA = s.linkA ∧ (entered q s).linkB = s.linkB ∧
    (entered q s).ctrls = s.ctrls ∧ (entered q s).slots = s.slots ∧ (entered q s).stillLog = s.stillLog ∧
    (entered q s).staged = s.staged ∧
    (entered q s).nss = s.nss ∧ (entered q s).media = s.media ∧ (entered q s).compute = s.compute ∧
    (entered q s).repair = s.repair ∧ (entered q s).rime = s.rime := by
  have w := wake_frame s
  simp only [SameCore] at w ⊢
  obtain ⟨⟨a1, a2, a3, a4, a5, a6, a7, a8, a9, a10, a11, a12, a13, a14, a15, a16, a17, a18, a19⟩,
    b1, b2, b3, b4, b5, b6, b7, b8, b9, b10, b11, b12, b13, _, b15, b16⟩ := w
  exact ⟨⟨a1, a2, a3, a4, a5, a6, a7, a8, a9, a10, a11, a12, a13, a14, a15, a16, a17, a18, a19⟩,
    b1, b2, b3, b4, b5, b6, b7, b8, b9, b10, b11, b12, b13, b15, b16⟩

/-- Only the power state, the endpoints and the outbox can differ from the state in which the request came. -/
theorem entered_eq (q : Rq) (s : State) :
    entered q s = { s with power := (entered q s).power, eps := (entered q s).eps, outbox := (entered q s).outbox } := by
  have h := entered_frame q s
  simp only [SameCore] at h
  obtain ⟨⟨a1, a2, a3, a4, a5, a6, a7, a8, a9, a10, a11, a12, a13, a14, a15, a16, a17, a18, a19⟩,
    b1, b2, b3, b4, b5, b6, b7, b8, b9, b10, b11, b12, b13, b14, b15⟩ := h
  revert a1 a2 a3 a4 a5 a6 a7 a8 a9 a10 a11 a12 a13 a14 a15 a16 a17 a18 a19 b1 b2 b3 b4 b5 b6 b7 b8 b9 b10 b11 b12 b13 b14 b15
  generalize entered q s = u
  cases u
  intros
  subst_vars
  rfl

theorem ep_wake (s : State) (e : Endpoint) : (wake s).ep e = s.ep e := by
  unfold State.ep; rw [(wake_frame s).2.2.2.2.2.2.2.2.2.2.2.2.2.2.1]

theorem ep_entered (q : Rq) (s : State) (e : Endpoint) :
    (entered q s).ep e = if e = q.ep then
      { s.ep e with session := (s.ep e).session.map fun y => (y.1, y.2.1, s.now) } else s.ep e := by
  have k := ep_setEp_of (wake s) q.ep (fun x => { x with session := x.session.map fun y => (y.1, y.2.1, (wake s).now) })
    (fun _ => rfl) e
  unfold entered
  rw [k, ep_wake, (wake_frame s).2.1]
  by_cases h : e = q.ep
  · subst h; simp
  · simp only [h, if_false, ep_wake]

theorem accepted_arrive {q : Rq} {s : State} {c b : Nat} {d : Bool} (h : Accepted s q c b d) (t : Tick) :
    Accepted (s.arrive t) q c b d := h

theorem wake_carried (s : State) (q : Rq) : carried (wake s) q = carried s q := by
  have h := wake_frame s
  simp only [SameCore] at h
  unfold carried endpointOk tunnelSlot State.hasFn State.ctrl? State.hasFn
  simp only [ep_wake]
  rw [h.2.2.2.1, h.2.2.2.2.2.2.2.1, h.2.2.2.2.2.2.2.2.1]

/-- A request that passes the checks of R430 to R433 and whose role may ask runs its opcode. -/
theorem request_accepted_of {fm : Form} {q : Rq} {s : State} {run : Role → State → State} {d : Bool}
    (h : Accepted s q fm.code fm.body d) (hd : fm.device = d ∨ fm.device = false ∧ fm.either = true) (he : fm.badField = false)
    (hr : fm.roles (roleOf s q.ep) = true) :
    request fm q run s = touchIdle (run (roleOf s q.ep) (entered q s)) := by
  obtain ⟨h1, h2, h3, h4, h5, h6, h7, h8, h9, h10, h11, h12, h13, ht, h14, h15⟩ := h
  have w := wake_frame s
  simp only [SameCore] at w
  have eb : epBusy (wake s) q = false := by
    rw [← h8]; unfold epBusy; rw [ep_wake]; unfold State.ctrl? State.hasFn; rw [w.2.2.2.1, w.2.2.2.2.2.2.2.1]
  have ea : answersNow ((wake s).setEp q.ep fun x => { x with session := x.session.map fun y => (y.1, y.2.1, (wake s).now) })
      fm.code = true := by
    rw [← h10]; unfold answersNow; rw [show (State.setEp (wake s) _ _).boot = (wake s).boot from rfl, w.2.2.2.1]
  have er : roleOf (wake s) q.ep = roleOf s q.ep := by unfold roleOf; rw [ep_wake]
  have hs : q.length % 4 = 0 := by omega
  have len : 16 ≤ q.delivered := by omega
  have en : notForTenant ((wake s).setEp q.ep fun x => { x with session := x.session.map fun y => (y.1, y.2.1, (wake s).now) })
      q fm (roleOf s q.ep) = false := by
    unfold notForTenant
    rw [Bool.or_eq_false_iff]
    constructor
    · cases d
      · cases e : (roleOf s q.ep).tenant with
        | none => simp
        | some t => rw [e] at ht; simp at ht; simp [ht]
      · rw [if_pos rfl] at h13
        rw [h13]; simp
    · cases e : q.ep with
      | mctp => rfl
      | fn f =>
        dsimp only
        by_cases c : fm.code = 0x0101
        · rw [c]; rfl
        · have : exposed s f = true := by rw [e] at h14; simpa [c] using h14
          have x : exposed ((wake s).setEp (Endpoint.fn f) fun x => { x with session := x.session.map fun y => (y.1, y.2.1, (wake s).now) }) f = exposed s f := by
            unfold exposed State.tenant?; rw [show (State.setEp (wake s) _ _).tenants = (wake s).tenants from rfl, w.1.2.2.2.2.2.2.2.2.2.2.2.1]
          rw [x, this]; simp
  unfold request
  rw [parked_none fm.code h7, h1, h2, waits_clear (s.now + 1) h15]
  simp only [Bool.not_true, Bool.or_false, Bool.false_eq_true, if_false]
  have c1 : (decide (q.delivered < 16) || decide (q.delivered ≠ q.length)) = false := by simp; omega
  rw [c1]
  simp only [Bool.false_eq_true, if_false, eb, er]
  rw [if_neg (c := _ = true)]
  rotate_left
  · rw [ep_wake, h7]
    cases e : (s.ep q.ep).stored with
    | none => simp
    | some y =>
      rw [e] at h9
      simp only
      by_cases a : y.1 = q.seq <;> simp_all
  simp only [Bool.false_eq_true, if_false, ea, Bool.not_true]
  have c3 : (decide (q.length ≠ 16 + fm.body) || decide (q.length % 4 ≠ 0) || decide (q.length > 4096)) = false := by
    simp only [Bool.or_eq_false_iff, decide_eq_false_iff_not, ne_eq, not_not, not_lt]; omega
  rw [c3]
  have c4 : (decide (q.flags > 1) || q.bodyReserved || fm.badField || (if fm.device = true then q.tenant != 0xFFFF
      else decide (q.tenant > 255) && !(fm.either && q.tenant == 0xFFFF))) = false := by
    rw [h12, he]
    have : decide (q.flags > 1) = false := by simp; omega
    rw [this]
    simp only [Bool.or_self, Bool.false_or]
    rcases hd with hd | ⟨hd, hd'⟩
    · rw [hd]
      split <;> rename_i d <;> simp only [d, if_true, Bool.false_eq_true, if_false] at h13
      · simp [h13]
      · have : decide (q.tenant > 255) = false := by simp; omega
        rw [this]; rfl
    · rw [hd, hd']
      cases d
      · have : decide (q.tenant > 255) = false := by simp at h13 ⊢; omega
        simp [this]
      · simp only [if_true] at h13
        simp [h13]
  rw [c4]
  simp only [Bool.false_eq_true, if_false, hr, Bool.not_true, Bool.false_or, en]
  rfl

theorem request_accepted {fm : Form} {q : Rq} {s : State} {run : Role → State → State}
    (h : Accepted s q fm.code fm.body fm.device) (he : fm.badField = false)
    (hr : fm.roles (roleOf s q.ep) = true) :
    request fm q run s = touchIdle (run (roleOf s q.ep) (entered q s)) :=
  request_accepted_of h (.inl rfl) he hr

/-- The same for a request that is answered at once. -/
theorem answer_accepted_of {fm : Form} {q : Rq} {s : State} {run : Role → State → Nat × List Byte × State} {d : Bool}
    (h : Accepted s q fm.code fm.body d) (hd : fm.device = d ∨ fm.device = false ∧ fm.either = true) (he : fm.badField = false)
    (hr : fm.roles (roleOf s q.ep) = true) :
    answer fm q run s = touchIdle (respond q fm.code (run (roleOf s q.ep) (entered q s)).1
      (run (roleOf s q.ep) (entered q s)).2.1 (run (roleOf s q.ep) (entered q s)).2.2) :=
  request_accepted_of (run := fun r s => respond q fm.code (run r s).1 (run r s).2.1 (run r s).2.2) h hd he hr

theorem answer_accepted {fm : Form} {q : Rq} {s : State} {run : Role → State → Nat × List Byte × State}
    (h : Accepted s q fm.code fm.body fm.device) (he : fm.badField = false)
    (hr : fm.roles (roleOf s q.ep) = true) :
    answer fm q run s = touchIdle (respond q fm.code (run (roleOf s q.ep) (entered q s)).1
      (run (roleOf s q.ep) (entered q s)).2.1 (run (roleOf s q.ep) (entered q s)).2.2) := by
  exact request_accepted (run := fun r s => respond q fm.code (run r s).1 (run r s).2.1 (run r s).2.2) h he hr

end Sys2Proof.Machine
end

