-- ==== Sys2Proof/Laws/Memory.lean ====
section
/-! SUPPORT. The addressed memories: every operation keeps the canonical form, a read after a write gives the byte
written, and a write leaves every other address alone. Association lists likewise. -/

namespace Sys2Proof.Machine

theorem Memory.read_below (a : Nat) (m : List Host.Cell) (h : ∀ c ∈ m, a < c.1) : Memory.read a m = 0 := by
  induction m with
  | nil => rfl
  | cons c m ih =>
    have hc := h c (List.mem_cons_self ..)
    rw [Memory.read, if_neg (by omega)]
    exact ih fun x hx => h x (List.mem_cons_of_mem _ hx)

/-- Every cell that a write leaves was there before or is the one written. -/
theorem Memory.mem_write (a : Nat) (b : Byte) (m : List Host.Cell) (c : Host.Cell) (h : c ∈ Memory.write a b m) :
    c ∈ m ∨ (c = (a, b) ∧ b ≠ 0) := by
  induction m with
  | nil =>
    rw [Memory.write] at h
    split at h
    · exact absurd h (List.not_mem_nil)
    · exact .inr ⟨List.mem_singleton.mp h, by assumption⟩
  | cons x m ih =>
    rw [Memory.write] at h
    split at h
    · rcases List.mem_cons.mp h with h | h
      · exact .inl (h ▸ List.mem_cons_self ..)
      · exact (ih h).imp (List.mem_cons_of_mem _) id
    · split at h
      · split at h
        · exact .inl (List.mem_cons_of_mem _ h)
        · rcases List.mem_cons.mp h with h | h
          · exact .inr ⟨h, by assumption⟩
          · exact .inl (List.mem_cons_of_mem _ h)
      · split at h
        · exact .inl h
        · rcases List.mem_cons.mp h with h | h
          · exact .inr ⟨h, by assumption⟩
          · exact .inl h

/-- A write keeps the canonical form. -/
theorem Memory.write_wf (a : Nat) (b : Byte) (m : List Host.Cell) (h : Memory.wf m) : Memory.wf (Memory.write a b m) := by
  refine ⟨?_, fun c hc => ?_⟩
  · obtain ⟨hp, hz⟩ := h
    induction m with
    | nil =>
      rw [Memory.write]
      split
      · exact List.Pairwise.nil
      · exact List.pairwise_singleton _ _
    | cons x m ih =>
      obtain ⟨hx, hm⟩ := List.pairwise_cons.mp hp
      rw [Memory.write]
      split
      · refine List.pairwise_cons.mpr ⟨fun c hc => ?_, ih hm fun c hc => hz c (List.mem_cons_of_mem _ hc)⟩
        rcases Memory.mem_write _ _ _ _ hc with h | ⟨rfl, -⟩
        · exact hx c h
        · assumption
      · split
        · split
          · exact hm
          · refine List.pairwise_cons.mpr ⟨fun c hc => ?_, hm⟩
            have := hx c hc
            omega
        · split
          · exact hp
          · refine List.pairwise_cons.mpr ⟨fun c hc => ?_, hp⟩
            rcases List.mem_cons.mp hc with rfl | hc
            · show a < x.1
              omega
            · have := hx c hc
              show a < c.1
              omega
  · rcases Memory.mem_write _ _ _ _ hc with h' | ⟨rfl, hb⟩
    · exact h.2 c h'
    · exact hb

theorem Memory.writeN_wf (a : Nat) (bs : List Byte) (m : List Host.Cell) (h : Memory.wf m) :
    Memory.wf (Memory.writeN m a bs) := by
  induction bs generalizing a m with
  | nil => exact h
  | cons b bs ih => exact ih _ _ (Memory.write_wf a b m h)

theorem Memory.clear_wf (a n : Nat) (m : List Host.Cell) (h : Memory.wf m) : Memory.wf (Memory.clear m a n) :=
  ⟨h.1.filter _, fun c hc => h.2 c (List.mem_of_mem_filter hc)⟩

/-- A read after a write to the same address gives the byte written. -/
theorem Memory.read_write (a : Nat) (b : Byte) (m : List Host.Cell) (h : Memory.wf m) :
    Memory.read a (Memory.write a b m) = b := by
  obtain ⟨hp, -⟩ := h
  induction m with
  | nil =>
    rw [Memory.write]
    split
    · rename_i hb
      exact hb.symm
    · simp [Memory.read]
  | cons x m ih =>
    obtain ⟨hx, hm⟩ := List.pairwise_cons.mp hp
    rw [Memory.write]
    split
    · rw [Memory.read, if_neg (by omega)]
      exact ih hm
    · split
      · split
        · rename_i h1 h2 hb
          rw [hb]
          exact Memory.read_below a m fun c hc => h2 ▸ hx c hc
        · simp [Memory.read]
      · split
        · rename_i h1 h2 hb
          rw [hb]
          refine Memory.read_below a _ fun c hc => ?_
          rcases List.mem_cons.mp hc with rfl | hc
          · show a < x.1
            omega
          · have := hx c hc
            omega
        · simp [Memory.read]

/-- A write leaves every other address alone. -/
theorem Memory.read_write_ne (a k : Nat) (hk : k ≠ a) (b : Byte) (m : List Host.Cell) :
    Memory.read k (Memory.write a b m) = Memory.read k m := by
  induction m with
  | nil =>
    rw [Memory.write]
    split
    · rfl
    · simp [Memory.read, Ne.symm hk]
  | cons x m ih =>
    rw [Memory.write]
    split
    · rw [Memory.read, Memory.read, ih]
    · split
      · rename_i h1 h2
        split
        · rw [Memory.read, if_neg (h2 ▸ Ne.symm hk)]
        · rw [Memory.read, if_neg (Ne.symm hk), Memory.read, if_neg (h2 ▸ Ne.symm hk)]
      · split
        · rfl
        · rw [Memory.read, if_neg (Ne.symm hk)]

/-- A write of several bytes leaves every address outside them alone. -/
theorem Memory.read_writeN_outside (k a : Nat) (bs : List Byte) (m : List Host.Cell) (h : k < a ∨ a + bs.length ≤ k) :
    Memory.read k (Memory.writeN m a bs) = Memory.read k m := by
  induction bs generalizing a m with
  | nil => rfl
  | cons b bs ih =>
    rw [List.length_cons] at h
    rw [Memory.writeN, ih (a + 1) _ (by omega), Memory.read_write_ne a k (by omega)]

/-- A read after a write of several bytes gives them. -/
theorem Memory.read_writeN (a i : Nat) (bs : List Byte) (m : List Host.Cell) (h : Memory.wf m) (hi : i < bs.length) :
    Memory.read (a + i) (Memory.writeN m a bs) = bs[i] := by
  induction bs generalizing a m i with
  | nil => exact absurd hi (Nat.not_lt_zero _)
  | cons b bs ih =>
    cases i with
    | zero =>
      rw [Memory.writeN, Memory.read_writeN_outside _ _ _ _ (.inl (by omega))]
      exact Memory.read_write a b m h
    | succ i =>
      have e : a + (i + 1) = a + 1 + i := by omega
      rw [Memory.writeN, e, ih (a + 1) i _ (Memory.write_wf a b m h) (by simpa using hi)]
      rfl

theorem get_put {α : Type} (k : Nat) (v : α) (l : List (Nat × α)) : get? k (put k v l) = some v := by
  induction l with
  | nil => simp [put, get?]
  | cons x l ih =>
    rw [put]
    split
    · simp [get?]
    · rename_i h
      rw [get?, if_neg h, ih]

theorem get_put_ne {α : Type} (k j : Nat) (h : j ≠ k) (v : α) (l : List (Nat × α)) : get? j (put k v l) = get? j l := by
  induction l with
  | nil => simp [put, get?, Ne.symm h]
  | cons x l ih =>
    rw [put]
    split
    · rename_i e
      rw [get?, if_neg (Ne.symm h), get?, if_neg (e ▸ Ne.symm h)]
    · rw [get?, get?, ih]

end Sys2Proof.Machine
end

