-- ==== Sys2Proof/WellFormed.lean ====
section
/-! DEFINITION. Which commands are well formed: every operand lies in the range that the device's numbering, or the
width of its field, gives it. What the device does with a value inside its field but outside a rule's range is the
command's meaning, not a matter of form. -/

namespace Sys2Proof

/-! ### The checks -/

/-- Tenant numbers are 0 to 255 (R69). -/
def Fn.ok (f : Fn) : Bool := f.tenant ≤ 255

/-- 32 channels of at most 16 dies (R14). -/
def DieId.ok (d : DieId) : Bool := d.ch < 32 && d.pos < 16

/-- Endpoint identifiers (Table 11.4). -/
def Endpoint.ok : Endpoint → Bool
  | .fn f => f.ok
  | .mctp b p e => b ≤ 2 && p ≤ 1 && e ≤ 255

/-- A value of an n-bit field. -/
def fits (n v : Nat) : Bool := v < 2 ^ n

/-- Slot numbers (R14). -/
def slotOk (i : Nat) : Bool := i < 8192

/-- Physical engines: eight clusters of nine (R480). -/
def engineOk (e : Nat) : Bool := e < 72

/-- An index among n units. -/
def below (n i : Nat) : Bool := i < n

/-- The header of a mailbox request: field widths of Table 11.1. -/
def Rq.ok (q : Rq) : Bool :=
  q.ep.ok && fits 16 q.flags && fits 16 q.tag && fits 16 q.tenant && fits 13 q.delivered && fits 32 q.length && fits 32 q.seq

/-- Field widths of an NVMe command (NVMe Base 2.1). -/
def Body.ok : Body → Bool
  | .read a n _ | .write a n _ => fits 64 a && fits 16 n
  | .writeZeroes a n | .compare a n | .verify a n => fits 64 a && fits 16 n
  | .dsm _ rs => rs.length ≤ 256 && rs.all fun r => fits 64 r.1 && fits 32 r.2
  | .flush | .resvReport | .aer | .nsDelete | .miSend | .miReceive => true
  | .resvRegister a k n => fits 3 a && fits 64 k && fits 64 n
  | .resvAcquire a r k p => fits 3 a && fits 8 r && fits 64 k && fits 64 p
  | .resvRelease a r k => fits 3 a && fits 8 r && fits 64 k
  | .abort q c => fits 16 q && fits 16 c
  | .createSq q n c p => fits 16 q && fits 17 n && fits 16 c && fits 2 p
  | .createCq q n v => fits 16 q && fits 17 n && fits 16 v
  | .deleteSq q | .deleteCq q => fits 16 q
  | .setQueues a b => fits 16 a && fits 16 b
  | .setArb a l m h _ => fits 3 a && fits 8 l && fits 8 m && fits 8 h
  | .setWce _ | .setApst _ => true
  | .setPm p w => fits 5 p && fits 3 w
  | .setCoal a b => fits 8 a && fits 8 b
  | .getFeatures f s => fits 8 f && fits 3 s
  | .identify c x => fits 8 c && fits 8 x
  | .getLog l o n => fits 8 l && fits 64 o && fits 34 n
  | .nsCreate a b l => fits 64 a && fits 64 b && fits 6 l
  | .nsAttach _ cs => cs.length ≤ 2047 && cs.all (fits 16)
  | .format l => fits 6 l
  | .sanitize a => fits 3 a
  | .fwDownload o _ => fits 34 o
  | .fwCommit s c => fits 3 s && fits 3 c
  | .selfTest c => fits 4 c
  | .virtMgmt a r => fits 4 a && fits 3 r
  | .mailbox n a b => fits 32 n && fits 32 a && fits 32 b
  | .loadProgram _ _ => true
  | .unloadProgram i | .activate i _ => fits 16 i
  | .execute i _ _ => fits 16 i
  | .rangeSetCreate rs => rs.all fun r => fits 64 r.1 && fits 64 r.2
  | .rangeSetDelete i => fits 16 i
  | .slmRead o n => fits 64 o && fits 64 n
  | .slmWrite o _ => fits 64 o
  | .slmFill o n _ => fits 64 o && fits 64 n
  | .slmCopy a b n => fits 64 a && fits 64 b && fits 64 n
  | .unsupported o => fits 8 o

/-- A submission queue entry. -/
def Sqe.ok (e : Sqe) : Bool := fits 16 e.cid && fits 32 e.nsid && e.body.ok

/-- Fenced parties are numbered within their class (R487). -/
def Party.ok : Party → Bool
  | .engine p => engineOk p
  | .lane i | .digest i => below 4 i
  | .felt i => below 8 i
  | .sieve i => below 16 i
  | .twill => true
  | .function f => f.ok
  | .channel c => below 32 c
  | .pair i => below 2 i

/-- Straps are two bits (R568). -/
def strapOk (v : Nat) : Bool := fits 2 v

/-! ### Well-formed commands -/

/-- The command is well formed. -/
def Instr.wellFormed : Instr → Bool
  | .pwrgdRise _ bootsel portcfg => strapOk bootsel && strapOk portcfg
  | .pwrgdFall _ => true
  | .sysclkFault _ => true
  | .deviceReady _ => true
  | .pfailAssert _ => true
  | .pfailDeassert _ => true
  | .pfailResume _ => true
  | .holdupOkChange _ _ => true
  | .holdupOkStable _ => true
  | .holdupProofLapse _ => true
  | .holdupTestDue _ => true
  | .holdupTestComplete _ => true
  | .deviceShutdown _ => true
  | .liveSettingsBankWrite _ => true
  | .cycinEdge _ _ => true
  | .cycinFilterDecision _ _ _ _ => true
  | .epochEdge _ => true
  | .epochSeriesSwitch _ => true
  | .firnEpochGo _ f count rest => f.ok && fits 16 count && fits 15 rest
  | .firnBeatLoRead _ f => f.ok
  | .ptmDialogue _ _ answer => answer.all (fits 64)
  | .ptmContextLapse _ _ => true
  | .beatLoss _ => true
  | .holdoverExpire _ => true
  | .beatBoundary _ => true
  | .windowStart _ i => below 16 i
  | .maintOverrideAnnounce _ task _ => fits 3 task
  | .maintOverrideEnd _ => true
  | .stillSuspendPoint _ i => below 16 i
  | .dieSuspended _ d => d.ok
  | .suspendTimeout _ d => d.ok
  | .stillTailEnd _ => true
  | .telemetrySnapshot _ => true
  | .powerStateDecision _ => true
  | .perstAssert _ _ => true
  | .perstDeassert _ _ => true
  | .linkDown _ _ => true
  | .functionLevelReset _ f => f.ok
  | .controllerEnable _ f css => f.ok && fits 3 css
  | .controllerDisable _ f => f.ok
  | .controllerShutdown _ f => f.ok
  | .sqDoorbell _ f qid tail => f.ok && fits 16 qid && fits 16 tail
  | .cqDoorbell _ f qid head => f.ok && fits 16 qid && fits 16 head
  | .commandFetch _ e => e.ok
  | .asnSpanLimit _ slot => slotOk slot
  | .read _ slot => slotOk slot
  | .write _ slot => slotOk slot
  | .writeZeroes _ slot => slotOk slot
  | .datasetManagement _ slot => slotOk slot
  | .compare _ slot _ => slotOk slot
  | .verify _ slot => slotOk slot
  | .flush _ slot => slotOk slot
  | .reservationRegister _ slot => slotOk slot
  | .reservationAcquire _ slot => slotOk slot
  | .reservationRelease _ slot => slotOk slot
  | .reservationReport _ slot => slotOk slot
  | .writeDataArrival _ slot _ _ => slotOk slot
  | .stagingRoomGrant _ => true
  | .dataFetchFault _ slot _ => slotOk slot
  | .readWaitRelease _ slot => slotOk slot
  | .abort _ slot => slotOk slot
  | .abortTimerExpiry _ slot => slotOk slot
  | .asynchronousEventRequest _ slot => slotOk slot
  | .createIoSq _ slot => slotOk slot
  | .createIoCq _ slot => slotOk slot
  | .deleteIoSq _ slot => slotOk slot
  | .deleteIoCq _ slot => slotOk slot
  | .setFeaturesNumberOfQueues _ slot => slotOk slot
  | .setFeaturesArbitration _ slot => slotOk slot
  | .setFeaturesVolatileWriteCache _ slot => slotOk slot
  | .setFeaturesPowerManagement _ slot => slotOk slot
  | .setFeaturesApst _ slot => slotOk slot
  | .setFeaturesInterruptCoalescing _ slot => slotOk slot
  | .getFeatures _ slot => slotOk slot
  | .identify _ slot => slotOk slot
  | .getLogPage _ slot => slotOk slot
  | .namespaceManagement _ slot => slotOk slot
  | .namespaceAttachment _ slot => slotOk slot
  | .formatNvm _ slot => slotOk slot
  | .sanitize _ slot => slotOk slot
  | .firmwareImageDownload _ slot => slotOk slot
  | .firmwareCommit _ slot => slotOk slot
  | .deviceSelfTest _ slot => slotOk slot
  | .nvmeMiSend _ slot => slotOk slot
  | .nvmeMiReceive _ slot => slotOk slot
  | .virtualizationManagement _ slot => slotOk slot
  | .loadProgram _ slot => slotOk slot
  | .programUnload _ slot => slotOk slot
  | .programActivationManagement _ slot => slotOk slot
  | .executeProgram _ slot => slotOk slot
  | .memoryRangeSetManagement _ slot => slotOk slot
  | .memoryRead _ slot => slotOk slot
  | .memoryWrite _ slot => slotOk slot
  | .memoryFill _ slot => slotOk slot
  | .memoryCopy _ slot => slotOk slot
  | .runRelease _ asn => fits 48 asn
  | .engineDispatch _ pos _ => below 64 pos
  | .creditReturn _ asn _ _ => fits 48 asn
  | .nodeEnd _ asn _ _ _ _ => fits 48 asn
  | .nodeWatchdog _ asn _ _ => fits 48 asn
  | .tenantStopGraceExpiry _ tenant => below 256 tenant
  | .tenantDrainComplete _ tenant => below 256 tenant
  | .sieveChunk _ unit asn _ _ => below 16 unit && fits 48 asn
  | .feltPackChunk _ inst asn _ _ _ => below 4 inst && fits 48 asn
  | .feltUnpackChunk _ inst asn _ _ => below 4 inst && fits 48 asn
  | .grainInflate _ _ _ _ => true
  | .cipherUnit _ lane => below 4 lane
  | .digestBlock _ engine => below 4 engine
  | .jobResume _ unit asn _ _ _ => below 8 unit && fits 48 asn
  | .twillGet _ asn _ => fits 48 asn
  | .twillFloor _ asn _ => fits 48 asn
  | .twillCeil _ asn _ => fits 48 asn
  | .twillNext _ asn _ => fits 48 asn
  | .twillScan _ asn _ => fits 48 asn
  | .twillInsert _ asn _ => fits 48 asn
  | .twillPut _ asn _ => fits 48 asn
  | .twillReplace _ asn _ => fits 48 asn
  | .twillDelete _ asn _ => fits 48 asn
  | .twillBulkEntry _ asn _ => fits 48 asn
  | .twillBackgroundScan _ _ => true
  | .add e _ => engineOk e
  | .sub e _ => engineOk e
  | .and e _ => engineOk e
  | .or e _ => engineOk e
  | .xor e _ => engineOk e
  | .andn e _ => engineOk e
  | .shl e _ => engineOk e
  | .shr e _ => engineOk e
  | .sar e _ => engineOk e
  | .ror e _ => engineOk e
  | .min e _ => engineOk e
  | .max e _ => engineOk e
  | .minu e _ => engineOk e
  | .maxu e _ => engineOk e
  | .abs e _ => engineOk e
  | .sexth e _ => engineOk e
  | .sextb e _ => engineOk e
  | .zexth e _ => engineOk e
  | .zextb e _ => engineOk e
  | .mov e _ => engineOk e
  | .clz e _ => engineOk e
  | .popc e _ => engineOk e
  | .addi e _ => engineOk e
  | .andi e _ => engineOk e
  | .ori e _ => engineOk e
  | .xori e _ => engineOk e
  | .shi e _ => engineOk e
  | .movi e _ => engineOk e
  | .movhi e _ => engineOk e
  | .cmp e _ => engineOk e
  | .tst e _ => engineOk e
  | .cmpi e _ => engineOk e
  | .tsti e _ => engineOk e
  | .adda e _ => engineOk e
  | .suba e _ => engineOk e
  | .movaa e _ => engineOk e
  | .movad e _ => engineOk e
  | .movda e _ => engineOk e
  | .cmpa e _ => engineOk e
  | .addai e _ => engineOk e
  | .movai e _ => engineOk e
  | .movahi e _ => engineOk e
  | .ld e _ => engineOk e
  | .st e _ => engineOk e
  | .lda e _ => engineOk e
  | .sta e _ => engineOk e
  | .inDataPop e _ => engineOk e
  | .inStatRead e _ => engineOk e
  | .inSkip e _ => engineOk e
  | .outDataPush e _ => engineOk e
  | .flushPort e _ => engineOk e
  | .endPort e _ => engineOk e
  | .muls e _ => engineOk e
  | .mulu e _ => engineOk e
  | .macs e _ => engineOk e
  | .macu e _ => engineOk e
  | .msus e _ => engineOk e
  | .msuu e _ => engineOk e
  | .dmac e _ => engineOk e
  | .accclr e _ => engineOk e
  | .accmov e _ => engineOk e
  | .accadd e _ => engineOk e
  | .accldp e _ => engineOk e
  | .accldd e _ => engineOk e
  | .accneg e _ => engineOk e
  | .accrd e _ => engineOk e
  | .movsRead e _ => engineOk e
  | .movsWrite e _ => engineOk e
  | .fadd e _ => engineOk e
  | .fsub e _ => engineOk e
  | .fmul e _ => engineOk e
  | .fma e _ => engineOk e
  | .fms e _ => engineOk e
  | .fmin e _ => engineOk e
  | .fmax e _ => engineOk e
  | .fabs e _ => engineOk e
  | .fneg e _ => engineOk e
  | .fcmp e _ => engineOk e
  | .fcmpz e _ => engineOk e
  | .ftoi e _ => engineOk e
  | .ftoin e _ => engineOk e
  | .ftou e _ => engineOk e
  | .itof e _ => engineOk e
  | .utof e _ => engineOk e
  | .b e _ => engineOk e
  | .jr e _ => engineOk e
  | .call e _ => engineOk e
  | .ret e _ => engineOk e
  | .loop e _ => engineOk e
  | .nop e _ => engineOk e
  | .halt e _ => engineOk e
  | .brk e _ => engineOk e
  | .drain e _ => engineOk e
  | .dieReadComplete _ d _ => d.ok
  | .programComplete _ d _ => d.ok
  | .eraseComplete _ d _ => d.ok
  | .diePollTimeout _ d => d.ok
  | .dieResetTimeout _ d x => d.ok && x.silent.all (· < 16) && x.driven.all (· < 16)
  | .channelBusFault _ x => x.ch < 32 && x.found.silent.all (· < 16) && x.found.driven.all (· < 16)
  | .grainDrain _ _ _ unit => unit.inst < 4
  | .journalWrite _ => true
  | .mapPageLoadComplete _ _ _ _ _ => true
  | .dramUncorrectable _ ch _ _ => below 4 ch
  | .dramRetrainingComplete _ _ _ => true
  | .sramCorrection _ _ _ _ _ _ => true
  | .scrubPatrol _ _ => true
  | .scrubPassComplete _ _ _ _ => true
  | .ownershipReclaim _ p => p.ok
  | .psEntryComplete _ => true
  | .psExitComplete _ => true
  | .avsAck _ => true
  | .avsTimeout _ => true
  | .pmbusTimeout _ => true
  | .pmbAlert _ statusWord => fits 16 statusWord
  | .powerSample _ _ _ => true
  | .thermalShutdown _ => true
  | .led1Timeout _ => true
  | .rimeFlushComplete _ => true
  | .lockstepWatchdogExpiry _ => true
  | .pairFault _ pair _ => below 2 pair
  | .pairStandbyReady _ pair => below 2 pair
  | .handoverStandbyReady _ _ => true
  | .handoverPauseEnd _ => true
  | .microcodeLoad _ cluster => below 8 cluster
  | .svnRaise _ => true
  | .serdesReequalisation _ _ => true
  | .serdesReeqComplete _ _ rate => fits 8 rate
  | .sessionTimeout _ ep => ep.ok
  | .nonceLapse _ ep => ep.ok
  | .sessionLockoutEnd _ ep => ep.ok
  | .mailboxTimeout _ ep => ep.ok
  | .devwinErrClear _ f _ => f.ok
  | .registerWrite _ f bar offset _ => f.ok && below 6 bar && fits 20 offset
  | .deviceInfo _ q => q.ok
  | .challenge _ q _ _ => q.ok
  | .prove _ q _ _ _ => q.ok
  | .close _ q => q.ok
  | .bulkWrite _ q _ _ => q.ok
  | .viewRead _ q _ _ _ _ => q.ok
  | .setRead _ q _ _ => q.ok
  | .setStage _ q _ _ _ => q.ok
  | .setCommit _ q _ => q.ok
  | .setDiscard _ q => q.ok
  | .setLive _ q _ _ => q.ok
  | .shelfGrant _ q _ _ => q.ok
  | .shelfWithdraw _ q => q.ok
  | .tenantCreate _ q _ _ => q.ok
  | .tenantDestroy _ q => q.ok
  | .tenantStop _ q _ => q.ok
  | .tenantStart _ q => q.ok
  | .tenantState _ q => q.ok
  | .tenantCred _ q _ => q.ok
  | .progsignCred _ q _ => q.ok
  | .tenantErase _ q => q.ok
  | .nsCreate _ q _ _ _ _ _ _ _ _ => q.ok
  | .nsResize _ q _ _ _ => q.ok
  | .ownClaim _ q _ => q.ok
  | .ownTransfer _ q _ => q.ok
  | .ownRelease _ q => q.ok
  | .factoryRestore _ q => q.ok
  | .debugNonce _ q => q.ok
  | .debugUnlock _ q _ => q.ok
  | .generate _ q _ _ _ => q.ok
  | .derive _ q _ _ _ _ => q.ok
  | .unwrap _ q _ _ _ => q.ok
  | .wrap _ q _ _ _ => q.ok
  | .restrict _ q _ _ _ => q.ok
  | .clear _ q _ _ => q.ok
  | .query _ q _ _ => q.ok
  | .loadNsKey _ q _ _ _ => q.ok
  | .planRead _ q => q.ok
  | .firnEdges _ q _ => q.ok
  | .progInstall _ q _ => q.ok
  | .progRemove _ q _ => q.ok
  | .progList _ q => q.ok
  | .twillStatus _ q => q.ok
  | .rimeRead _ q _ _ => q.ok
  | .moraineInfo _ q => q.ok
  | .moraineRead _ q _ _ => q.ok
  | .fwStage _ q _ _ _ => q.ok
  | .fwActivate _ q => q.ok
  | .fwStatus _ q => q.ok
  | .svnCommit _ q => q.ok
  | .recoveryStage _ q _ _ _ => q.ok
  | .scrubStart _ q _ _ _ => q.ok
  | .scrubResult _ q _ => q.ok
  | .calve _ q _ => q.ok
  | .engineTest _ q _ => q.ok
  | .dramRetrain _ q _ => q.ok
  | .hppr _ q _ => q.ok
  | .pageIdle _ q _ => q.ok
  | .nrrLog2 _ q _ => q.ok
  | .nandRecal _ q _ => q.ok
  | .serdesReeq _ q _ => q.ok
  | .pairTest _ q _ => q.ok
  | .holdupStatus _ q => q.ok
  | .shutdown _ q => q.ok
  | .boardDesc _ q _ => q.ok
  | .powerLimit _ q _ => q.ok
  | .readNvmeMiDataStructure _ ep kind => ep.ok && fits 8 kind
  | .nvmSubsystemHealthStatusPoll _ ep => ep.ok
  | .controllerHealthStatusPoll _ ep => ep.ok
  | .configurationGet _ ep _ => ep.ok
  | .getVersion _ ep => ep.ok
  | .getCapabilities _ ep => ep.ok
  | .negotiateAlgorithms _ ep _ _ => ep.ok
  | .getDigests _ ep => ep.ok
  | .getCertificate _ ep slot offset length => ep.ok && fits 4 slot && fits 16 offset && fits 16 length
  | .spdmChallenge _ ep _ _ => ep.ok
  | .getMeasurements _ ep _ _ => ep.ok
  | .jtagTapReset _ => true
  | .extest _ => true
  | .linkUp _ _ rate width => fits 8 rate && fits 5 width
  | .l12Entry _ _ => true
  | .l12Exit _ _ => true
  | .linkPartnerReequalisation _ _ => true
  | .correctableLinkError _ _ => true
  | .aggregationTimeExpiry _ f vector => f.ok && below 2049 vector
  | .hostDmaComplete _ slot => slotOk slot
  | .dieResetComplete _ d => d.ok
  | .pmbusTransferComplete _ _ => true
  | .norWriteComplete _ => true
  | .startStageComplete _ _ => true
  | .outputFirstDrive _ _ => true
  | .engineSelfTestQuantumEnd _ p _ => engineOk p
  | .postPackageRepairComplete _ ch => below 4 ch
  | .regulatorFaultRetry _ => true
  | .undefinedInstruction e _ => engineOk e
  | .unknownMailboxRequest _ q opcode => q.ok && fits 16 opcode
  | .unsupportedNvmeCommand _ slot => slotOk slot
  | .unsupportedNvmeMiMessage _ ep => ep.ok
  | .mailboxTransfer _ slot _ _ => slotOk slot

end Sys2Proof
end

