-- ==== Sys2Proof/Tests/Slice0.lean ====
section
/-! SUPPORT. Tests: ill-formed commands, the spec's worked examples, single steps, and for every statement a witness that
meets its hypotheses. -/

namespace Sys2Proof.Tests
open Sys2Proof.Machine
set_option maxRecDepth 100000
set_option Elab.async false

/-! ### Small states -/

/-- A function of tenant 0, its controller, a device that runs, and tenant 1 on it. -/
def fA : Fn := ⟨0, .a⟩
def ctl : Ctrl := { fn := fA, en := true, rdy := true, css := 6, pairs := 4 }
def nsOne : Ns := { nsid := 1, assured := 2 ^ 25, attached := [fA], key := some [], resident := [0], written := [0] }
def tenOne : Tenant := { num := 1, cfg := { TenRec.blank 1 with ports := 3, keyQuota := 4, ioqQuota := 4 } }
def tenZero : Tenant := { num := 0, cfg := TenRec.blank 0 }
def on : State := { State.reset with
  pins := { pwrgd := true, ready := true, holdupOk := true, parked := false }
  boot := { life := .running, cleanRecord := false }
  firn := { started := true }
  linkA := { perst := false, up := true, rate := 32, width := 4, clkreq := true }
  ctrls := [ctl]
  nss := [nsOne]
  tenants := [tenZero, tenOne] }

/-- The management endpoint, with a session of the owner or of an administrator, and requests on it. -/
def mc : Endpoint := .mctp 0 0 8
def owned : State := { on with eps := [{ ep := mc, session := some (1, 0, 0) }] }
def admin (t : Nat) : State := { on with eps := [{ ep := mc, session := some (2, t, 0) }] }
def host : State := { on with ctrls := [{ ctl with mbx := { busy := true, doorbell := some 20 } }] }
def hostRq (body : Nat) : Rq := ⟨.fn fA, .bar2, 0, 0, 0, 16 + body, 16 + body, 1, false⟩
def rq (body tenant : Nat) : Rq :=
  { ep := mc, path := .mctp, flags := 0, tag := 0, tenant := tenant, delivered := 16 + body, length := 16 + body, seq := 1,
    bodyReserved := false }
def dev (body : Nat) : Rq := rq body 0xFFFF

/-- A key policy, a wrapped key under the device's own labels, and slots that hold keys. -/
def pol : KeyPolicy := ⟨1, false, 0, false, true, true, false, false, true, false⟩
def blob : KeyBlob := ⟨0x4B424C31, 1, 32, pol, zeros 32, zeros 12, 0, zeros 32, zeros 16⟩
def keyState : State := { admin 1 with units := { on.units with
  keys := [{ slot := 20, owner := 1, valid := true, uEnc := true, uDec := true, exportable := true, key := zeros 64 }] } }
def mediaNs : Ns := { nsid := 2, tenant := 1, keysrc := 1 }
def mediaState : State := { admin 1 with nss := [nsOne, mediaNs], units := { on.units with
  keys := [{ slot := 20, owner := 1, valid := true, uMedia := true, size := 2, key := zeros 64 }] } }

/-- A command in slot 3, or with `adm` an admin command in slot 8130, and a device that holds it. -/
def dptr : DataPtr := ⟨0, false, false, false, false, none⟩
def sq (nsid : Nat) (b : Body) : Sqe := ⟨9, nsid, false, false, false, dptr, b⟩
def io (nsid : Nat) (b : Body) : Slot := { ix := 3, asn := 5, fn := fA, sqid := 1, sqe := sq nsid b, bell := ⟨0, false, []⟩ }
def ad (nsid : Nat) (b : Body) : Slot := { ix := 8130, asn := 5, fn := fA, sqid := 0, sqe := sq nsid b, bell := ⟨0, false, []⟩ }
def with_ (sl : Slot) : State := { on with slots := [sl], asn := 6 }

/-- A namespace with a grain on media, one with a reservation; a write in its slot, and an older one that others wait for. -/
def mapped : Ns := { nsOne with map := [(0, { frame := 64, len := 2, dealloc := false, raw := true })] }
def reserved : Ns := { nsOne with resv := { rtype := 1, holder := some fA, registrants := [(fA, 7)] } }
def writing : Slot := { io 1 (.write 0 2 false) with phase := .dataIn, pieces := [{ lba := 0, count := 2 }] }
def older : Slot := { writing with ix := 4, asn := 4 }

/-- Two submissions wait at the admin queue; and the first command is already in a slot. -/
def rung : State := { on with ctrls := [{ ctl with asq := { ctl.asq with tail := 2, bells := [⟨0, false, []⟩, ⟨0, false, []⟩] } }] }
def held (s : State) : State := { s with slots := [ad 0 .aer] }

/-- A graph image of three nodes in a row: a host source, a node of type `typ` with parameters, and a count sink. -/
def nodeEntry (typ nin nout plen : Nat) : List Byte :=
  [BitVec.ofNat 8 typ, 0, BitVec.ofNat 8 nin, BitVec.ofNat 8 nout, 1] ++ zeros 11 ++ le 4 plen ++ zeros 12
def edgeEntry (src dst : Nat) : List Byte := [BitVec.ofNat 8 src, 0, BitVec.ofNat 8 dst, 0, 12, 4, 1] ++ zeros 9
def chain (typ sink : Nat) (param : List Byte) : List Byte :=
  zeros 6 ++ le 2 3 ++ le 2 2 ++ zeros 54 ++ nodeEntry 4 0 1 0 ++ nodeEntry typ 1 1 param.length ++ nodeEntry sink 1 0 0 ++
    edgeEntry 0 1 ++ edgeEntry 1 2 ++ param

/-- The first die at work, and a device with it; and a read that waits for it. -/
def d0 : DieId := ⟨0, 0⟩
def busy (x : Die) : State := { on with media := { on.media with dies := [x] } }
def reading : Slot := { io 1 (.read 0 1 false) with phase := .media, reads := [0], chosen := true, data := [[]] }
def storedRun : Run :=
  { domain := 0, frame := 64, len := 2, raw := true, nsid := 1, grain := 0, data := [[7]], asns := [0], key := [], sealed := []
    serial := 0 }

/-- A fetch of the page of `storedRun` for `reading`, its die at work on it, and a band that holds that page. -/
def hostFetch : Fetch :=
  { use := .host 5 1 0, entry := { frame := 64, len := 2, dealloc := false, raw := true }, serial := 0, left := [(0, 1)] }
def atRead (x : Die) (f : Fetch) : State :=
  { on with slots := [reading], media := { on.media with dies := [x], fetches := [f] } }
def band0 : Band := ⟨0, .host, 0, 0, [1], [], (List.range 32).map fun c => (c, 0, 0), 0, 0, [], [], [], false⟩
def atProgram (b : Band) : State :=
  { on with media := { on.media with dies := [{ id := d0, op := some (.program 0 0 1) }], bands := [b] } }

/-- A device that holds the stored run and its band; a band with one column programmed, and a copy that lies in it. -/
def withStored (sl : Slot) : State :=
  { with_ sl with nss := [mapped], media := { on.media with runs := [storedRun], bands := [band0] } }
def bandDone : Band := { band0 with passed := (List.range blockRows).map fun r => (r, 1) }
def copied : Placed :=
  { run := { storedRun with frame := 0, len := 1 }, source := some { frame := 32, len := 1, dealloc := false, raw := true, gen := 3 } }

/-- Every band of a domain is free where none stands, and the copy lies in verified pages. -/
theorem freeShare_all (s : State) (dom : Nat) (h : s.media.bands = []) : freeShare s dom = 10000 := by
  unfold freeShare freeBands
  rw [h, List.filter_nil, List.length_nil, Nat.sub_zero]
  exact Nat.mul_div_cancel_left _ (by omega)
theorem copied_verified :
    copied.run.pages.all (Band.verified { bandDone with passed := bandDone.passed ++ [(0, 1)] }) = true := by
  have h : copied.run.pages = [pageAt 0 0] := by
    simp [copied, Run.pages, framePages, storedRun]
  rw [h]
  have p : pageAt 0 0 = (0, 1) := by decide +kernel
  simp only [List.all_cons, List.all_nil, Bool.and_true, p, Band.verified, Bool.and_eq_true, List.all_eq_true]
  refine ⟨by simp, fun r _ => ?_⟩
  by_cases k : blockRows ≤ r
  · simp [k]
  · simp [bandDone]
    omega

/-- A STILL window whose guard contains phase 0. -/
def suspending : State :=
  { on with firn := { on.firn with plan := { Plan.blank with windows := [⟨0, .work⟩, ⟨1, .still⟩] } } }
theorem guard_pos (s : State) (p : s.firn.plan.periodNs = 1000000) : 1 ≤ firnGuard s := by
  unfold firnGuard phaseSteps ceilDiv
  rw [p]
  exact (Nat.one_le_div_iff (by decide)).mpr (by omega)
theorem suspending_due : atSuspendPoint (suspending.arrive 5) ⟨1, .still⟩ = true := by
  have d : phaseDistance (firnPhase (suspending.arrive 5)) 1 = 1 := by decide +kernel
  have g : 1 ≤ firnGuard (suspending.arrive 5) := guard_pos _ (by decide +kernel)
  unfold atSuspendPoint
  rw [d]
  dsimp only
  rw [decide_eq_true g]
  rfl

/-- A program of tenant 0 with its image, and the device with it. -/
def prog (im : List Byte) : Image := { tenant := 0, index := 1, bytes := im, active := true }
def withProg (sl : Slot) (im : List Byte) : State := { with_ sl with compute := { on.compute with images := [prog im] } }
/-- An image of one node. -/
def single : List Byte := zeros 6 ++ le 2 1 ++ zeros 56 ++ nodeEntry 0x21 0 0 0
/-- Tenant 0 with 2 MiB of subsystem-local memory. -/
def withSlm (sl : Slot) : State :=
  { with_ sl with tenants := [{ tenZero with cfg := { TenRec.blank 0 with slmSize := 2 ^ 21 } }] }

/-- An engine that stands at the word `w`, and a device with it. -/
def eng (w : Word) : Engine :=
  { ix := 0, status := 0, pos := some 0, job := some (5, 1, 0), imem := Memory.writeN [] 0x40 (le 4 w.toNat), pc := 0x40
    d := Vector.ofFn fun i => BitVec.ofNat 32 (0x80000003 * (i.val + 1) + 5 * i.val)
    a := Vector.ofFn fun i => BitVec.ofNat 32 (16 * i.val)
    acc := Vector.ofFn fun i => BitVec.ofNat 72 (2 ^ 70 + 2 ^ 40 * i.val + 77), ph := 0x80000001, pl := 9 }
def runs (x : Engine) : State := { on with engines := [x] }

/-- A released run of such a graph, with one chunk that waits at the middle node. -/
def run (typ : Nat) (param bs : List Byte) : GRun :=
  { asn := 5, tenant := 0, slot := 3, fn := fA, index := 1, image := chain typ 0x32 param, args := [], hostData := []
    fetchedAt := 0, released := some 0
    replicas := [{ node := 0, ix := 0 }, { node := 1, ix := 0, state := .running }, { node := 2, ix := 0 }]
    lanes := [{ edge := 0, ix := 0, chunks := [⟨bs, false, []⟩], credits := 3 }, { edge := 1, ix := 0, credits := 4 }] }
def withRun (r : GRun) : State := { on with
  slots := [{ io 0x10000 (.execute 1 [] []) with phase := .running }], compute := { on.compute with runs := [r] } }

/-- An engine under its self-test. -/
def tested : Engine := { eng 0 with job := none, testing := true, testDue := true }

/-- The engine with an address in A9, and with two pointers for a dual fetch. -/
def far (w : Word) (at9 : Nat) : Engine := { eng w with a := #v[0, 0, 0, 0, 0, 0, 0, 0, 0, BitVec.ofNat 32 at9, 0, 0, 0, 0, 0, 0] }
def far5 (w : Word) : Engine := { eng w with a := #v[0, 0, 0x40, 0, 0, 0x20040, 0, 0, 0, 0, 0, 0, 0, 0, 0, 0] }

/-- The run whose input has ended. -/
def ended : GRun := { run 0x20 [] [] with
  lanes := [{ edge := 0, ix := 0, credits := 3, ended := true }, { edge := 1, ix := 0, credits := 4 }] }

/-- The run before its release, and with one bad replica or none. -/
def waitingRun : GRun := { run 0x20 [] [7] with released := none }
def sinking : GRun := { run 0x20 [] [] with
  lanes := [{ edge := 0, ix := 0, credits := 4 }, { edge := 1, ix := 0, chunks := [⟨[7, 8], false, []⟩], credits := 3 }] }
def endedSink : GRun := { run 0x20 [] [] with
  lanes := [{ edge := 0, ix := 0, credits := 4 }, { edge := 1, ix := 0, credits := 4, ended := true, endTaken := true }] }

/-- A cipher node in ECB-like form of one key slot, its key and a job of it. -/
def keyed : KeySlot := { slot := 2, owner := 0, valid := true, size := 0, uEnc := true, key := List.replicate 64 3 }
def ciphered : GRun := run 0x14 ([1, 1] ++ le 2 2 ++ zeros 60) (List.replicate 16 7)
def aJob : Job := { asn := 5, node := 1, replica := 0, tenant := 0, mode := 1, key := List.replicate 32 3 }

/-- A request of Twill's table, with a key at its end. -/
def twBytes (op : Nat) (count : Nat) (value : Nat) (key : Byte) : List Byte :=
  [BitVec.ofNat 8 op, 0] ++ le 2 count ++ le 4 3 ++ le 8 value ++ zeros 15 ++ [key]
def twPairs : List TwEntry := [⟨0, 5, 50⟩, ⟨8, 9, 90⟩]
def twAt (op count value : Nat) (key : Byte) : GRun := run 0x13 (le 4 1 ++ zeros 4) (twBytes op count value key)
def bulkRun (entry : List Byte) : GRun := { run 0x13 [] [] with
  image := zeros 6 ++ le 2 4 ++ le 2 3 ++ zeros 54 ++ nodeEntry 4 0 1 0 ++ nodeEntry 0x13 2 1 8 ++ nodeEntry 0x32 1 0 0 ++
    nodeEntry 4 0 1 0 ++ edgeEntry 0 1 ++ [3, 0, 1, 1, 12, 4, 1] ++ zeros 9 ++ edgeEntry 1 2 ++ le 4 3 ++ zeros 4
  lanes := [{ edge := 0, ix := 0, credits := 4 }, { edge := 1, ix := 0, chunks := [⟨entry, false, []⟩], credits := 3 },
    { edge := 2, ix := 0, credits := 4 }] }
def twOn (r : GRun) : State := { withRun r with twill := { on.twill with parts := [{ tenant := 0, entries := twPairs }] } }

/-- The engine at node 1 of such a run. -/
def job (w : Word) : State := { withRun (run 0x20 [] (List.replicate 8 7)) with engines := [eng w] }

/-! ### Ill-formed commands, one for each check -/

theorem test_wf_tenant_of_a_function : (Instr.functionLevelReset 0 ⟨256, .a⟩).wellFormed = false := by decide
theorem test_wf_die_channel : (Instr.dieSuspended 0 ⟨32, 0⟩).wellFormed = false := by decide
theorem test_wf_die_position : (Instr.dieSuspended 0 ⟨0, 16⟩).wellFormed = false := by decide
theorem test_wf_endpoint : (Instr.sessionTimeout 0 (.mctp 3 0 8)).wellFormed = false := by decide
theorem test_wf_field_width : (Instr.firnEpochGo 0 fA 65536 0).wellFormed = false := by decide
theorem test_wf_slot : (Instr.flush 0 8192).wellFormed = false := by decide
theorem test_wf_engine : (Instr.add 72 ⟨1, 2, 3, 0⟩).wellFormed = false := by decide
theorem test_wf_index : (Instr.cipherUnit 0 4).wellFormed = false := by decide
theorem test_wf_party : (Instr.ownershipReclaim 0 (.sieve 16)).wellFormed = false := by decide
theorem test_wf_strap : (Instr.pwrgdRise 0 4 0).wellFormed = false := by decide
theorem test_wf_request : (Instr.planRead 0 { dev 0 with tag := 65536 }).wellFormed = false := by decide
theorem test_wf_entry : (Instr.commandFetch 0 (sq 1 (.read 0 65536 false))).wellFormed = false := by decide
theorem test_wf_accepts : (Instr.flush 0 8191).wellFormed = true ∧ (Instr.add 71 ⟨1, 2, 3, 0⟩).wellFormed = true ∧
    (Instr.commandFetch 0 (sq 1 (.read 0 65535 false))).wellFormed = true := by decide

/-! ### The spec's worked examples -/

/-- Table 7.15: the words of the filter loop. -/
theorem test_filter_words :
    encL ⟨4, 8, 0⟩ = 0xB1000800 ∧ encR 0x1B 0 ⟨0, 0, 0, 0⟩ = 0x6C000000 ∧ encR 0x0C 2 ⟨1, 0, 0, 0⟩ = 0x30400200 ∧
      encL ⟨2, 1, 0⟩ = 0xB0800100 ∧ encD ⟨0, 0, 0, 1, 1, 0, 1, 1, 0⟩ = 0x68145000 ∧ encI 0x0D ⟨0, 0, 2⟩ = 0x34000002 ∧
      encI 0x0D ⟨4, 4, -32⟩ = 0x3513FFE0 ∧ encI 0x1D ⟨3, 0, 0x14F⟩ = 0x74C0014F ∧
      encM 0x11 ⟨3, 6, 0, 1, 0, 0⟩ = 0x44D82000 := by decide

/-- Table 7.16: a DMAC issued in cycle s + 18 lands in s + 22, and in product mode the ACCRD behind it issues in s + 22. -/
theorem test_filter_timing :
    issueCycle { eng 0 with cycle := 21, flight := [{ lands := 22, reg := .acc 0, value := 1, add := true }] }
      [.d 3, .acc 0] none false = 22 := by decide +kernel

/-- Table 2.14: the windows of the kiln's plan, and its guard of 32 µs. -/
def kiln : Plan :=
  { Plan.blank with source := 1, periodNs := 2000000, windows := [⟨0, .still⟩, ⟨1024, .work⟩, ⟨3584, .maint⟩] }
theorem test_kiln_plan : kiln.windowNs 0 = 500000 ∧ kiln.windowNs 1 = 1250000 ∧ kiln.windowNs 2 = 250000 ∧
    phaseSteps kiln 32000 = 66 := by decide +kernel

/-- Table 8.14: the alarm-review sieve takes the values below 0.0 and above 1.0, and no NaN. -/
def review : List Byte :=
  le 2 0x10 ++ [2, 0, 1, 0x10] ++ zeros 10 ++ (le 2 8 ++ [9, 3] ++ zeros 20) ++
    (le 2 8 ++ [9, 5] ++ zeros 4 ++ le 8 0x3F800000 ++ zeros 8) ++ zeros 144 ++ ([2, 0x00, 0x01] ++ zeros 29)
def sample (n v : Nat) : List Byte := le 4 n ++ zeros 4 ++ le 4 v ++ zeros 4
theorem test_review_sieve :
    sieveAnswers review (sample 1 0x3F800000 ++ sample 2 0x3FC00000 ++ sample 3 0x7FC00000 ++ sample 4 0xBF000000) =
      [sample 2 0x3FC00000 ++ sample 4 0xBF000000] := by decide +kernel

/-! ### Single operations -/

/-- Binary32 (R290 to R292): 1 + 2, 1.5 × 2, a NaN, a conversion that saturates. -/
theorem test_floats : fadd 0x3F800000 0x40000000 = 0x40400000 ∧ fmul 0x3FC00000 0x40000000 = 0x40400000 ∧
    fadd 0x7F800000 0xFF800000 = 0x7FC00000 ∧ ftoi false 0xBFC00000 = 0xFFFFFFFF ∧ itof 3 = 0x40400000 := by decide +kernel

/-- A comparison of 7 with 7 gives Z and no borrow, of 1 with 2 a borrow, of the least with 1 an overflow (R289). -/
theorem test_compare : cmpFlags 7 7 = flagsOf false true true false ∧ cmpFlags 1 2 = flagsOf true false false false ∧
    cmpFlags 0x80000000 1 = flagsOf false false true true := by decide +kernel

/-- A write of zero leaves no cell, and a later write stands first in address order. -/
theorem test_memory : Memory.write 4 0 (Memory.write 4 9 []) = [] ∧
    Memory.write 2 1 (Memory.write 4 9 []) = [(2, 1), (4, 9)] := by decide

/-! ### Single steps -/

/-- A fact of the state that a command answers. -/
def after (c : Instr) (s : State) (f : State → Bool) : Bool := match exec c s with
  | .next u => f u
  | _ => false

/-- ADD D1, D2, D3 wraps modulo 2^32, and D1 holds the sum a cycle later. -/
theorem test_add : after (.add 0 ⟨1, 2, 3, 0⟩)
    (runs { eng (encR 0x01 0 ⟨1, 2, 3, 0⟩) with d := #v[0, 0, 0xFFFFFFFF, 2, 0, 0, 0, 0, 0, 0, 0, 0, 0, 0, 0, 0] })
    (fun u => (u.engine? 0).map (fun x => (rdD x 1, x.pc, x.cycle)) == some (1, 0x44, 1)) = true := by decide +kernel

/-- A reserved bit traps RESERVED_FIELD, an undefined word ILLEGAL_OP (Table 7.13). -/
theorem test_traps :
    after (.add 0 ⟨1, 2, 3, 1⟩) (job (encR 0x01 0 ⟨1, 2, 3, 1⟩)) 
      (fun u => (u.engine? 0).map (·.trap.map (·.1)) == some (some 2)) = true ∧
    after (.undefinedInstruction 0 0xFFFFFFFF) (job 0xFFFFFFFF) 
      (fun u => (u.engine? 0).map (·.trap.map (·.1)) == some (some 1)) = true := by decide +kernel

/-- The empty stream of Table 8.1 ends with no byte, and its zlib form carries Adler-32 1. -/
theorem test_felt_empty : inflate [0x03, 0x00] = ([], .ended, []) ∧
    packSent [2, 0, 16] [] true = [0x78, 0x01, 0x03, 0x00, 0, 0, 0, 1] ∧
    unzlib [0x78, 0x01, 0x03, 0x00, 0, 0, 0, 2] = ([], .fail 0x14, [0, 0, 0, 2]) := by decide +kernel

/-- A stored length whose NLEN is not its complement, and an LZ4 offset beyond the output (Table 8.2). -/
theorem test_felt_bad : (inflate [0x01, 1, 0, 1, 0, 7]).2.1 = .fail 0x13 ∧
    inflate [0x01, 1, 0, 0xFE, 0xFF, 7] = ([7], .ended, []) ∧ unlz4 true [0x10, 7, 2, 0] = ([7], .fail 0x13, []) ∧
    unlz4 true [0x10, 7, 1, 0, 0x10, 8] = ([7, 7, 7, 7, 7, 8], .ended, []) := by decide +kernel

/-- PFAIL_N stops service and takes the time it landed (R180). -/
theorem test_pfail : after (.pfailAssert 700) on
    (fun u => u.pfail.stopped && u.pins.pfail && u.pfail.landedAt == 700) = true := by
  decide +kernel

/-- A doorbell past its queue's size raises an error event and moves no tail (NVMe). -/
theorem test_doorbell : after (.sqDoorbell 5 fA 0 60000) on (fun u => (u.ctrls.map (·.asq.tail)) == [0]) = true := by
  decide +kernel

/-- A step runs the front command and leaves the rest; with none the device idles. -/
theorem test_step : (match step { on with pending := [.holdupOkChange 5 false, .jtagTapReset 6] } with
    | .next u => u.pending == [.jtagTapReset 6] && !u.pins.holdupOk
    | _ => false) = true := by decide +kernel

/-- No word spells a command. -/
theorem test_no_words : decodeTableWord 8 0 = none ∧ State.reset.withFetchWord 8 0 = State.reset := ⟨rfl, rfl⟩

/-! ### Witnesses: states and operands that meet the hypotheses of each statement, clause by clause -/

theorem witness_StepRunsTheFront :
    (∃ (c : Instr) (rest : List Instr) (s : State), s.pending = c :: rest) ∧ (∃ s : State, s.pending = []) :=
  ⟨⟨.jtagTapReset 5, [], { on with pending := [.jtagTapReset 5] }, rfl⟩, on, rfl⟩

theorem witness_ResetState :
    (∃ c, c ∈ State.reset.ctrls) ∧ (∃ n m : Nat, n ≤ State.reset.fw.minSvn ∧ m &&& State.reset.fw.revoked = m) :=
  ⟨⟨_, .head _⟩, 0, 0, by decide +kernel⟩

theorem witness_CommandsLeaveTheQueue : ∃ (c : Instr) (s u : State), exec c s = .next u :=
  ⟨.jtagTapReset 5, on, _, rfl⟩

theorem witness_RollbackProtectionKept : ∃ (n m : Nat) (s u : State),
    n ≤ s.fw.minSvn ∧ m &&& s.fw.revoked = m ∧ step s = .next u :=
  ⟨3, 2, { on with fw := { on.fw with minSvn := 3, revoked := 6 }, pending := [.jtagTapReset 5] }, _, by decide +kernel,
    by decide +kernel, rfl⟩

theorem witness_FramesOfWork : ∀ g ∈ [Group.queue, .io, .admin, .compute, .unit, .media, .engine],
    ∃ (c : Instr) (s u : State), exec c s = .next u ∧ groupOf c = g := by
  intro g h
  simp only [List.mem_cons, List.not_mem_nil, or_false] at h
  rcases h with rfl | rfl | rfl | rfl | rfl | rfl | rfl
  exacts [⟨.cqDoorbell 5 fA 0 1, on, _, rfl, rfl⟩, ⟨.read 5 3, on, _, rfl, rfl⟩, ⟨.identify 5 8130, on, _, rfl, rfl⟩,
    ⟨.runRelease 5 5, on, _, rfl, rfl⟩, ⟨.sieveChunk 5 0 5 1 0, on, _, rfl, rfl⟩, ⟨.eraseComplete 5 d0 true, on, _, rfl, rfl⟩,
    ⟨.add 0 ⟨1, 2, 3, 0⟩, on, _, rfl, rfl⟩]

theorem witness_FramesOfRequests :
    ∀ g ∈ [Group.change, .tenant, .setting, .key, .mailbox, .view, .memory, .sideband],
    ∃ (c : Instr) (s u : State), exec c s = .next u ∧ groupOf c = g := by
  intro g h
  simp only [List.mem_cons, List.not_mem_nil, or_false] at h
  rcases h with rfl | rfl | rfl | rfl | rfl | rfl | rfl | rfl
  exacts [⟨.fwStatus 5 (dev 0), on, _, rfl, rfl⟩, ⟨.tenantStart 5 (rq 0 1), on, _, rfl, rfl⟩,
    ⟨.setDiscard 5 (dev 0), on, _, rfl, rfl⟩, ⟨.clear 5 (rq 8 1) 0 0, on, _, rfl, rfl⟩, ⟨.nonceLapse 5 mc, on, _, rfl, rfl⟩,
    ⟨.rimeRead 5 (rq 8 0) 0 5, on, _, rfl, rfl⟩, ⟨.scrubPatrol 5 0, on, _, rfl, rfl⟩, ⟨.getVersion 5 mc, on, _, rfl, rfl⟩]

theorem witness_FramesOfDevice : ∀ g ∈ [Group.powerFail, .power, .firn, .beat],
    ∃ (c : Instr) (s u : State), exec c s = .next u ∧ groupOf c = g := by
  intro g h
  simp only [List.mem_cons, List.not_mem_nil, or_false] at h
  rcases h with rfl | rfl | rfl | rfl
  exacts [⟨.pfailAssert 5, on, _, rfl, rfl⟩, ⟨.powerSample 5 1 2, on, _, rfl, rfl⟩, ⟨.beatLoss 5, on, _, rfl, rfl⟩,
    ⟨.windowStart 5 0, on, _, rfl, rfl⟩]

theorem witness_ColmusTiming :
    (∃ (e : Engine) (i lat c : Nat), i < 16 ∧ 1 ≤ lat ∧ e.cycle < c ∧ e.flight.Pairwise (fun a b => a.lands ≤ b.lands) ∧
      (e.flight.all fun f => f.reg != .d i) = true) ∧
    (∃ (x : Engine) (regs : List Reg) (barrier : Bool) (f : Flight), x.flight.Pairwise (fun a b => a.lands ≤ b.lands) ∧
      f ∈ x.flight ∧ (barrier = true ∨ (x.openMode = false ∧ f.reg ∈ regs ∧ f.reg ≠ .ph ∧ f.reg ≠ .pl))) ∧
    (∃ (x : Engine) (barrier : Bool), x.flight.Pairwise (fun a b => a.lands ≤ b.lands) ∧ x.openMode = true ∧
      barrier = false) :=
  ⟨⟨eng 0, 3, 2, 9, by decide +kernel⟩,
    ⟨{ eng 0 with flight := [{ lands := 3, reg := .d 1, value := 5 }] }, [.d 1], false, _, by decide +kernel, .head _,
      by decide +kernel⟩,
    { eng 0 with openMode := true }, false, by decide +kernel⟩

theorem witness_PowerAndHoldupComplete :
    (∃ (t : Tick) (s : State), s.boot.life = .running ∧ s.pfail.stopped = false ∧ s.power.entering = none ∧
      s.power.exiting = none ∧ s.power.regFault = false ∧ s.fw.pauseSince = none ∧ hasStill s = true ∧
      1 ≤ s.power.ps ∧ powerDue (s.arrive t) = true) ∧
    (∃ (t : Tick) (s : State), s.boot.life = .running ∧ s.pfail.stopped = false ∧ s.power.entering = none ∧
      s.power.exiting = none ∧ s.power.regFault = false ∧ s.fw.pauseSince = none ∧ s.fw.handover = none ∧
      hasStill s = false ∧ s.power.ps = 0 ∧ psDemand s = 2 ∧ powerDue (s.arrive t) = true) ∧
    (∃ (n : Nat) (s : State), s.power.entering = some (n, false) ∧ psPrepared s n = true) ∧
    (∃ (n : Nat) (s : State), s.power.entering = some (n, false) ∧ psPrepared s n = false) ∧
    (∃ (n : Nat) (s : State), s.power.entering = some (n, true) ∧ s.power.avs = none) ∧
    (∃ (t : Tick) (level : Nat) (d : Tick) (tries : Nat) (s : State), s.power.avs = some (level, d, tries) ∧
      max s.now t ≤ d) ∧
    (∃ (t : Tick) (level : Nat) (d : Tick) (tries : Nat) (s : State), s.power.avs = some (level, d, tries) ∧
      d ≤ max s.now t ∧ (s.pending.all (fun c => (ackEvent c).isNone) = true)) ∧
    (∃ (t : Tick) (s : State), s.power.regFault = true ∧ s.power.avs = none ∧
      s.power.regTried + 500000000 ≤ max s.now t) ∧
    (∃ (s : State), s.boot.life = .running ∧ s.rime.ring.length < 4096) ∧
    (∃ (s : State), s.pins.pwrgd = true) ∧
    (∃ (b : Bool) (s : State), s.pins.holdupOk ≠ b) ∧
    (∃ (t a : Tick) (s : State), s.holdup.okSince = some a ∧ s.pins.pwrgd = true ∧ a + 500000000 ≤ max s.now t ∧
      (s.pending.all (fun c => (holdupFall c).isNone) = true)) ∧
    (∃ (t : Tick) (p : Nat) (s : State), s.holdup.passedAt = some p ∧
      (s.arrive t).rime.opTicks - p > 26 * ticksPerHour) ∧
    (∃ (t : Tick) (s : State), s.boot.life = .running ∧ holdupDueNow (s.arrive t) = true ∧ s.holdup.testStep = 0) ∧
    (∃ (t : Tick) (d : Tick) (k : Nat) (b : BoardDesc) (s : State), s.power.pmbus = some (d, k) ∧ max s.now t ≤ d ∧
      s.power.pmbusUse = 3 ∧ s.holdup.desc = some b) ∧
    (∃ (t d : Tick) (k : Nat) (s : State), s.power.pmbus = some (d, k) ∧ d ≤ max s.now t ∧
      (s.pending.all (fun c => (pmbusEvent c).isNone) = true)) ∧
    (∃ (s : State), s.holdup.testStep = 8) :=
  ⟨⟨5, { on with power := { on.power with ps := 2 }, nss := [{ nsOne with still := true }] }, by decide +kernel⟩,
    ⟨5, { on with ctrls := [{ ctl with votePs := 2 }] }, by decide +kernel⟩,
    ⟨4, { on with power := { on.power with entering := some (4, false) } }, by decide +kernel⟩,
    ⟨4,
      { on with power := { on.power with entering := some (4, false) }, rime := { on.rime with flushing := some 0 } },
      by decide +kernel⟩,
    ⟨4, { on with power := { on.power with entering := some (4, true) } }, by decide +kernel⟩,
    ⟨5, 700, 9, 1, { on with power := { on.power with avs := some (700, 9, 1) } }, by decide +kernel⟩,
    ⟨9, 700, 9, 1, { on with power := { on.power with avs := some (700, 9, 1) } }, by decide +kernel⟩,
    ⟨500000000, { on with power := { on.power with regFault := true } }, by decide +kernel⟩,
    ⟨on, by decide +kernel⟩,
    ⟨on, by decide +kernel⟩,
    ⟨false, on, by decide +kernel⟩,
    ⟨500000000, 0, { on with holdup := { on.holdup with okSince := some 0 } }, by decide +kernel⟩,
    ⟨5, 0,
      { on with
        holdup := { on.holdup with passedAt := some 0 },
        rime := { on.rime with opTicks := 27 * ticksPerHour } }, by decide +kernel⟩,
    ⟨5,
      { on with
        boot := { on.boot with life := .running },
        holdup := { on.holdup with desc := some ⟨1, 64, 0, 0, 0, 0, 0, 0, 0⟩ } }, by decide +kernel⟩,
    ⟨5, 9, 1, ⟨1, 0, 0, 0, 0, 0, 0, 0, 0⟩,
      { on with
        power := { on.power with pmbus := some (9, 1), pmbusUse := 3 },
        holdup := { on.holdup with desc := some ⟨1, 0, 0, 0, 0, 0, 0, 0, 0⟩ } }, by decide +kernel⟩,
    ⟨9, 9, 1, { on with power := { on.power with pmbus := some (9, 1), pmbusUse := 3 } }, by decide +kernel⟩,
    ⟨{ on with holdup := { on.holdup with testStep := 8 } }, by decide +kernel⟩⟩

theorem witness_PowerFailComplete :
    (∃ (s : State), s.pins.pfail = false ∧ s.pins.pwrgd = true ∧ s.boot.life = .running ∧ s.moraine.fatal = none ∧
      s.pfail.stopped = false) ∧
    (∃ (s : State), s.pins.pfail = true) ∧
    (∃ (t a : Tick) (s : State), s.pfail.deassertedAt = some a ∧ s.pins.pfail = false ∧ a + 5000000 ≤ max s.now t ∧
      (s.pending.all (fun c => (pfailEvent c).isNone) = true)) ∧
    (∃ (d : DieId) (s : State), (s.die d).resetting = true ∧ s.pfail.step = 1) ∧
    (∃ (s : State), s.rime.flushing.isSome = true ∧ s.pins.pwrgd = true) ∧
    (∃ (t : Tick) (m : Nat) (s : State), s.power.exiting = some m ∧ s.power.avs = none ∧
      rateBlocked (s.arrive t) m = false ∧ s.pfail.stopped = false) ∧
    (∃ (t h : Tick) (s : State), s.power.hotSince = some h ∧ h + 500000 ≤ max s.now t ∧ s.boot.life = .running ∧
      (s.pending.all (fun c => (coolEvent c).isNone) = true)) ∧
    (∃ (t d : Tick) (s : State), s.pins.led1Until = some d ∧ d ≤ max s.now t) :=
  ⟨⟨on, by decide +kernel⟩,
    ⟨{ on with pins := { on.pins with pfail := true } }, by decide +kernel⟩,
    ⟨5000000, 0, { on with pfail := { on.pfail with deassertedAt := some 0, step := 7 } }, by decide +kernel⟩,
    ⟨⟨0, 0⟩,
      { on with
        pfail := { on.pfail with step := 1 },
        media := { on.media with dies := [{ id := ⟨0, 0⟩, resetting := true }] } }, by decide +kernel⟩,
    ⟨{ on with rime := { on.rime with flushing := some 0 } }, by decide +kernel⟩,
    ⟨5, 0, { on with power := { on.power with ps := 2, exiting := some 0 } }, by decide +kernel⟩,
    ⟨500000, 0, { on with power := { on.power with hotSince := some 0 } }, by decide +kernel⟩,
    ⟨5, 5, { on with pins := { on.pins with led1Until := some 5 } }, by decide +kernel⟩⟩

theorem witness_StartComplete :
    (∃ (s : State), s.pins.pwrgd = true ∧ s.boot.life ≠ .latched) ∧
    (∃ (s : State), s.pins.pwrgd = false) ∧
    (∃ (t : Tick) (s : State), s.pins.pwrgd = true ∧ s.boot.life ≠ .latched ∧ s.pins.drivenEarly = false ∧
      s.boot.landedAt + 50000 ≤ max s.now t) ∧
    (∃ (t : Tick) (s : State), s.pins.pwrgd = true ∧ s.boot.life ≠ .latched ∧ s.pins.drivenEarly = true ∧
      s.boot.landedAt + 250000 ≤ max s.now t) ∧
    (∃ (s : State), s.boot.life = .starting ∧ s.boot.stage = 0 ∧ (fwSlot s s.fw.active).isSome = true) ∧
    (∃ (s : State), s.boot.life = .starting ∧ s.boot.stage = 1 ∧ startFree s = true) ∧
    (∃ (s : State), s.boot.life = .starting ∧ s.boot.stage = 2 ∧ startFree s = true) ∧
    (∃ (s : State), s.boot.life = .starting ∧ s.boot.stage = 3 ∧ startFree s = true) ∧
    (∃ (s : State), s.boot.life = .starting ∧ s.boot.stage = 4 ∧ startFree s = true) ∧
    (∃ (s : State), s.boot.life = .starting ∧ s.boot.stage = 5 ∧ s.boot.dirty = true ∧ startFree s = true) ∧
    (∃ (s : State), s.boot.life = .starting ∧ startFree s = true ∧ (s.boot.stage = (if s.boot.dirty then 6 else 5))) :=
  ⟨⟨on, by decide +kernel⟩,
    ⟨State.reset, by decide +kernel⟩,
    ⟨50000, on, by decide +kernel⟩,
    ⟨250000, { on with pins := { on.pins with drivenEarly := true } }, by decide +kernel⟩,
    ⟨{ on with boot := { life := .starting } }, by decide +kernel⟩,
    ⟨{ on with boot := { life := .starting, stage := 1 } }, by decide +kernel⟩,
    ⟨{ on with boot := { life := .starting, stage := 2 } }, by decide +kernel⟩,
    ⟨{ on with boot := { life := .starting, stage := 3 } }, by decide +kernel⟩,
    ⟨{ on with boot := { life := .starting, stage := 4 } }, by decide +kernel⟩,
    ⟨{ on with boot := { life := .starting, stage := 5, dirty := true } }, by decide +kernel⟩,
    ⟨{ on with boot := { life := .starting, stage := 5 } }, by decide +kernel⟩⟩

theorem witness_BeatComplete :
    (∃ (q : Rq) (d : BoardDesc) (rest : List NorJob) (s : State), s.pins.pwrgd = true ∧ s.boot.life = .running ∧
      s.moraine.fatal = none ∧ s.pfail.stopped = false ∧ s.boot.nor = .desc q d 0 :: rest) ∧
    (∃ (q : Rq) (d : BoardDesc) (rest : List NorJob) (s : State), s.pins.pwrgd = true ∧ s.boot.life = .running ∧
      s.moraine.fatal = none ∧ s.pfail.stopped = false ∧ s.boot.nor = .desc q d 1 :: rest) ∧
    (∃ (s : State), s.serving = true ∧ s.fw.pauseSince = none ∧ shutdownAsked s = true ∧ s.boot.restore = false) ∧
    (∃ (s : State), s.serving = true ∧ s.settings.bankedAt = none ∧ s.settings.journalled ≠ [] ∧
      s.settings.commit = none ∧ s.settings.commitQueue = []) ∧
    (∃ (t : Tick) (i : Nat) (w : Window) (s : State), (s.firn.plan.windows[i]? = some w ∧ s.firn.started = true) ∧
      atSuspendPoint (s.arrive t) w = true) ∧
    (∃ (d : DieId) (a : Tick) (o : DieOp) (s : State), (s.die d).suspendAsked = some a ∧ (s.die d).op = some o) ∧
    (∃ (t : Nat) (d : DieId) (a : Nat) (s : State), ((s.die d).suspendAsked = some a) ∧
      (a + suspendLimit ≤ max s.now t) ∧ (s.pending.all (fun c => (suspendEvent d c).isNone) = true)) ∧
    (∃ (t d : Tick) (s : State), s.firn.tailUntil = some d ∧ d ≤ max s.now t) ∧
    (∃ (t : Tick) (i : Nat) (s : State), windowDue (s.arrive t) i = true) ∧
    (∃ (t : Tick) (s : State), boundaryDue (s.arrive t) = true) ∧
    (∃ (t : Tick) (task beat : Nat) (s : State), s.serving = true ∧ s.firn.started = true ∧ s.firn.ovrPend = none ∧
      s.firn.ovr = none ∧ s.firn.beat.toNat + 64 ≤ beat ∧ s.firn.ovrLast = none ∧
      overrideTask (s.arrive t) task = true ∧ s.rime.ring.length < 4096) ∧
    (∃ (task : Nat) (d : Tick) (s : State), s.firn.ovr = some (task, d) ∧ s.rime.ring.length < 4096) :=
  ⟨⟨dev 32, ⟨1, 64, 0, 0, 0, 0, 0, 0, 0⟩, [],
      { on with boot := { on.boot with nor := [.desc (dev 32) ⟨1, 64, 0, 0, 0, 0, 0, 0, 0⟩ 0] } }, by decide +kernel⟩,
    ⟨dev 32, ⟨1, 64, 0, 0, 0, 0, 0, 0, 0⟩, [],
      { on with boot := { on.boot with nor := [.desc (dev 32) ⟨1, 64, 0, 0, 0, 0, 0, 0, 0⟩ 1] } }, by decide +kernel⟩,
    ⟨{ on with boot := { on.boot with shutdownRq := some (dev 0) } }, by decide +kernel⟩,
    ⟨{ on with settings := { on.settings with journalled := [(0, .telemMask 1)] } }, by decide +kernel⟩,
    ⟨5, 1, ⟨1, .still⟩, suspending, by decide +kernel, suspending_due⟩,
    ⟨⟨0, 0⟩, 0, .erase 3,
      { on with media := { on.media with dies := [{ id := ⟨0, 0⟩, op := some (.erase 3), suspendAsked := some 0 }] } },
      by decide +kernel⟩,
    ⟨suspendLimit, ⟨0, 0⟩, 0,
      { on with media := { on.media with dies := [{ id := ⟨0, 0⟩, op := some (.erase 3), suspendAsked := some 0 }] } },
      by decide +kernel, by simp, by decide +kernel⟩,
    ⟨5, 5, { on with firn := { on.firn with tailUntil := some 5 } }, by decide +kernel⟩,
    ⟨5, 1, { on with firn := { on.firn with acc := 0xFFFFFFFFFFFF } }, by decide +kernel⟩,
    ⟨5, { on with firn := { on.firn with owed := 1 } }, by decide +kernel⟩,
    ⟨5, 1, 64, { on with firn := { on.firn with ovrDue := [(1, 0)] } }, by decide +kernel⟩,
    ⟨1, 9, { on with firn := { on.firn with ovr := some (1, 9) } }, by decide +kernel⟩⟩

theorem witness_FirnComplete :
    (∃ (b : Bool) (held : Nat) (s : State), s.firn.started = true ∧ s.firn.plan.source = 1 ∧
      b = s.firn.plan.fallingEdge ∧ s.firn.plan.cycinFilter ≤ held) ∧
    (∃ (t first : Tick) (b : Bool) (s : State), s.firn.started = true ∧ s.firn.plan.source = 1 ∧
      b = s.firn.plan.fallingEdge ∧ s.firn.lastEdge ≠ some first ∧ first + s.firn.plan.cycinFilter ≤ t) ∧
    (∃ (t d : Tick) (s : State), s.firn.lossAt = some d ∧ s.firn.started = true ∧ d ≤ max s.now t ∧
      (s.pending.all (fun c => (edgeEvent s c).isNone && (filterEvent s c).isNone) = true)) ∧
    (∃ (s : State), s.firn.started = true ∧ s.firn.lock = .holdover ∧ s.firn.holdLeft = 0) ∧
    (∃ (t : Tick) (f : Fn) (count : Nat) (s : State), hostReaches s f = true ∧ (s.ctrl? f).isSome = true ∧
      epochFunction s f = true ∧ 1 ≤ count ∧
      (ptmNow (s.arrive t) f.port + 10000 ≤ ((s.ctrl? f).map fun c => c.epochLo.toNat + 2 ^ 32 * c.epochHi.toNat).getD
        0) ∧ seriesHeld s < 2 ∧ (((s.link f.port).ptmUntil.map fun d => decide (max s.now t ≤ d)) = some true)) ∧
    (∃ (t : Tick) (ser : Series) (s : State), s.firn.active = some ser ∧ s.firn.started = true ∧
      s.firn.plan.source = 2 ∧ seriesReached (s.arrive t) ser = true) ∧
    (∃ (t : Tick) (q : Series) (s : State), s.firn.queued = some q ∧ seriesReached (s.arrive t) q = true) ∧
    (∃ (s : State), s.firn.plan.source = 2) ∧
    (∃ (t : Tick) (p : Port) (d : Tick) (s : State), (s.link p).ptmUntil = some d ∧ d ≤ max s.now t ∧
      (s.pending.all (fun c => (ptmEvent p c).isNone) = true)) ∧
    (∃ (f : Fn) (s : State), hostReaches s f = true) :=
  ⟨⟨false, 0, { on with firn := { on.firn with plan := { Plan.blank with source := 1 } } }, by decide +kernel⟩,
    ⟨5, 3, false, { on with firn := { on.firn with plan := { Plan.blank with source := 1 } } }, by decide +kernel⟩,
    ⟨5, 5, { on with firn := { on.firn with lossAt := some 5, lock := .locked } }, by decide +kernel⟩,
    ⟨{ on with firn := { on.firn with lock := .holdover } }, by decide +kernel⟩,
    ⟨5, fA, 1,
      { on with
        firn := { on.firn with plan := { Plan.blank with source := 2 } },
        ctrls := [{ ctl with epochLo := 20000 }],
        linkA := { on.linkA with ptmUntil := some 9 } }, by decide +kernel⟩,
    ⟨5, ⟨0, 1, .a⟩,
      { on with
        firn := { on.firn with plan := { Plan.blank with source := 2 }, active := some ⟨0, 1, .a⟩ },
        linkA := { on.linkA with ptmUntil := some 9 } }, by decide +kernel⟩,
    ⟨5, ⟨0, 1, .a⟩,
      { on with firn := { on.firn with queued := some ⟨0, 1, .a⟩ }, linkA := { on.linkA with ptmUntil := some 9 } },
      by decide +kernel⟩,
    ⟨{ on with firn := { on.firn with plan := { Plan.blank with source := 2 } } }, by decide +kernel⟩,
    ⟨5, .a, 5, { on with linkA := { on.linkA with ptmUntil := some 5 } }, by decide +kernel⟩,
    ⟨fA, on, by decide +kernel⟩⟩

theorem witness_ColmusIntegerResults :
    (∃ r ∈ ([(.add, 0x00, fun x y => x + y), (.sub, 0x01, fun x y => x - y), (.and, 0x02, fun x y => x &&& y), (.or,
        0x03, fun x y => x ||| y), (.xor, 0x04, fun x y => x ^^^ y), (.andn, 0x05, fun x y => x &&& ~~~y), (.shl,
        0x06, fun x y => x <<< (y.toNat % 256)), (.shr, 0x07, fun x y => x >>> (y.toNat % 256)), (.sar, 0x08, fun x y
        => x.sshiftRight (y.toNat % 256)), (.ror, 0x09, fun x y => x.rotateRight (y.toNat % 32)), (.min, 0x0A, fun x y
        => if x.toInt ≤ y.toInt then x else y), (.max, 0x0B, fun x y => if x.toInt ≤ y.toInt then y else x), (.minu,
        0x0C, fun x y => if x.toNat ≤ y.toNat then x else y), (.maxu, 0x0D, fun x y => if x.toNat ≤ y.toNat then y
        else x)] : List ((Nat → RFmt → Instr) × Nat × (Word → Word → Word))), ∃ (p : Nat) (f : RFmt), (f.rsv = 0) ∧
      ∃ x, StandsAt (runs (eng (encR 0x01 r.2.1 f))) p x (encR 0x01 r.2.1 f)) ∧
    (∃ r ∈ ([(.abs, 0x0E, fun x => BitVec.ofInt 32 x.toInt.natAbs), (.sexth, 0x0F, fun x => (x.setWidth 16).signExtend
        32), (.sextb, 0x10, fun x => (x.setWidth 8).signExtend 32), (.zexth, 0x11, fun x => x &&& 0xFFFF), (.zextb,
        0x12, fun x => x &&& 0xFF), (.mov, 0x13, fun x => x), (.clz, 0x14, clz), (.popc, 0x15, popc)] : List ((Nat →
        RFmt → Instr) × Nat × (Word → Word))), ∃ (p : Nat) (f : RFmt), (f.rsv = 0 ∧ f.t = 0) ∧
      ∃ x, StandsAt (runs (eng (encR 0x01 r.2.1 f))) p x (encR 0x01 r.2.1 f)) ∧
    (∃ r ∈ ([(.addi, 0x02, fun x i => x + i.signExtend 32), (.andi, 0x03, fun x i => x &&& i.setWidth 32), (.ori,
        0x04, fun x i => x ||| i.setWidth 32), (.xori, 0x05, fun x i => x ^^^ i.setWidth 32)] : List ((Nat → IFmt →
        Instr) × Nat × (Word → BitVec 18 → Word))), ∃ (p : Nat) (f : IFmt),
      ∃ x, StandsAt (runs (eng (encI r.2.1 f))) p x (encI r.2.1 f)) ∧
    (∃ (p : Nat) (f : IFmt), (f.imm.toNat < 128) ∧ ∃ x, StandsAt (runs (eng (encI 0x06 f))) p x (encI 0x06 f)) ∧
    (∃ (p : Nat) (f : WFmt), ∃ x, StandsAt (runs (eng (encW 0x07 f))) p x (encW 0x07 f)) ∧
    (∃ (p : Nat) (f : WFmt), (f.imm.toNat < 65536) ∧ ∃ x, StandsAt (runs (eng (encW 0x08 f))) p x (encW 0x08 f)) :=
  ⟨⟨_, .head _, 0, ⟨1, 2, 3, 0⟩, by decide +kernel, _, rfl, by decide +kernel, by decide +kernel⟩,
    ⟨_, .head _, 0, ⟨1, 2, 0, 0⟩, by decide +kernel, _, rfl, by decide +kernel, by decide +kernel⟩,
    ⟨_, .head _, 0, ⟨1, 2, 0x3FFF5⟩, _, rfl, by decide +kernel, by decide +kernel⟩,
    ⟨0, ⟨1, 2, 5⟩, by decide +kernel, _, rfl, by decide +kernel, by decide +kernel⟩,
    ⟨0, ⟨1, 0x3FFFF1⟩, _, rfl, by decide +kernel, by decide +kernel⟩,
    ⟨0, ⟨1, 0xFFF1⟩, by decide +kernel, _, rfl, by decide +kernel, by decide +kernel⟩⟩

theorem witness_ColmusFlagsAndAddresses :
    (∃ r ∈ ([(.cmp, 0x09, 0, cmpFlags), (.tst, 0x09, 1, fun x y => tstFlags (x &&& y)), (.fcmp, 0x21, 0, fun x y =>
        fcmpFlags (fOrder x y))] : List ((Nat → RFmt → Instr) × Nat × Nat × (Word → Word → BitVec 72))),
      ∃ (p : Nat) (f : RFmt), (f.rsv = 0 ∧ f.d = 0) ∧
      ∃ x, StandsAt (runs (eng (encR r.2.1 r.2.2.1 f))) p x (encR r.2.1 r.2.2.1 f)) ∧
    (∃ (p : Nat) (f : RFmt), (f.rsv = 0 ∧ f.d = 0 ∧ f.t = 0) ∧
      ∃ x, StandsAt (runs (eng (encR 0x21 1 f))) p x (encR 0x21 1 f)) ∧
    (∃ (p : Nat) (f : IFmt), (f.d = 0) ∧ ∃ x, StandsAt (runs (eng (encI 0x0A f))) p x (encI 0x0A f)) ∧
    (∃ (p : Nat) (f : IFmt), (f.d = 0) ∧ ∃ x, StandsAt (runs (eng (encI 0x0B f))) p x (encI 0x0B f)) ∧
    (∃ (p : Nat) (f : RFmt), (f.rsv = 0) ∧ ∃ x, StandsAt (runs (eng (encR 0x0C 0 f))) p x (encR 0x0C 0 f)) ∧
    (∃ (p : Nat) (f : RFmt), (f.rsv = 0) ∧ ∃ x, StandsAt (runs (eng (encR 0x0C 1 f))) p x (encR 0x0C 1 f)) ∧
    (∃ (p : Nat) (f : RFmt), (f.rsv = 0 ∧ f.t = 0) ∧ ∃ x, StandsAt (runs (eng (encR 0x0C 2 f))) p x (encR 0x0C 2 f)) ∧
    (∃ (p : Nat) (f : RFmt), (f.rsv = 0 ∧ f.t = 0) ∧ ∃ x, StandsAt (runs (eng (encR 0x0C 3 f))) p x (encR 0x0C 3 f)) ∧
    (∃ (p : Nat) (f : RFmt), (f.rsv = 0 ∧ f.t = 0) ∧ ∃ x, StandsAt (runs (eng (encR 0x0C 4 f))) p x (encR 0x0C 4 f)) ∧
    (∃ (p : Nat) (f : RFmt), (f.rsv = 0 ∧ f.d = 0) ∧ ∃ x, StandsAt (runs (eng (encR 0x0C 5 f))) p x (encR 0x0C 5 f)) ∧
    (∃ (p : Nat) (f : IFmt), ∃ x, StandsAt (runs (eng (encI 0x0D f))) p x (encI 0x0D f)) ∧
    (∃ (p : Nat) (f : WFmt), ∃ x, StandsAt (runs (eng (encW 0x0E f))) p x (encW 0x0E f)) ∧
    (∃ (p : Nat) (f : WFmt), (f.imm.toNat < 65536) ∧ ∃ x, StandsAt (runs (eng (encW 0x0F f))) p x (encW 0x0F f)) :=
  ⟨⟨_, .head _, 0, ⟨0, 2, 3, 0⟩, by decide +kernel, _, rfl, by decide +kernel, by decide +kernel⟩,
    ⟨0, ⟨0, 2, 0, 0⟩, by decide +kernel, _, rfl, by decide +kernel, by decide +kernel⟩,
    ⟨0, ⟨0, 2, 0x3FFF0⟩, by decide +kernel, _, rfl, by decide +kernel, by decide +kernel⟩,
    ⟨0, ⟨0, 2, 0x3FFF0⟩, by decide +kernel, _, rfl, by decide +kernel, by decide +kernel⟩,
    ⟨0, ⟨1, 2, 3, 0⟩, by decide +kernel, _, rfl, by decide +kernel, by decide +kernel⟩,
    ⟨0, ⟨1, 2, 3, 0⟩, by decide +kernel, _, rfl, by decide +kernel, by decide +kernel⟩,
    ⟨0, ⟨1, 2, 0, 0⟩, by decide +kernel, _, rfl, by decide +kernel, by decide +kernel⟩,
    ⟨0, ⟨1, 2, 0, 0⟩, by decide +kernel, _, rfl, by decide +kernel, by decide +kernel⟩,
    ⟨0, ⟨1, 2, 0, 0⟩, by decide +kernel, _, rfl, by decide +kernel, by decide +kernel⟩,
    ⟨0, ⟨0, 2, 3, 0⟩, by decide +kernel, _, rfl, by decide +kernel, by decide +kernel⟩,
    ⟨0, ⟨1, 2, 0x3FFF0⟩, _, rfl, by decide +kernel, by decide +kernel⟩,
    ⟨0, ⟨1, 0x3FFF0⟩, _, rfl, by decide +kernel, by decide +kernel⟩,
    ⟨0, ⟨1, 0xFFF0⟩, by decide +kernel, _, rfl, by decide +kernel, by decide +kernel⟩⟩

theorem witness_ColmusMultiplyResults :
    (∃ r ∈ ([(.muls, 0, fun x y => x.signExtend 64 * y.signExtend 64), (.mulu, 1, fun x y => x.setWidth 64 *
        y.setWidth 64)] : List ((Nat → RFmt → Instr) × Nat × (Word → Word → BitVec 64))), ∃ (p : Nat) (f : RFmt),
      (f.rsv = 0 ∧ f.d = 0) ∧ ∃ x, StandsAt (runs (eng (encR 0x18 r.2.1 f))) p x (encR 0x18 r.2.1 f)) ∧
    (∃ r ∈ ([(.macs, 0, fun x y => BitVec.ofInt 72 (x.toInt * y.toInt)), (.macu, 1, fun x y => BitVec.ofNat 72
        (x.toNat * y.toNat)), (.msus, 2, fun x y => BitVec.ofInt 72 (-(x.toInt * y.toInt))), (.msuu, 3, fun x y =>
        -BitVec.ofNat 72 (x.toNat * y.toNat))] : List ((Nat → RFmt → Instr) × Nat × (Word → Word → BitVec 72))),
      ∃ (p : Nat) (f : RFmt), (f.rsv = 0 ∧ f.d.toNat < 4) ∧
      ∃ x, StandsAt (runs (eng (encR 0x19 r.2.1 f))) p x (encR 0x19 r.2.1 f)) ∧
    (∃ (p : Nat) (f : RFmt), (f.rsv = 0 ∧ f.d.toNat < 4 ∧ f.s = 0 ∧ f.t = 0) ∧
      ∃ x, StandsAt (runs (eng (encR 0x1B 0 f))) p x (encR 0x1B 0 f)) ∧
    (∃ (p : Nat) (f : RFmt), (f.rsv = 0 ∧ f.d.toNat < 4 ∧ f.s = 0 ∧ f.t = 0) ∧
      ∃ x, StandsAt (runs (eng (encR 0x1B 3 f))) p x (encR 0x1B 3 f)) ∧
    (∃ (p : Nat) (f : RFmt), (f.rsv = 0 ∧ f.d.toNat < 4 ∧ f.s = 0 ∧ f.t = 0) ∧
      ∃ x, StandsAt (runs (eng (encR 0x1B 5 f))) p x (encR 0x1B 5 f)) ∧
    (∃ (p : Nat) (f : RFmt), (f.rsv = 0 ∧ f.d.toNat < 4 ∧ f.s.toNat < 4 ∧ f.t = 0) ∧
      ∃ x, StandsAt (runs (eng (encR 0x1B 1 f))) p x (encR 0x1B 1 f)) ∧
    (∃ (p : Nat) (f : RFmt), (f.rsv = 0 ∧ f.d.toNat < 4 ∧ f.s.toNat < 4 ∧ f.t = 0) ∧
      ∃ x, StandsAt (runs (eng (encR 0x1B 2 f))) p x (encR 0x1B 2 f)) ∧
    (∃ (p : Nat) (f : RFmt), (f.rsv = 0 ∧ f.d.toNat < 4 ∧ f.t = 0) ∧
      ∃ x, StandsAt (runs (eng (encR 0x1B 4 f))) p x (encR 0x1B 4 f)) ∧
    (∃ (p : Nat) (f : RFmt), (f.rsv = 0 ∧ f.t = 0 ∧ f.s.toNat < 6) ∧
      ∃ x, StandsAt (runs (eng (encR 0x1C 0 f))) p x (encR 0x1C 0 f)) ∧
    (∃ (p : Nat) (f : RFmt), (f.rsv = 0 ∧ f.t = 0) ∧
      ∃ r ∈ ([(0, .ph), (1, .pl), (2, .flags)] : List (BitVec 4 × Reg)), (f.d = r.1) ∧
      ∃ x, StandsAt (runs (eng (encR 0x1C 1 f))) p x (encR 0x1C 1 f)) :=
  ⟨⟨_, .head _, 0, ⟨0, 2, 3, 0⟩, by decide +kernel, _, rfl, by decide +kernel, by decide +kernel⟩,
    ⟨_, .head _, 0, ⟨3, 2, 3, 0⟩, by decide +kernel, _, rfl, by decide +kernel, by decide +kernel⟩,
    ⟨0, ⟨3, 0, 0, 0⟩, by decide +kernel, _, rfl, by decide +kernel, by decide +kernel⟩,
    ⟨0, ⟨3, 0, 0, 0⟩, by decide +kernel, _, rfl, by decide +kernel, by decide +kernel⟩,
    ⟨0, ⟨3, 0, 0, 0⟩, by decide +kernel, _, rfl, by decide +kernel, by decide +kernel⟩,
    ⟨0, ⟨3, 1, 0, 0⟩, by decide +kernel, _, rfl, by decide +kernel, by decide +kernel⟩,
    ⟨0, ⟨3, 1, 0, 0⟩, by decide +kernel, _, rfl, by decide +kernel, by decide +kernel⟩,
    ⟨0, ⟨3, 9, 0, 0⟩, by decide +kernel, _, rfl, by decide +kernel, by decide +kernel⟩,
    ⟨0, ⟨3, 0, 0, 0⟩, by decide +kernel, _, rfl, by decide +kernel, by decide +kernel⟩,
    ⟨0, ⟨0, 4, 0, 0⟩, by decide +kernel, _, .head _, by decide +kernel, _, rfl, by decide +kernel, by decide +kernel⟩⟩

theorem witness_ColmusAccumulatorRead :
    (∃ (p : Nat) (f : IFmt) (s : State) (x : Engine), StandsAt s p x (encI 0x1D f) ∧
      (4 ≤ f.s.toNat ∨ 512 ≤ f.imm.toNat ∨ f.imm.toNat / 128 % 4 = 3)) ∧
    (∃ (p : Nat) (f : IFmt) (s : State) (x : Engine), StandsAt s p x (encI 0x1D f) ∧ f.s.toNat < 4 ∧
      f.imm.toNat < 512 ∧ f.imm.toNat / 128 < 3) :=
  ⟨⟨0, ⟨1, 4, 0⟩, runs (eng (encI 0x1D ⟨1, 4, 0⟩)), eng (encI 0x1D ⟨1, 4, 0⟩), by decide +kernel⟩,
    ⟨0, ⟨1, 2, 72⟩, runs (eng (encI 0x1D ⟨1, 2, 72⟩)), eng (encI 0x1D ⟨1, 2, 72⟩), by decide +kernel⟩⟩

theorem witness_ColmusFloatResults :
    (∃ r ∈ ([(.fadd, 0, fadd), (.fsub, 1, fsub), (.fmul, 2, fmul), (.fmin, 5, fmin), (.fmax, 6, fmax)] : List ((Nat →
        RFmt → Instr) × Nat × (Word → Word → Word))), ∃ (p : Nat) (f : RFmt), (f.rsv = 0) ∧
      ∃ x, StandsAt (runs (eng (encR 0x20 r.2.1 f))) p x (encR 0x20 r.2.1 f)) ∧
    (∃ r ∈ ([(.fma, 3, fma), (.fms, 4, fms)] : List ((Nat → RFmt → Instr) × Nat × (Word → Word → Word → Word))),
      ∃ (p : Nat) (f : RFmt), (f.rsv = 0) ∧ ∃ x, StandsAt (runs (eng (encR 0x20 r.2.1 f))) p x (encR 0x20 r.2.1 f)) ∧
    (∃ r ∈ ([(.fabs, 0x20, 7, 4, fun x => x &&& 0x7FFFFFFF), (.fneg, 0x20, 8, 4, fun x => x ^^^ 0x80000000), (.ftoi,
        0x22, 0, 2, ftoi false), (.ftoin, 0x22, 1, 2, ftoi true), (.ftou, 0x22, 2, 2, ftou), (.itof, 0x22, 3, 2,
        itof), (.utof, 0x22, 4, 2, utof)] : List ((Nat → RFmt → Instr) × Nat × Nat × Nat × (Word → Word))),
      ∃ (p : Nat) (f : RFmt), (f.rsv = 0 ∧ f.t = 0) ∧
      ∃ x, StandsAt (runs (eng (encR r.2.1 r.2.2.1 f))) p x (encR r.2.1 r.2.2.1 f)) :=
  ⟨⟨_, .head _, 0, ⟨1, 2, 3, 0⟩, by decide +kernel, _, rfl, by decide +kernel, by decide +kernel⟩,
    ⟨_, .head _, 0, ⟨1, 2, 3, 0⟩, by decide +kernel, _, rfl, by decide +kernel, by decide +kernel⟩,
    ⟨_, .head _, 0, ⟨1, 2, 0, 0⟩, by decide +kernel, _, rfl, by decide +kernel, by decide +kernel⟩⟩

theorem witness_ColmusMemoryResults :
    (∃ (p : Nat) (f : MFmt) (s : State) (x : Engine), (StandsAt s p x (encM 0x10 f) ∧
      mReserved f true false = false) ∧
      let e := atIssue x (.d f.r.toNat :: mSources f ++ mBaseDst f) none (isLong s p f)
      let addr := (mAddr e f).toNat
      let n := 2 ^ f.size.toNat
      accessCheck e f.a.toNat addr n = none ∧ addr < 0x40000 ∧ bankBad e addr n = false) ∧
    (∃ (p : Nat) (f : MFmt) (s : State) (x : Engine), (StandsAt s p x (encM 0x10 f) ∧
      mReserved f true false = false) ∧
      let e := atIssue x (.d f.r.toNat :: mSources f ++ mBaseDst f) none (isLong s p f)
      let addr := (mAddr e f).toNat
      let n := 2 ^ f.size.toNat
      (accessCheck e f.a.toNat addr n = none) ∧ ∃ (run : GRun) (node rep : Nat), (0x01000000 ≤ addr ∧
      addr < 0x01400000 ∧ engineRun s e = some (run, node, rep)) ∧
      let off := addr - 0x01000000
      windowOk s e run.tenant off n = true ∧
      s.compute.sramPoison.contains (run.tenant, e.cluster, off / 8 * 8) = false) ∧
    (∃ (p : Nat) (f : MFmt) (s : State) (x : Engine), (StandsAt s p x (encM 0x12 f) ∧ mReserved f true true = false) ∧
      let e := atIssue x (.a f.r.toNat :: mSources f ++ mBaseDst f) none (isLong s p f)
      let addr := (mAddr e f).toNat
      let n := 2 ^ f.size.toNat
      accessCheck e f.a.toNat addr n = none ∧ addr < 0x40000 ∧ bankBad e addr n = false) ∧
    (∃ (p : Nat) (f : MFmt) (s : State) (x : Engine), (StandsAt s p x (encM 0x12 f) ∧ mReserved f true true = false) ∧
      let e := atIssue x (.a f.r.toNat :: mSources f ++ mBaseDst f) none (isLong s p f)
      let addr := (mAddr e f).toNat
      let n := 2 ^ f.size.toNat
      (accessCheck e f.a.toNat addr n = none) ∧ ∃ (run : GRun) (node rep : Nat), (0x01000000 ≤ addr ∧
      addr < 0x01400000 ∧ engineRun s e = some (run, node, rep)) ∧
      let off := addr - 0x01000000
      windowOk s e run.tenant off n = true ∧
      s.compute.sramPoison.contains (run.tenant, e.cluster, off / 8 * 8) = false) ∧
    (∃ (p : Nat) (f : MFmt) (s : State) (x : Engine), (StandsAt s p x (encM 0x11 f) ∧
      mReserved f false false = false) ∧
      let e := atIssue x (.d f.r.toNat :: mSources f ++ mBaseDst f) none (isLong s p f)
      let addr := (mAddr e f).toNat
      let n := 2 ^ f.size.toNat
      accessCheck e f.a.toNat addr n = none ∧ addr < 0x40000) ∧
    (∃ (p : Nat) (f : MFmt) (s : State) (x : Engine), (StandsAt s p x (encM 0x11 f) ∧
      mReserved f false false = false) ∧
      let e := atIssue x (.d f.r.toNat :: mSources f ++ mBaseDst f) none (isLong s p f)
      let addr := (mAddr e f).toNat
      let n := 2 ^ f.size.toNat
      (accessCheck e f.a.toNat addr n = none) ∧ ∃ (run : GRun) (node rep : Nat), (0x01000000 ≤ addr ∧
      addr < 0x01400000 ∧ engineRun s e = some (run, node, rep)) ∧
      let off := addr - 0x01000000
      windowOk s e run.tenant off n = true) ∧
    (∃ (p : Nat) (f : MFmt) (s : State) (x : Engine), (StandsAt s p x (encM 0x13 f) ∧
      mReserved f false true = false) ∧
      let e := atIssue x (.a f.r.toNat :: mSources f ++ mBaseDst f) none (isLong s p f)
      let addr := (mAddr e f).toNat
      let n := 2 ^ f.size.toNat
      accessCheck e f.a.toNat addr n = none ∧ addr < 0x40000) ∧
    (∃ (p : Nat) (f : MFmt) (s : State) (x : Engine), (StandsAt s p x (encM 0x13 f) ∧
      mReserved f false true = false) ∧
      let e := atIssue x (.a f.r.toNat :: mSources f ++ mBaseDst f) none (isLong s p f)
      let addr := (mAddr e f).toNat
      let n := 2 ^ f.size.toNat
      (accessCheck e f.a.toNat addr n = none) ∧ ∃ (run : GRun) (node rep : Nat), (0x01000000 ≤ addr ∧
      addr < 0x01400000 ∧ engineRun s e = some (run, node, rep)) ∧
      let off := addr - 0x01000000
      windowOk s e run.tenant off n = true) ∧
    (∃ (p : Nat) (f : DFmt) (s : State) (x : Engine), (StandsAt s p x (encD f) ∧ f.rsv = 0 ∧ f.size ≠ 3) ∧
      let e := atIssue x ([Reg.a f.ax.toNat, Reg.a (4 + f.ay.toNat)] ++ ((if f.mx == 3 then [Reg.a 8] else []) ++ if
          f.my == 3 then [Reg.a 9] else [])) (some f.acc.toNat) false
      let n := 2 ^ f.size.toNat
      let xa := rdA e f.ax.toNat
      let ya := rdA e (4 + f.ay.toNat)
      xa.toNat % n = 0 ∧ ya.toNat % n = 0 ∧ xa.toNat < 0x20000 ∧ 0x20000 ≤ ya.toNat ∧ ya.toNat < 0x40000 ∧
      bankBad e xa.toNat n = false ∧ bankBad e ya.toNat n = false) :=
  ⟨⟨0, ⟨1, 2, 0, 1, 1, 0x20⟩, runs (eng (encM 0x10 ⟨1, 2, 0, 1, 1, 0x20⟩)), eng (encM 0x10 ⟨1, 2, 0, 1, 1, 0x20⟩),
      by decide +kernel, by decide +kernel⟩,
    ⟨0, ⟨1, 9, 0, 2, 0, 0⟩,
      { job (encM 0x10 ⟨1, 9, 0, 2, 0, 0⟩) with engines := [far (encM 0x10 ⟨1, 9, 0, 2, 0, 0⟩) 0x01000000] },
      far (encM 0x10 ⟨1, 9, 0, 2, 0, 0⟩) 0x01000000, by decide +kernel, by decide +kernel,
      run 0x20 [] (List.replicate 8 7), 1, 0, by decide +kernel, by decide +kernel⟩,
    ⟨0, ⟨1, 2, 3, 2, 0, 3⟩, runs (eng (encM 0x12 ⟨1, 2, 3, 2, 0, 3⟩)), eng (encM 0x12 ⟨1, 2, 3, 2, 0, 3⟩),
      by decide +kernel, by decide +kernel⟩,
    ⟨0, ⟨1, 9, 0, 2, 0, 0⟩,
      { job (encM 0x12 ⟨1, 9, 0, 2, 0, 0⟩) with engines := [far (encM 0x12 ⟨1, 9, 0, 2, 0, 0⟩) 0x01000000] },
      far (encM 0x12 ⟨1, 9, 0, 2, 0, 0⟩) 0x01000000, by decide +kernel, by decide +kernel,
      run 0x20 [] (List.replicate 8 7), 1, 0, by decide +kernel, by decide +kernel⟩,
    ⟨0, ⟨1, 2, 0, 1, 0, 0x20⟩, runs (eng (encM 0x11 ⟨1, 2, 0, 1, 0, 0x20⟩)), eng (encM 0x11 ⟨1, 2, 0, 1, 0, 0x20⟩),
      by decide +kernel, by decide +kernel⟩,
    ⟨0, ⟨1, 9, 0, 2, 0, 4⟩,
      { job (encM 0x11 ⟨1, 9, 0, 2, 0, 4⟩) with engines := [far (encM 0x11 ⟨1, 9, 0, 2, 0, 4⟩) 0x01000000] },
      far (encM 0x11 ⟨1, 9, 0, 2, 0, 4⟩) 0x01000000, by decide +kernel, by decide +kernel,
      run 0x20 [] (List.replicate 8 7), 1, 0, by decide +kernel, by decide +kernel⟩,
    ⟨0, ⟨1, 2, 3, 2, 0, 3⟩, runs (eng (encM 0x13 ⟨1, 2, 3, 2, 0, 3⟩)), eng (encM 0x13 ⟨1, 2, 3, 2, 0, 3⟩),
      by decide +kernel, by decide +kernel⟩,
    ⟨0, ⟨1, 9, 0, 2, 0, 4⟩,
      { job (encM 0x13 ⟨1, 9, 0, 2, 0, 4⟩) with engines := [far (encM 0x13 ⟨1, 9, 0, 2, 0, 4⟩) 0x01000000] },
      far (encM 0x13 ⟨1, 9, 0, 2, 0, 4⟩) 0x01000000, by decide +kernel, by decide +kernel,
      run 0x20 [] (List.replicate 8 7), 1, 0, by decide +kernel, by decide +kernel⟩,
    ⟨0, ⟨1, 0, 0, 1, 2, 1, 1, 1, 0⟩, runs (far5 (encD ⟨1, 0, 0, 1, 2, 1, 1, 1, 0⟩)),
      far5 (encD ⟨1, 0, 0, 1, 2, 1, 1, 1, 0⟩), by decide +kernel, by decide +kernel⟩⟩

theorem witness_ColmusPortResults :
    (∃ (areg : Bool) (p : Nat) (f : MFmt) (s : State) (x : Engine),
      ((StandsAt s p x (encM (if areg then 0x12 else 0x10) f)) ∧ mReserved f true areg = false) ∧
      let dst : Reg := if areg then .a f.r.toNat else .d f.r.toNat
      let e := atIssue x (dst :: mSources f ++ mBaseDst f) none (isLong s p f)
      let addr := (mAddr e f).toNat
      let n := 2 ^ f.size.toNat
      ∃ (run : GRun) (node rep port edge : Nat), accessCheck e f.a.toNat addr n = none ∧
      engineRun s e = some (run, node, rep) ∧ port < 4 ∧ port < (gNode run.image node).nin ∧
      gIn run.image node port = some edge ∧ addr = 0x0F000000 + 0x100 * port ∧ n ≤ (available run edge rep).length ∧
      nextPoisoned run edge rep n = false) ∧
    (∃ (areg : Bool) (p : Nat) (f : MFmt) (s : State) (x : Engine),
      ((StandsAt s p x (encM (if areg then 0x12 else 0x10) f)) ∧ mReserved f true areg = false) ∧
      let dst : Reg := if areg then .a f.r.toNat else .d f.r.toNat
      let e := atIssue x (dst :: mSources f ++ mBaseDst f) none (isLong s p f)
      let addr := (mAddr e f).toNat
      let n := 2 ^ f.size.toNat
      ∃ (run : GRun) (node rep port edge : Nat), (accessCheck e f.a.toNat addr n = none ∧
      engineRun s e = some (run, node, rep) ∧ port < 4 ∧ port < (gNode run.image node).nin ∧
      gIn run.image node port = some edge) ∧ ∃ (v : Nat), addr = 0x0F000004 + 0x100 * port ∧ f.size = 2 ∧
      inStat run edge rep = some v) ∧
    (∃ (areg : Bool) (p : Nat) (f : MFmt) (s : State) (x : Engine),
      ((StandsAt s p x (encM (if areg then 0x13 else 0x11) f)) ∧ mReserved f false areg = false) ∧
      let src : Reg := if areg then .a f.r.toNat else .d f.r.toNat
      let e := atIssue x (src :: mSources f ++ mBaseDst f) none (isLong s p f)
      let addr := (mAddr e f).toNat
      let n := 2 ^ f.size.toNat
      ∃ (run : GRun) (node rep port edge : Nat), accessCheck e f.a.toNat addr n = none ∧
      engineRun s e = some (run, node, rep) ∧ port < 4 ∧ port < (gNode run.image node).nin ∧
      gIn run.image node port = some edge ∧ addr = 0x0F000008 + 0x100 * port ∧ f.size = 2 ∧
      (headChunk run edge rep).isSome = true) ∧
    (∃ (areg : Bool) (p : Nat) (f : MFmt) (s : State) (x : Engine),
      ((StandsAt s p x (encM (if areg then 0x13 else 0x11) f)) ∧ mReserved f false areg = false) ∧
      let src : Reg := if areg then .a f.r.toNat else .d f.r.toNat
      let e := atIssue x (src :: mSources f ++ mBaseDst f) none (isLong s p f)
      let addr := (mAddr e f).toNat
      let n := 2 ^ f.size.toNat
      ∃ (run : GRun) (node rep port edge : Nat), accessCheck e f.a.toNat addr n = none ∧
      engineRun s e = some (run, node, rep) ∧ port < 4 ∧ port < (gNode run.image node).nout ∧
      gOut run.image node port = some edge ∧ outEnded run edge rep = false ∧ addr = 0x0F000800 + 0x100 * port ∧
      pushReady run edge rep n = true) ∧
    (∃ (areg : Bool) (p : Nat) (f : MFmt) (s : State) (x : Engine),
      ((StandsAt s p x (encM (if areg then 0x13 else 0x11) f)) ∧ mReserved f false areg = false) ∧
      let src : Reg := if areg then .a f.r.toNat else .d f.r.toNat
      let e := atIssue x (src :: mSources f ++ mBaseDst f) none (isLong s p f)
      let addr := (mAddr e f).toNat
      let n := 2 ^ f.size.toNat
      let v := (if areg then rdA e f.r.toNat else rdD e f.r.toNat).toNat
      ∃ (run : GRun) (node rep port edge : Nat), accessCheck e f.a.toNat addr n = none ∧
      engineRun s e = some (run, node, rep) ∧ port < 4 ∧ port < (gNode run.image node).nout ∧
      gOut run.image node port = some edge ∧ outEnded run edge rep = false ∧ addr = 0x0F000808 + 0x100 * port ∧
      f.size = 2 ∧ v = 1 ∧ isLong s p f = true) ∧
    (∃ (areg : Bool) (p : Nat) (f : MFmt) (s : State) (x : Engine),
      ((StandsAt s p x (encM (if areg then 0x13 else 0x11) f)) ∧ mReserved f false areg = false) ∧
      let src : Reg := if areg then .a f.r.toNat else .d f.r.toNat
      let e := atIssue x (src :: mSources f ++ mBaseDst f) none (isLong s p f)
      let addr := (mAddr e f).toNat
      let n := 2 ^ f.size.toNat
      let v := (if areg then rdA e f.r.toNat else rdD e f.r.toNat).toNat
      ∃ (run : GRun) (node rep port edge : Nat), accessCheck e f.a.toNat addr n = none ∧
      engineRun s e = some (run, node, rep) ∧ port < 4 ∧ port < (gNode run.image node).nout ∧
      gOut run.image node port = some edge ∧ outEnded run edge rep = false ∧ addr = 0x0F000808 + 0x100 * port ∧
      f.size = 2 ∧ v = 2 ∧ isLong s p f = true) :=
  ⟨⟨false, 0, ⟨1, 9, 0, 2, 0, 0⟩,
      { job (encM 0x10 ⟨1, 9, 0, 2, 0, 0⟩) with engines := [far (encM 0x10 ⟨1, 9, 0, 2, 0, 0⟩) 0x0F000000] },
      far (encM 0x10 ⟨1, 9, 0, 2, 0, 0⟩) 0x0F000000, by decide +kernel, run 0x20 [] (List.replicate 8 7), 1, 0, 0, 0,
      by decide +kernel⟩,
    ⟨true, 0, ⟨1, 9, 0, 2, 0, 0⟩,
      { job (encM 0x12 ⟨1, 9, 0, 2, 0, 0⟩) with engines := [far (encM 0x12 ⟨1, 9, 0, 2, 0, 0⟩) 0x0F000004] },
      far (encM 0x12 ⟨1, 9, 0, 2, 0, 0⟩) 0x0F000004, by decide +kernel, run 0x20 [] (List.replicate 8 7), 1, 0, 0, 0,
      by decide +kernel, 8, by decide +kernel⟩,
    ⟨false, 0, ⟨1, 9, 0, 2, 0, 0⟩,
      { job (encM 0x11 ⟨1, 9, 0, 2, 0, 0⟩) with engines := [far (encM 0x11 ⟨1, 9, 0, 2, 0, 0⟩) 0x0F000008] },
      far (encM 0x11 ⟨1, 9, 0, 2, 0, 0⟩) 0x0F000008, by decide +kernel, run 0x20 [] (List.replicate 8 7), 1, 0, 0, 0,
      by decide +kernel⟩,
    ⟨false, 0, ⟨1, 9, 0, 2, 0, 0⟩,
      { job (encM 0x11 ⟨1, 9, 0, 2, 0, 0⟩) with engines := [far (encM 0x11 ⟨1, 9, 0, 2, 0, 0⟩) 0x0F000800] },
      far (encM 0x11 ⟨1, 9, 0, 2, 0, 0⟩) 0x0F000800, by decide +kernel, run 0x20 [] (List.replicate 8 7), 1, 0, 0, 1,
      by decide +kernel⟩,
    ⟨true, 0, ⟨0, 9, 0, 2, 0, 0⟩,
      { job (encM 0x13 ⟨0, 9, 0, 2, 0, 0⟩) with
        engines := [{ far (encM 0x13 ⟨0, 9, 0, 2, 0, 0⟩) 0x0F000808 with
           a := #v[1, 0, 0, 0, 0, 0, 0, 0, 0, 0x0F000808, 0, 0, 0, 0, 0, 0] }] },
      { far (encM 0x13 ⟨0, 9, 0, 2, 0, 0⟩) 0x0F000808 with
        a := #v[1, 0, 0, 0, 0, 0, 0, 0, 0, 0x0F000808, 0, 0, 0, 0, 0, 0] }, by decide +kernel,
      run 0x20 [] (List.replicate 8 7), 1, 0, 0, 1, by decide +kernel⟩,
    ⟨true, 0, ⟨0, 9, 0, 2, 0, 0⟩,
      { job (encM 0x13 ⟨0, 9, 0, 2, 0, 0⟩) with
        engines := [{ far (encM 0x13 ⟨0, 9, 0, 2, 0, 0⟩) 0x0F000808 with
           a := #v[2, 0, 0, 0, 0, 0, 0, 0, 0, 0x0F000808, 0, 0, 0, 0, 0, 0] }] },
      { far (encM 0x13 ⟨0, 9, 0, 2, 0, 0⟩) 0x0F000808 with
        a := #v[2, 0, 0, 0, 0, 0, 0, 0, 0, 0x0F000808, 0, 0, 0, 0, 0, 0] }, by decide +kernel,
      run 0x20 [] (List.replicate 8 7), 1, 0, 0, 1, by decide +kernel⟩⟩

theorem witness_ColmusControlResults :
    (∃ (p : Nat) (f : LFmt) (s : State) (x : Engine), (StandsAt s p x (encL f) ∧ freeOfSlots x ∧ f.rsv = 0 ∧
      f.len ≠ 0) ∧
      let e := atIssue x [.d f.count.toNat] none false
      let n := (rdD e f.count.toNat).toNat
      let last := e.pc + 4 * f.len.toNat
      last < 0x10000 ∧ (x.loops.length < 2 ∨ n = 0)) ∧
    (∃ (p : Nat) (f : CFmt) (s : State) (x : Engine), (StandsAt s p x (encC f) ∧ freeOfSlots x ∧ f.rsv = 0) ∧
      let e := atIssue x [] none true
      let len := frameLen f.mask
      let base := (rdA e 15).toNat - len
      let target := (rdA e f.target.toNat).toNat
      len + e.slim.toNat ≤ (rdA e 15).toNat ∧ base % 4 = 0 ∧ targetFault target = none ∧
      frameFault s e base len false = none) ∧
    (∃ (p : Nat) (s : State) (x : Engine), (StandsAt s p x (encR 0x30 1 ⟨0, 0, 0, 0⟩) ∧ freeOfSlots x) ∧
      let e := atIssue x [] none true
      ∃ (run : GRun) (node rep : Nat), (engineRun s e = some (run, node, rep)) ∧
      let ins := (List.range (gNode run.image node).nin).filterMap (gIn run.image node)
      let outs := (List.range (gNode run.image node).nout).filterMap (gOut run.image node)
      let s1 := outs.foldl (fun s o => if outEnded run o rep then s else emitEnd run.asn o rep s) s
      let s2 := ins.foldl (fun s i => discardInput run.asn i rep 4096 s) s1
      (((s2.run? run.asn).map fun r => ins.all fun i => atEnd r i rep) = some true)) ∧
    (∃ (p : Nat), ∃ x, StandsAt (runs (eng (encR 0x30 0 ⟨0, 0, 0, 0⟩))) p x (encR 0x30 0 ⟨0, 0, 0, 0⟩)) ∧
    (∃ (p : Nat), ∃ x, StandsAt (runs (eng (encR 0x30 3 ⟨0, 0, 0, 0⟩))) p x (encR 0x30 3 ⟨0, 0, 0, 0⟩)) ∧
    (∃ (p : Nat) (s : State) (x : Engine), StandsAt s p x (encR 0x30 2 ⟨0, 0, 0, 0⟩) ∧ freeOfSlots x) ∧
    (∃ (p : Nat) (w : Word) (s : State) (x : Engine), StandsAt s p x w ∧ undefinedWord w = true) :=
  ⟨⟨0, ⟨2, 3, 0⟩, runs (eng (encL ⟨2, 3, 0⟩)), eng (encL ⟨2, 3, 0⟩), by decide +kernel, by decide +kernel⟩,
    ⟨0, ⟨0x8103, 4, 0⟩, runs (eng (encC ⟨0x8103, 4, 0⟩)), eng (encC ⟨0x8103, 4, 0⟩), by decide +kernel,
      by decide +kernel⟩,
    ⟨0, { job (encR 0x30 1 ⟨0, 0, 0, 0⟩) with compute := { on.compute with runs := [ended] } },
      eng (encR 0x30 1 ⟨0, 0, 0, 0⟩), by decide +kernel, ended, 1, 0, by decide +kernel, by decide +kernel⟩,
    ⟨0, _, rfl, by decide +kernel, by decide +kernel⟩,
    ⟨0, _, rfl, by decide +kernel, by decide +kernel⟩,
    ⟨0, job (encR 0x30 2 ⟨0, 0, 0, 0⟩), eng (encR 0x30 2 ⟨0, 0, 0, 0⟩), by decide +kernel⟩,
    ⟨0, 0xFFFFFFFF, job 0xFFFFFFFF, eng 0xFFFFFFFF, by decide +kernel⟩⟩

theorem witness_ColmusBranchTargets :
    (∃ (p : Nat) (f : BFmt) (s : State) (x : Engine), (StandsAt s p x (encB f) ∧ freeOfSlots x ∧ f.cond ≠ 15) ∧
      let e := atIssue x [.flags] none false
      let target := (BitVec.ofNat 32 e.pc + (f.imm.signExtend 32 <<< 2)).toNat
      (e.openMode = true → slotHoldsLast e = false) ∧ condHolds e f.cond.toNat = true ∧ target % 4 ≠ 0) ∧
    (∃ (p : Nat) (f : BFmt) (s : State) (x : Engine), (StandsAt s p x (encB f) ∧ freeOfSlots x ∧ f.cond ≠ 15) ∧
      let e := atIssue x [.flags] none false
      let target := (BitVec.ofNat 32 e.pc + (f.imm.signExtend 32 <<< 2)).toNat
      (e.openMode = true → slotHoldsLast e = false) ∧ condHolds e f.cond.toNat = true ∧ target % 4 = 0 ∧
      0x10000 ≤ target) ∧
    (∃ (p : Nat) (f : BFmt) (s : State) (x : Engine), (StandsAt s p x (encB f) ∧ freeOfSlots x ∧ f.cond ≠ 15) ∧
      let e := atIssue x [.flags] none false
      let target := (BitVec.ofNat 32 e.pc + (f.imm.signExtend 32 <<< 2)).toNat
      (e.openMode = true → slotHoldsLast e = false) ∧ (condHolds e f.cond.toNat = true → target % 4 = 0 ∧
      target < 0x10000)) ∧
    (∃ (p : Nat) (f : RFmt) (s : State) (x : Engine), (StandsAt s p x (encR 0x29 0 f) ∧ freeOfSlots x ∧ f.rsv = 0 ∧
      f.d = 0 ∧ f.t = 0) ∧
      let e := atIssue x [.a f.s.toNat] none false
      let target := (rdA e f.s.toNat).toNat
      (e.openMode = true → slotHoldsLast e = false) ∧ target % 4 ≠ 0) ∧
    (∃ (p : Nat) (f : RFmt) (s : State) (x : Engine), (StandsAt s p x (encR 0x29 0 f) ∧ freeOfSlots x ∧ f.rsv = 0 ∧
      f.d = 0 ∧ f.t = 0) ∧
      let e := atIssue x [.a f.s.toNat] none false
      let target := (rdA e f.s.toNat).toNat
      (e.openMode = true → slotHoldsLast e = false) ∧ target % 4 = 0 ∧ 0x10000 ≤ target) ∧
    (∃ (p : Nat) (f : RFmt) (s : State) (x : Engine), (StandsAt s p x (encR 0x29 0 f) ∧ freeOfSlots x ∧ f.rsv = 0 ∧
      f.d = 0 ∧ f.t = 0) ∧
      let e := atIssue x [.a f.s.toNat] none false
      let target := (rdA e f.s.toNat).toNat
      (e.openMode = true → slotHoldsLast e = false) ∧ target % 4 = 0 ∧ target < 0x10000) :=
  ⟨⟨0, ⟨0, 1⟩, runs { eng (encB ⟨0, 1⟩) with pc := 0x42, imem := Memory.writeN [] 0x42 (le 4 (encB ⟨0, 1⟩).toNat) },
      { eng (encB ⟨0, 1⟩) with pc := 0x42, imem := Memory.writeN [] 0x42 (le 4 (encB ⟨0, 1⟩).toNat) },
      by decide +kernel, by decide +kernel⟩,
    ⟨0, ⟨0, 0x3FF0⟩, runs (eng (encB ⟨0, 0x3FF0⟩)), eng (encB ⟨0, 0x3FF0⟩), by decide +kernel, by decide +kernel⟩,
    ⟨0, ⟨0, 3⟩, runs (eng (encB ⟨0, 3⟩)), eng (encB ⟨0, 3⟩), by decide +kernel, by decide +kernel⟩,
    ⟨0, ⟨0, 9, 0, 0⟩, runs (far (encR 0x29 0 ⟨0, 9, 0, 0⟩) 0x42), far (encR 0x29 0 ⟨0, 9, 0, 0⟩) 0x42,
      by decide +kernel, by decide +kernel⟩,
    ⟨0, ⟨0, 9, 0, 0⟩, runs (far (encR 0x29 0 ⟨0, 9, 0, 0⟩) 0x10000), far (encR 0x29 0 ⟨0, 9, 0, 0⟩) 0x10000,
      by decide +kernel, by decide +kernel⟩,
    ⟨0, ⟨0, 9, 0, 0⟩, runs (far (encR 0x29 0 ⟨0, 9, 0, 0⟩) 0x80), far (encR 0x29 0 ⟨0, 9, 0, 0⟩) 0x80,
      by decide +kernel, by decide +kernel⟩⟩

theorem witness_ColmusReturn :
    (∃ (p : Nat) (s : State) (x : Engine), (StandsAt s p x (encRet 0) ∧ freeOfSlots x) ∧
      let e := atIssue x [] none true
      let sp := (rdA e 15).toNat
      let back := (frameRead s e (sp + 4)).toNat
      e.slim.toNat ≤ sp ∧ sp % 4 = 0 ∧ frameFault s e sp 8 true = none ∧ back % 4 ≠ 0) ∧
    (∃ (p : Nat) (s : State) (x : Engine), (StandsAt s p x (encRet 0) ∧ freeOfSlots x) ∧
      let e := atIssue x [] none true
      let sp := (rdA e 15).toNat
      let back := (frameRead s e (sp + 4)).toNat
      e.slim.toNat ≤ sp ∧ sp % 4 = 0 ∧ frameFault s e sp 8 true = none ∧ back % 4 = 0 ∧ 0x10000 ≤ back) ∧
    (∃ (p : Nat) (s : State) (x : Engine), (StandsAt s p x (encRet 0) ∧ freeOfSlots x) ∧
      let e := atIssue x [] none true
      let sp := (rdA e 15).toNat
      let mask : BitVec 16 := (frameRead s e sp).setWidth 16
      let back := (frameRead s e (sp + 4)).toNat
      e.slim.toNat ≤ sp ∧ sp % 4 = 0 ∧ frameFault s e sp 8 true = none ∧ back % 4 = 0 ∧ back < 0x10000 ∧
      frameFault s e sp (frameLen mask) true = none) :=
  ⟨⟨0, runs { eng (encRet 0) with x := Memory.writeN [] 0xF0 (le 4 0x0101 ++ le 4 0x42) },
      { eng (encRet 0) with x := Memory.writeN [] 0xF0 (le 4 0x0101 ++ le 4 0x42) }, by decide +kernel,
      by decide +kernel⟩,
    ⟨0, runs { eng (encRet 0) with x := Memory.writeN [] 0xF0 (le 4 0x0101 ++ le 4 0x10000) },
      { eng (encRet 0) with x := Memory.writeN [] 0xF0 (le 4 0x0101 ++ le 4 0x10000) }, by decide +kernel,
      by decide +kernel⟩,
    ⟨0, runs { eng (encRet 0) with x := Memory.writeN [] 0xF0 (le 4 0x8101 ++ le 4 0x44 ++ le 4 7 ++ le 4 8) },
      { eng (encRet 0) with x := Memory.writeN [] 0xF0 (le 4 0x8101 ++ le 4 0x44 ++ le 4 7 ++ le 4 8) },
      by decide +kernel, by decide +kernel⟩⟩

theorem witness_ColmusTraps :
    (∃ (p : Nat) (f : RFmt) (s : State) (x : Engine), StandsAt s p x (encR 0x01 0x00 f) ∧ f.rsv ≠ 0) ∧
    (∃ (p : Nat) (f : BFmt) (s : State) (x : Engine), StandsAt s p x (encB f) ∧
      (x.delay.isSome = true ∨ atBodyLast x x.pc = true)) ∧
    (∃ (p : Nat) (f : MFmt) (s : State) (x : Engine), (StandsAt s p x (encM 0x11 f) ∧
      mReserved f false false = false) ∧
      let e := atIssue x (.d f.r.toNat :: mSources f ++ mBaseDst f) none (isLong s p f)
      let addr := (mAddr e f).toNat
      f.a = 15 ∧ addr < e.slim.toNat) ∧
    (∃ (p : Nat) (f : MFmt) (s : State) (x : Engine), (StandsAt s p x (encM 0x11 f) ∧
      mReserved f false false = false) ∧
      let e := atIssue x (.d f.r.toNat :: mSources f ++ mBaseDst f) none (isLong s p f)
      let addr := (mAddr e f).toNat
      (f.a = 15 → e.slim.toNat ≤ addr) ∧ addr % 2 ^ f.size.toNat ≠ 0) ∧
    (∃ (p : Nat) (f : MFmt) (s : State) (x : Engine), (StandsAt s p x (encM 0x11 f) ∧
      mReserved f false false = false) ∧
      let e := atIssue x (.d f.r.toNat :: mSources f ++ mBaseDst f) none (isLong s p f)
      let addr := (mAddr e f).toNat
      (f.a = 15 → e.slim.toNat ≤ addr) ∧ addr % 2 ^ f.size.toNat = 0 ∧ regionOf addr = .none) :=
  ⟨⟨0, ⟨1, 2, 3, 1⟩, job (encR 0x01 0x00 ⟨1, 2, 3, 1⟩), eng (encR 0x01 0x00 ⟨1, 2, 3, 1⟩), by decide +kernel⟩,
    ⟨0, ⟨0, 3⟩, { job (encB ⟨0, 3⟩) with engines := [{ eng (encB ⟨0, 3⟩) with delay := some (none, 1) }] },
      { eng (encB ⟨0, 3⟩) with delay := some (none, 1) }, by decide +kernel⟩,
    ⟨0, ⟨1, 15, 0, 2, 0, 0⟩, { job 0 with engines := [{ eng (encM 0x11 ⟨1, 15, 0, 2, 0, 0⟩) with slim := 0x100 }] },
      { eng (encM 0x11 ⟨1, 15, 0, 2, 0, 0⟩) with slim := 0x100 }, by decide +kernel, by decide +kernel⟩,
    ⟨0, ⟨1, 2, 0, 2, 0, 1⟩, job (encM 0x11 ⟨1, 2, 0, 2, 0, 1⟩), eng (encM 0x11 ⟨1, 2, 0, 2, 0, 1⟩), by decide +kernel,
      by decide +kernel⟩,
    ⟨0, ⟨1, 9, 0, 2, 0, 0⟩, { job 0 with engines := [far (encM 0x11 ⟨1, 9, 0, 2, 0, 0⟩) 0x50000] },
      far (encM 0x11 ⟨1, 9, 0, 2, 0, 0⟩) 0x50000, by decide +kernel, by decide +kernel⟩⟩

theorem witness_SettingsRequestsComplete :
    (∃ (q : Rq) (part src : Nat) (s : State), Accepted s q 0x0201 8 false ∧
      (roleOf s q.ep = .owner ∨ roleOf s q.ep = .admin q.tenant ∧ part = 1 + q.tenant) ∧ part ≤ 256 ∧ src ≤ 1) ∧
    (∃ (q : Rq) (base part : Nat) (rec : SetRec) (s : State),
      (Accepted s q 0x0202 (16 + (if part = 0 then 512 else 256)) false) ∧ roleOf s q.ep = .owner ∧ part ≤ 256 ∧
      recOk part rec = true ∧ base ≠ s.settings.gen) ∧
    (∃ (q : Rq) (base part : Nat) (rec : SetRec) (s : State),
      ((Accepted s q 0x0202 (16 + (if part = 0 then 512 else 256)) false) ∧ roleOf s q.ep = .owner ∧ part ≤ 256 ∧
      recOk part rec = true) ∧
      let b := match s.settings.staged with
        | some (g, b) => if g = s.settings.gen then b else setInForce s
        | none => setInForce s
      stageStatus s base part rec b = none) ∧
    (∃ (q : Rq) (s : State), Accepted s q 0x0204 0 true ∧ roleOf s q.ep = .owner) ∧
    (∃ (q : Rq) (s : State), Accepted s q 0x0501 0 true ∧ roleOf s q.ep = .owner) ∧
    (∃ (q : Rq) (fld value : Nat) (l : Live) (s : State), Accepted s q 0x0205 16 (decide (3 < fld)) ∧
      roleOf s q.ep = .owner ∧ liveOf s q.tenant fld value = some l ∧
      (fld ≤ 3 → ((s.tenant? q.tenant).map (·.state == .destroying)).getD true = false)) ∧
    (∃ (q : Rq) (s : State), Accepted s q 0x0502 32 true ∧ roleOf s q.ep = .owner) :=
  ⟨⟨rq 8 0, 0, 0, owned, by decide +kernel⟩,
    ⟨rq 272 0, 3, 1, .ten (TenRec.blank 0), owned, by decide +kernel⟩,
    ⟨rq 272 0, 0, 1, .ten (TenRec.blank 0), owned, by decide +kernel, by decide +kernel⟩,
    ⟨dev 0, owned, by decide +kernel⟩,
    ⟨dev 0, owned, by decide +kernel⟩,
    ⟨rq 16 1, 1, 3, .fetchWeight 1 3, owned, by decide +kernel⟩,
    ⟨dev 32, owned, by decide +kernel⟩⟩

theorem witness_SettingsCommitComplete :
    (∃ (q : Rq) (s : State), Accepted s q 0x0203 8 true ∧ roleOf s q.ep = .owner ∧ s.settings.commit.isSome = true) ∧
    (∃ (q : Rq) (base : Nat) (s : State), (Accepted s q 0x0203 8 true ∧ roleOf s q.ep = .owner) ∧ ∃ (body : SetBody),
      s.settings.commit = none ∧ s.settings.commitQueue = [] ∧ s.settings.staged = some (base, body) ∧
      base = s.settings.gen ∧ holdingsFit s (SetBody.blanked s body) = true ∧
      commitStopped s (SetBody.blanked s body) = true) ∧
    (∃ (q : Rq) (s : State), Accepted s q 0x0203 8 true ∧ roleOf s q.ep = .owner ∧ s.settings.commit = none ∧
      s.settings.commitQueue = [] ∧ s.settings.staged = none) :=
  ⟨⟨dev 8, { owned with settings := { on.settings with commit := some (1, {}, .live) } }, by decide +kernel⟩,
    ⟨dev 8, 0, { owned with settings := { on.settings with staged := some (0, setInForce on) } }, by decide +kernel,
      setInForce on, by decide +kernel⟩,
    ⟨dev 8, owned, by decide +kernel⟩⟩

theorem witness_DeviceRequestsComplete :
    (∃ (q : Rq) (port : Nat) (ranges : List (Nat × Nat)) (s : State),
      Accepted s q 0x0206 (8 + 16 * ranges.length) true ∧ roleOf s q.ep = .owner ∧ port ≤ 1 ∧ 1 ≤ ranges.length ∧
      ranges.length ≤ 64 ∧ (∀ r ∈ ranges, r.1 % 2 ^ 21 = 0 ∧ r.2 % 2 ^ 21 = 0 ∧ r.2 ≠ 0) ∧ s.media.cacheMode = true ∧
      sumBy (·.2) ranges ≤ 32 * 2 ^ 30 ∧ (port = 1 → s.boot.portcfg = 0)) ∧
    (∃ (q : Rq) (port : Nat) (ranges : List (Nat × Nat)) (s : State),
      Accepted s q 0x0206 (8 + 16 * ranges.length) true ∧ roleOf s q.ep = .owner ∧ port ≤ 1 ∧ 1 ≤ ranges.length ∧
      ranges.length ≤ 64 ∧ (∀ r ∈ ranges, r.1 % 2 ^ 21 = 0 ∧ r.2 % 2 ^ 21 = 0 ∧ r.2 ≠ 0) ∧
      (s.media.cacheMode = false ∨ 32 * 2 ^ 30 < sumBy (·.2) ranges)) ∧
    (∃ (q : Rq) (s : State), Accepted s q 0x0207 0 true ∧ roleOf s q.ep = .owner) ∧
    (∃ (q : Rq) (d : BoardDesc) (s : State), Accepted s q 0x0A03 32 true ∧ roleOf s q.ep = .board ∧
      boardDescBad d = false) ∧
    (∃ (q : Rq) (mw : Nat) (s : State), Accepted s q 0x0A04 8 true ∧
      (roleOf s q.ep = .owner ∨ roleOf s q.ep = .board) ∧ (mw = 0 ∨ 30000 ≤ mw ∧ mw ≤ 86000)) ∧
    (∃ (q : Rq) (s : State), Accepted s q 0x0A01 0 true ∧ (roleOf s q.ep = .owner ∨ roleOf s q.ep = .board)) ∧
    (∃ (q : Rq) (s : State), Accepted s q 0x0A02 0 true ∧ (roleOf s q.ep = .owner ∨ roleOf s q.ep = .board) ∧
      s.boot.shutdownRq = none) ∧
    (∃ (q : Rq) (s : State), Accepted s q 0x0A02 0 true ∧ (roleOf s q.ep = .owner ∨ roleOf s q.ep = .board) ∧
      s.boot.shutdownRq.isSome = true) ∧
    (∃ (q : Rq) (s : State), Accepted s q 0x0101 0 true) ∧
    (∃ (q : Rq) (offset : Nat) (data : List Byte) (s : State), Accepted s q 0x0105 (8 + data.length) false ∧
      offset + data.length ≤ 524288) :=
  ⟨⟨dev 24, 0, [(0, 2 ^ 21)], { owned with media := { on.media with cacheMode := true } }, by decide +kernel⟩,
    ⟨dev 24, 0, [(0, 2 ^ 21)], owned, by decide +kernel⟩,
    ⟨dev 0, { owned with media := { on.media with shelf := { on.media.shelf with state := 1 } } }, by decide +kernel⟩,
    ⟨dev 32, ⟨1, 64, 1, 1, 1, 0, 1000, 2000, 1800⟩, on, by decide +kernel⟩,
    ⟨dev 8, 40000, on, by decide +kernel⟩,
    ⟨dev 0, on, by decide +kernel⟩,
    ⟨dev 0, on, by decide +kernel⟩,
    ⟨dev 0, { on with boot := { on.boot with shutdownRq := some (dev 0) } }, by decide +kernel⟩,
    ⟨dev 0, on, by decide +kernel⟩,
    ⟨rq 12 0, 3, [1, 2, 3, 4], on, by decide +kernel⟩⟩

theorem witness_NamespaceRequestsComplete :
    (∃ (q : Rq) (grain still lbaf assured stretch : Nat) (s : State), Accepted s q 0x0309 32 false ∧
      (roleOf s q.ep = .owner ∨ roleOf s q.ep = .admin q.tenant) ∧ grain ≤ 1 ∧ still ≤ 1 ∧ lbaf ≤ 1 ∧
      (still = 1 → grain = 0 ∧ stretch = 0) ∧ 32 * 2 ^ 20 ≤ assured ∧ assured % (32 * 2 ^ 20) = 0 ∧
      stretch % (32 * 2 ^ 20) = 0 ∧ assured < 2 ^ 64 ∧ stretch < 2 ^ 64 ∧
      ((s.tenant? q.tenant).map (·.state != .destroying)).getD false = true ∧ freeNsids s ≠ []) ∧
    (∃ (q : Rq) (nsid assured stretch : Nat) (n : Ns) (s : State), Accepted s q 0x030A 24 false ∧
      (roleOf s q.ep = .owner ∨ roleOf s q.ep = .admin q.tenant) ∧ 1 ≤ nsid ∧ nsid ≤ 1024 ∧ 32 * 2 ^ 20 ≤ assured ∧
      assured % (32 * 2 ^ 20) = 0 ∧ stretch % (32 * 2 ^ 20) = 0 ∧ assured < 2 ^ 64 ∧ stretch < 2 ^ 64 ∧
      s.ns? nsid = some n ∧ n.tenant = q.tenant ∧ n.assured ≤ assured ∧ n.stretch ≤ stretch ∧
      (n.still = true → stretch = 0)) ∧
    (∃ (q : Rq) (nsid assured stretch : Nat) (n : Ns) (s : State), Accepted s q 0x030A 24 false ∧
      (roleOf s q.ep = .owner ∨ roleOf s q.ep = .admin q.tenant) ∧ 1 ≤ nsid ∧ nsid ≤ 1024 ∧ 32 * 2 ^ 20 ≤ assured ∧
      assured % (32 * 2 ^ 20) = 0 ∧ stretch % (32 * 2 ^ 20) = 0 ∧ assured < 2 ^ 64 ∧ stretch < 2 ^ 64 ∧
      s.ns? nsid = some n ∧ n.tenant = q.tenant ∧ (assured < n.assured ∨ stretch < n.stretch)) :=
  ⟨⟨rq 32 0, 0, 0, 0, 2 ^ 25, 0, owned, by decide +kernel⟩,
    ⟨rq 24 0, 1, 2 ^ 26, 2 ^ 25, nsOne, owned, by decide +kernel⟩,
    ⟨rq 24 0, 1, 2 ^ 25, 0, { nsOne with assured := 2 ^ 26 },
      { owned with nss := [{ nsOne with assured := 2 ^ 26 }] }, by decide +kernel⟩⟩

theorem witness_LinksComplete :
    (∃ (p : Port) (s : State), portUsed s p = true) ∧
    (∃ (p : Port) (s : State), portUsed s p = true ∧ (s.link p).perst = true) ∧
    (∃ (p : Port) (s : State), (s.link p).up = true) ∧
    (∃ (p : Port) (rate width : Nat) (s : State), (s.link p).training = true ∧ rate ∈ [2, 5, 8, 16, 32, 64, 128] ∧
      (width ∈ [1, 2, 4, 8] ∨ (s.boot.portcfg = 1 ∧ p = .a ∧ width = 16))) ∧
    (∃ (p : Port) (s : State), (s.link p).l12 = true) ∧
    (∃ (t : Tick) (p : Port) (s : State), s.serving = true ∧ (s.link p).up = true ∧ (s.link p).reeqDue = true ∧
      s.linkA.reeq = false ∧ s.linkB.reeq = false ∧ reeqNow (s.arrive t) = true) ∧
    (∃ (p : Port) (rate : Nat) (s : State), (s.link p).reeq = true ∧ rate ∈ [2, 5, 8, 16, 32, 64, 128]) ∧
    (∃ (t : Nat) (p : Port) (s : State), (s.link p).up = true ∧
      max s.now t - (s.link p).errorsSince < 60 * ticksPerS ∧ 1 ≤ (s.link p).errors ∧ (s.link p).errors < 64) ∧
    (∃ (t : Nat) (p : Port) (s : State), (s.link p).up = true ∧
      max s.now t - (s.link p).errorsSince < 60 * ticksPerS ∧ 1 ≤ (s.link p).errors ∧ 64 ≤ (s.link p).errors) :=
  ⟨⟨.a, on, by decide +kernel⟩,
    ⟨.a, { on with linkA := {} }, by decide +kernel⟩,
    ⟨.a, on, by decide +kernel⟩,
    ⟨.a, 32, 4, { on with linkA := { on.linkA with up := false, training := true } }, by decide +kernel⟩,
    ⟨.a, { on with linkA := { on.linkA with l12 := true } }, by decide +kernel⟩,
    ⟨5, .a, { on with linkA := { on.linkA with reeqDue := true }, firn := { on.firn with ovr := some (4, 9) } },
      by decide +kernel⟩,
    ⟨.a, 16, { on with linkA := { on.linkA with reeq := true } }, by decide +kernel⟩,
    ⟨5, .a, { on with linkA := { on.linkA with errors := 3 } }, by decide +kernel⟩,
    ⟨5, .a, { on with linkA := { on.linkA with errors := 64 } }, by decide +kernel⟩⟩

theorem witness_ControllerEventsComplete :
    (∃ (f : Fn) (s : State), hostReaches s f = true) ∧
    (∃ (f : Fn) (css : Nat) (c : Ctrl) (s : State), s.ctrl? f = some c ∧ c.en = false ∧ hostReaches s f = true ∧
      (css = 0 ∨ css = 6)) ∧
    (∃ (f : Fn) (c : Ctrl) (s : State), s.ctrl? f = some c ∧ c.en = true ∧ hostReaches s f = true) ∧
    (∃ (f : Fn) (c : Ctrl) (s : State), s.ctrl? f = some c ∧ c.en = true ∧ c.shst = 0 ∧ hostReaches s f = true ∧
      quiet s = true) :=
  ⟨⟨fA, { with_ (io 1 (.read 0 1 false)) with ctrls := [{ ctl with beatHi := 3 }] }, by decide +kernel⟩,
    ⟨fA, 6, { ctl with en := false, rdy := false }, { on with ctrls := [{ ctl with en := false, rdy := false }] },
      by decide +kernel⟩,
    ⟨fA, ctl, { with_ (ad 0 .aer) with ctrls := [ctl] }, by decide +kernel⟩,
    ⟨fA, ctl, on, by decide +kernel⟩⟩

theorem witness_DoorbellsComplete :
    (∃ (f : Fn) (qid tail : Nat) (c : Ctrl) (q : Sq) (s : State), (s.ctrl? f = some c ∧ c.en = true ∧
      hostReaches s f = true ∧ sqOf c qid = some q) ∧
      let fresh := (tail + q.size - q.tail) % max 1 q.size
      let held := (q.tail + q.size - q.head) % max 1 q.size
      tail < q.size ∧ fresh + held < q.size) ∧
    (∃ (f : Fn) (qid tail : Nat) (c : Ctrl) (q : Sq) (s : State), (s.ctrl? f = some c ∧ c.en = true ∧
      hostReaches s f = true ∧ sqOf c qid = some q) ∧
      let fresh := (tail + q.size - q.tail) % max 1 q.size
      let held := (q.tail + q.size - q.head) % max 1 q.size
      (q.size ≤ tail ∨ q.size ≤ fresh + held) ∧ c.aers = []) ∧
    (∃ (f : Fn) (qid head : Nat) (c : Ctrl) (q : Cq) (s : State), (s.ctrl? f = some c ∧ c.en = true ∧
      hostReaches s f = true ∧ cqAt c qid = some q) ∧
      let taken := (head + q.size - q.head) % max 1 q.size
      let held := (q.tail + q.size - q.head) % max 1 q.size
      head < q.size ∧ taken ≤ held) ∧
    (∃ (f : Fn) (qid head : Nat) (c : Ctrl) (q : Cq) (s : State), (s.ctrl? f = some c ∧ c.en = true ∧
      hostReaches s f = true ∧ cqAt c qid = some q) ∧
      let taken := (head + q.size - q.head) % max 1 q.size
      let held := (q.tail + q.size - q.head) % max 1 q.size
      (q.size ≤ head ∨ held < taken) ∧ c.aers = []) ∧
    (∃ (t : Nat) (f : Fn) (v : Nat) (c : Ctrl) (k since : Nat) (s : State), s.ctrl? f = some c ∧
      get? v c.coalWaiting = some (k, since) ∧ since + c.coalTime * 100 * ticksPerUs ≤ max s.now t) :=
  ⟨⟨fA, 1, 3, { ctl with sqs := [⟨1, 8, 1, 2, 0, 0, []⟩] }, ⟨1, 8, 1, 2, 0, 0, []⟩,
      { on with ctrls := [{ ctl with sqs := [⟨1, 8, 1, 2, 0, 0, []⟩] }] }, by decide +kernel, by decide +kernel⟩,
    ⟨fA, 1, 9, { ctl with sqs := [⟨1, 8, 1, 2, 0, 0, []⟩] }, ⟨1, 8, 1, 2, 0, 0, []⟩,
      { on with ctrls := [{ ctl with sqs := [⟨1, 8, 1, 2, 0, 0, []⟩] }] }, by decide +kernel, by decide +kernel⟩,
    ⟨fA, 1, 3, { ctl with cqs := [⟨1, 8, 2, 0, 3⟩] }, ⟨1, 8, 2, 0, 3⟩,
      { on with ctrls := [{ ctl with cqs := [⟨1, 8, 2, 0, 3⟩] }] }, by decide +kernel, by decide +kernel⟩,
    ⟨fA, 1, 9, { ctl with cqs := [⟨1, 8, 2, 0, 3⟩] }, ⟨1, 8, 2, 0, 3⟩,
      { on with ctrls := [{ ctl with cqs := [⟨1, 8, 2, 0, 3⟩] }] }, by decide +kernel, by decide +kernel⟩,
    ⟨50000, fA, 2, { ctl with coalWaiting := [(2, (1, 0))] }, 1, 0,
      { on with ctrls := [{ ctl with coalWaiting := [(2, (1, 0))] }] }, by decide +kernel⟩⟩

theorem witness_FetchAndAbortComplete :
    (∃ (t : Tick) (e : Sqe) (f : Fn) (qid : Nat) (s1 s : State), (arbitrate (s.arrive t) = some (f, qid, s1) ∧
      (s.ctrl? f).isSome = true ∧
      ((s.slots.any fun x => x.fn == f && x.sqid == qid && x.sqe.cid == e.cid && !x.orphan) = false)) ∧ ∃ (ix : Nat),
      freeSlot s (qid == 0) = some ix) ∧
    (∃ (t : Tick) (e : Sqe) (f : Fn) (qid : Nat) (s1 s : State), arbitrate (s.arrive t) = some (f, qid, s1) ∧
      (s.ctrl? f).isSome = true ∧
      ((s.slots.any fun x => x.fn == f && x.sqid == qid && x.sqe.cid == e.cid && !x.orphan) = true)) ∧
    (∃ (sl : Slot) (s : State), s.slot? sl.ix = some sl ∧ 2 ^ 46 ≤ (s.asn + 2 ^ 48 - sl.asn) % 2 ^ 48 ∧
      sl.phase ≠ .posted ∧ runOfSlot s sl.ix = none ∧ s.pfail.stopped = false ∧ sl.orphan = false ∧ sl.timers = [] ∧
      (s.ctrl? sl.fn).isSome = true ∧ quiet s = true) ∧
    (∃ (sl x : Slot) (sqid cid : Nat) (s : State), Ready s sl ∧ sl.sqe.body = .abort sqid cid ∧
      ((s.slots.filter fun y => y.fn == sl.fn && y.phase == .aborting).length < 8) ∧
      ((s.slots.find? fun y => y.fn == sl.fn && y.sqid == sqid && y.sqe.cid == cid && y.ix != sl.ix && !y.orphan) =
        some x) ∧ x.phase ≠ .posted ∧ (x.sqid ≠ 0 ∨ x.sqe.body = .aer) ∧ s.slot? x.ix = some x) ∧
    (∃ (t : Tick) (x a : Slot) (ix : Nat) (d : Tick) (s : State),
      ((s.slots.find? fun y => y.timers.any (·.1 == ix)) = some x) ∧ s.slot? x.ix = some x ∧
      get? ix x.timers = some d ∧ d ≤ max s.now t ∧ s.pfail.stopped = false ∧
      completesFirst (s.arrive t) x d = false ∧ runOfSlot s x.ix = none ∧ x.orphan = false ∧
      (s.ctrl? x.fn).isSome = true ∧ quiet s = true ∧ s.slot? ix = some a ∧ x.ix ≠ ix ∧ a.orphan = false ∧
      (s.ctrl? a.fn).isSome = true) :=
  ⟨⟨5, sq 0 .aer, fA, 0, ((arbitrate (rung.arrive 5)).map (·.2.2)).getD rung, rung, by decide +kernel, 8128,
      by decide +kernel⟩,
    ⟨5, sq 0 .aer, fA, 0, ((arbitrate ((held rung).arrive 5)).map (·.2.2)).getD rung, held rung, by decide +kernel⟩,
    ⟨{ ad 0 .aer with asn := 0, phase := .pendingEvent },
      { with_ { ad 0 .aer with asn := 0, phase := .pendingEvent } with asn := 2 ^ 46 }, by decide +kernel⟩,
    ⟨ad 0 (.abort 1 9), io 1 (.read 0 1 false), 1, 9,
      { on with slots := [ad 0 (.abort 1 9), io 1 (.read 0 1 false)] }, by decide +kernel⟩,
    ⟨9, { io 1 (.read 0 1 false) with timers := [(8130, 9)] }, { ad 0 (.abort 1 9) with phase := .aborting }, 8130, 9,
      { on with
        slots := [{ ad 0 (.abort 1 9) with phase := .aborting }, { io 1 (.read 0 1 false) with timers := [(8130, 9)] }] },
      by decide +kernel⟩⟩

theorem witness_QueueCommandsComplete :
    (∃ (sl : Slot) (c : Ctrl) (s : State), Ready s sl ∧ sl.sqe.body = .aer ∧ s.ctrl? sl.fn = some c ∧
      c.aers.length < 8 ∧ c.events = []) ∧
    (∃ (sl : Slot) (c : Ctrl) (s : State), (Ready s sl ∧ sl.sqe.body = .aer ∧ s.ctrl? sl.fn = some c ∧
      c.aers.length < 8) ∧ ∃ (ev : Event) (rest : List Event), c.events = ev :: rest) ∧
    (∃ (sl : Slot) (c : Ctrl) (qid size vector : Nat) (s : State), Ready s sl ∧
      sl.sqe.body = .createCq qid size vector ∧ s.ctrl? sl.fn = some c ∧ 1 ≤ qid ∧ qid ≤ c.pairs ∧
      c.cqs.any (·.qid == qid) = false ∧ 2 ≤ size ∧ size ≤ 4096 ∧ vector ≤ 2048) ∧
    (∃ (sl : Slot) (c : Ctrl) (qid size cqid prio : Nat) (s : State), Ready s sl ∧
      sl.sqe.body = .createSq qid size cqid prio ∧ s.ctrl? sl.fn = some c ∧ 1 ≤ qid ∧ qid ≤ c.pairs ∧
      c.sqs.any (·.qid == qid) = false ∧ c.cqs.any (·.qid == cqid) = true ∧ 2 ≤ size ∧ size ≤ 4096 ∧ prio ≤ 3 ∧
      (prio = 0 → ((s.tenant? sl.fn.tenant).map (·.cfg.urgentOk)) = some true)) ∧
    (∃ (sl : Slot) (c : Ctrl) (qid : Nat) (s : State), Ready s sl ∧ sl.sqe.body = .deleteSq qid ∧
      s.ctrl? sl.fn = some c ∧ c.sqs.any (·.qid == qid) = true ∧
      ((s.slots.any fun x => x.fn == sl.fn && x.sqid == qid && !x.orphan) = false)) ∧
    (∃ (sl : Slot) (c : Ctrl) (qid : Nat) (s : State), Ready s sl ∧ sl.sqe.body = .deleteCq qid ∧
      s.ctrl? sl.fn = some c ∧ c.cqs.any (·.qid == qid) = true ∧ 1 ≤ qid ∧ c.sqs.any (·.cqid == qid) = false) ∧
    (∃ (sl : Slot) (c : Ctrl) (nsq ncq : Nat) (s : State), (Ready s sl ∧ sl.sqe.body = .setQueues nsq ncq ∧
      s.ctrl? sl.fn = some c ∧ c.sqs = [] ∧ c.cqs = [] ∧ nsq < 65535 ∧ ncq < 65535) ∧
      let quota := if exposed s sl.fn then ((s.tenant? sl.fn.tenant).map (·.cfg.ioqQuota)).getD 0 else 0
      let others := pairsOf (s.setCtrl sl.fn fun c => { c with pairs := 0 }) sl.fn.tenant
      others < quota) :=
  ⟨⟨ad 0 .aer, ctl, with_ (ad 0 .aer), by decide +kernel⟩,
    ⟨ad 0 .aer, { ctl with events := [.anaChange] },
      { with_ (ad 0 .aer) with ctrls := [{ ctl with events := [.anaChange] }] }, by decide +kernel, .anaChange, [],
      by decide +kernel⟩,
    ⟨ad 0 (.createCq 1 8 2), ctl, 1, 8, 2, with_ (ad 0 (.createCq 1 8 2)), by decide +kernel⟩,
    ⟨ad 0 (.createSq 1 8 1 2), { ctl with cqs := [⟨1, 8, 2, 0, 0⟩] }, 1, 8, 1, 2,
      { with_ (ad 0 (.createSq 1 8 1 2)) with ctrls := [{ ctl with cqs := [⟨1, 8, 2, 0, 0⟩] }] }, by decide +kernel⟩,
    ⟨ad 0 (.deleteSq 1), { ctl with sqs := [⟨1, 8, 1, 2, 0, 0, []⟩] }, 1,
      { with_ (ad 0 (.deleteSq 1)) with ctrls := [{ ctl with sqs := [⟨1, 8, 1, 2, 0, 0, []⟩] }] }, by decide +kernel⟩,
    ⟨ad 0 (.deleteCq 1), { ctl with cqs := [⟨1, 8, 2, 0, 0⟩] }, 1,
      { with_ (ad 0 (.deleteCq 1)) with ctrls := [{ ctl with cqs := [⟨1, 8, 2, 0, 0⟩] }] }, by decide +kernel⟩,
    ⟨ad 0 (.setQueues 3 1), ctl, 3, 1, with_ (ad 0 (.setQueues 3 1)), by decide +kernel, by decide +kernel⟩⟩

theorem witness_FeaturesComplete :
    (∃ (sl : Slot) (c : Ctrl) (ab lpw mpw hpw : Nat) (save : Bool) (s : State), Ready s sl ∧
      sl.sqe.body = .setArb ab lpw mpw hpw save ∧ s.ctrl? sl.fn = some c) ∧
    (∃ (sl : Slot) (w : Bool) (s : State), Ready s sl ∧ sl.sqe.body = .setWce w) ∧
    (∃ (sl : Slot) (c : Ctrl) (ps : Nat) (s : State), Ready s sl ∧ sl.sqe.body = .setPm ps 0 ∧
      s.ctrl? sl.fn = some c ∧ ps ≤ 4) ∧
    (∃ (sl : Slot) (ps hint : Nat) (s : State), Ready s sl ∧ sl.sqe.body = .setPm ps hint ∧ (4 < ps ∨ hint ≠ 0)) ∧
    (∃ (sl : Slot) (a : Bool) (s : State), Ready s sl ∧ sl.sqe.body = .setApst a) ∧
    (∃ (sl : Slot) (thr time : Nat) (s : State), Ready s sl ∧ sl.sqe.body = .setCoal thr time ∧ thr < 256 ∧ time < 256) ∧
    (∃ (sl : Slot) (c : Ctrl) (s : State), (Ready s sl ∧ s.ctrl? sl.fn = some c) ∧
      ∃ r ∈ ([(0x02, 0, c.lastPs), (0x06, 0, if c.wce then 1 else 0), (0x06, 1, 1), (0x07, 0, (c.pairs - 1) * 65537),
        (0x08, 0, c.coalThr + 256 * c.coalTime), (0x0C, 0, if c.apste then 1 else 0)] : List (Nat × Nat × Nat)),
      sl.sqe.body = .getFeatures r.1 r.2.1) ∧
    (∃ (sl : Slot) (len lo hi : Nat) (s : State), Ready s sl ∧ sl.sqe.body = .mailbox len lo hi ∧ sl.sqe.nsid = 0 ∧
      16 ≤ len ∧ len ≤ 4096 ∧ len % 4 = 0 ∧ lo % 4 = 0 ∧ checkData sl.sqe len = none) ∧
    (∃ (sl : Slot) (op : Nat) (s : State), Ready s sl ∧ sl.sqe.body = .unsupported op) :=
  ⟨⟨ad 0 (.setArb 2 1 2 3 true), ctl, 2, 1, 2, 3, true, with_ (ad 0 (.setArb 2 1 2 3 true)), by decide +kernel⟩,
    ⟨ad 0 (.setWce false), false, with_ (ad 0 (.setWce false)), by decide +kernel⟩,
    ⟨ad 0 (.setPm 3 0), ctl, 3, with_ (ad 0 (.setPm 3 0)), by decide +kernel⟩,
    ⟨ad 0 (.setPm 5 0), 5, 0, with_ (ad 0 (.setPm 5 0)), by decide +kernel⟩,
    ⟨ad 0 (.setApst false), false, with_ (ad 0 (.setApst false)), by decide +kernel⟩,
    ⟨ad 0 (.setCoal 3 4), 3, 4, with_ (ad 0 (.setCoal 3 4)), by decide +kernel⟩,
    ⟨ad 0 (.getFeatures 2 0), ctl, with_ (ad 0 (.getFeatures 2 0)), by decide +kernel, _, .head _, by decide +kernel⟩,
    ⟨ad 0 (.mailbox 16 0 0), 16, 0, 0, with_ (ad 0 (.mailbox 16 0 0)), by decide +kernel⟩,
    ⟨io 0 (.unsupported 0x7F), 0x7F, with_ (io 0 (.unsupported 0x7F)), by decide +kernel⟩⟩

theorem witness_ReadingCommandsComplete :
    (∃ (t : Tick) (sl : Slot) (n : Ns) (s : State), (Ready s sl ∧ checkIo (s.arrive t) sl = none ∧
      s.ns? sl.sqe.nsid = some n) ∧ ∃ (slba nlb : Nat), ((Body.ranges sl.sqe.body).head? = some (slba, nlb)) ∧
      let lbas := (List.range nlb).map (· + slba)
      let vs := lbas.map fun l => readVersion (s.arrive t) n sl.asn sl.kept l
      (mustWait s sl.asn n.nsid [(slba, nlb)] = false ∧ (∀ l ∈ lbas, s.media.damaged.contains (n.nsid, l) = false) ∧
      (pagesOf n slba nlb).all (pageResident n) = true) ∧
      ((∀ v ∈ lbas.zip vs, v.2.2 = true → OnDies s n (grainOf n v.1))) ∧ ∃ (fua : Bool),
      sl.sqe.body = .read slba nlb fua) ∧
    (∃ (t : Tick) (sl : Slot) (n : Ns) (s : State), (Ready s sl ∧ checkIo (s.arrive t) sl = none ∧
      s.ns? sl.sqe.nsid = some n) ∧ ∃ (slba nlb : Nat), ((Body.ranges sl.sqe.body).head? = some (slba, nlb)) ∧
      let lbas := (List.range nlb).map (· + slba)
      let vs := lbas.map fun l => readVersion (s.arrive t) n sl.asn sl.kept l
      (mustWait s sl.asn n.nsid [(slba, nlb)] = false ∧ (∀ l ∈ lbas, s.media.damaged.contains (n.nsid, l) = false) ∧
      (pagesOf n slba nlb).all (pageResident n) = true) ∧
      ((∀ v ∈ lbas.zip vs, v.2.2 = true → OnDies s n (grainOf n v.1))) ∧ sl.sqe.body = .compare slba nlb) ∧
    (∃ (t : Tick) (sl : Slot) (n : Ns) (s : State), (Ready s sl ∧ checkIo (s.arrive t) sl = none ∧
      s.ns? sl.sqe.nsid = some n) ∧ ∃ (slba nlb : Nat), ((Body.ranges sl.sqe.body).head? = some (slba, nlb)) ∧
      let lbas := (List.range nlb).map (· + slba)
      let vs := lbas.map fun l => readVersion (s.arrive t) n sl.asn sl.kept l
      (mustWait s sl.asn n.nsid [(slba, nlb)] = false ∧ (∀ l ∈ lbas, s.media.damaged.contains (n.nsid, l) = false) ∧
      (pagesOf n slba nlb).all (pageResident n) = true) ∧
      ((∀ v ∈ lbas.zip vs, v.2.2 = true → OnDies s n (grainOf n v.1))) ∧ sl.sqe.body = .verify slba nlb) ∧
    (∃ (t : Tick) (sl : Slot) (n : Ns) (slba nlb : Nat) (fua : Bool) (s : State), Ready s sl ∧
      checkIo (s.arrive t) sl = none ∧ s.ns? sl.sqe.nsid = some n ∧ sl.sqe.body = .read slba nlb fua ∧
      mustWait s sl.asn n.nsid [(slba, nlb)] = true) ∧
    (∃ (t : Tick) (sl : Slot) (n : Ns) (slba nlb : Nat) (fua : Bool) (s : State), (s.slot? sl.ix = some sl ∧
      s.serving = true ∧ sl.phase = .waiting ∧ quiet s = true ∧ s.ns? sl.sqe.nsid = some n ∧
      sl.sqe.body = .read slba nlb fua ∧ mustWait s sl.asn n.nsid [(slba, nlb)] = false) ∧
      ((∀ l, slba ≤ l → l < slba + nlb → s.media.damaged.contains (n.nsid, l) = false ∧
      ((readVersion (s.arrive t) n sl.asn sl.kept l).2 = true → OnDies s n (grainOf n l)))) ∧
      (pagesOf n slba nlb).all (pageResident n) = true) ∧
    (∃ (sl : Slot) (s : State), s.slot? sl.ix = some sl ∧ s.serving = true ∧ sl.phase = .dma ∧ sl.orphan = false ∧
      sl.timers = [] ∧ (s.ctrl? sl.fn).isSome = true ∧ quiet s = true) :=
  ⟨⟨5, io 1 (.read 0 2 false), nsOne, with_ (io 1 (.read 0 2 false)), by decide +kernel, 0, 2, by decide +kernel,
      by decide +kernel, by intro v hv a; exfalso; revert v; decide +kernel, false, by decide +kernel⟩,
    ⟨5, io 1 (.compare 0 2), nsOne, with_ (io 1 (.compare 0 2)), by decide +kernel, 0, 2, by decide +kernel,
      by decide +kernel, by intro v hv a; exfalso; revert v; decide +kernel, by decide +kernel⟩,
    ⟨5, io 1 (.verify 0 2), nsOne, with_ (io 1 (.verify 0 2)), by decide +kernel, 0, 2, by decide +kernel,
      by decide +kernel, by intro v hv a; exfalso; revert v; decide +kernel, by decide +kernel⟩,
    ⟨5, io 1 (.read 0 2 false), nsOne, 0, 2, false,
      { with_ (io 1 (.read 0 2 false)) with slots := [io 1 (.read 0 2 false), older] }, by decide +kernel⟩,
    ⟨5, { io 1 (.read 0 2 false) with phase := .waiting }, nsOne, 0, 2, false,
      with_ { io 1 (.read 0 2 false) with phase := .waiting }, by decide +kernel,
      fun l h k => ⟨rfl, fun a => absurd a (by interval_cases l <;> decide +kernel)⟩, by decide +kernel⟩,
    ⟨{ io 1 (.read 0 2 false) with phase := .dma }, with_ { io 1 (.read 0 2 false) with phase := .dma },
      by decide +kernel⟩⟩

theorem witness_WritingCommandsComplete :
    (∃ (t : Tick) (sl : Slot) (n : Ns) (slba nlb : Nat) (fua : Bool) (s : State), Ready s sl ∧ Alone s sl ∧
      checkIo (s.arrive t) sl = none ∧ s.ns? sl.sqe.nsid = some n ∧ sl.sqe.body = .write slba nlb fua ∧
      (((touched n sl.sqe.body).all fun g => pageResident n (pageOf g)) = true) ∧ (∀ c ∈ s.ctrls, sl.ix ∉ c.aers) ∧
      sl.outcome = none ∧ piecesOf n slba nlb ≠ []) ∧
    (∃ (t : Tick) (sl : Slot) (i : Nat) (p : Piece) (s : State), s.serving = true ∧
      waitingPiece (s.arrive t) = some (sl, i) ∧ s.slot? sl.ix = some sl ∧ sl.pieces[i]? = some p ∧
      roomTaken (s.arrive t) + pieceBytes (s.arrive t) sl p ≤ s.repair.stagingKib * 1024) ∧
    (∃ (t : Tick) (sl : Slot) (n : Ns) (i : Nat) (p : Piece) (data : List (List Byte)) (s : State),
      s.slot? sl.ix = some sl ∧ Alone s sl ∧ s.serving = true ∧ quiet s = true ∧ s.ns? sl.sqe.nsid = some n ∧
      sl.phase = .dataIn ∧ sl.pieces[i]? = some p ∧ p.room = true ∧ p.arrived = none ∧ p.faulted = false ∧
      p.committed = false ∧ data.length = p.count ∧ isStaged s sl.asn n.nsid p.lba = false ∧
      (∀ q ∈ sl.pieces, q.faulted = false) ∧ (sl.pieces.map (·.lba)).Nodup ∧
      (cacheInForce (s.arrive t) sl.fn = true → ∀ q ∈ sl.pieces, (q.step < p.step → q.committed = true) ∧
      (q.step = p.step → q.lba = p.lba ∨ q.arrived.isSome = true))) ∧
    (∃ (sl : Slot) (i : Nat) (p : Piece) (s : State), (s.slot? sl.ix = some sl ∧ Alone s sl ∧ s.serving = true ∧
      quiet s = true ∧ sl.orphan = false ∧ sl.timers = [] ∧ (s.ctrl? sl.fn).isSome = true) ∧
      ((∃ a b f, sl.sqe.body = .write a b f)) ∧ sl.outcome = none ∧ sl.phase = .dataIn ∧ sl.pieces[i]? = some p ∧
      p.arrived = none ∧ (∀ q ∈ sl.pieces.take i, q.committed = true ∧ q.faulted = false) ∧ p.committed = false) ∧
    (∃ (t : Tick) (sl : Slot) (n : Ns) (s : State), (Ready s sl ∧ Alone s sl ∧ checkIo (s.arrive t) sl = none ∧
      s.ns? sl.sqe.nsid = some n ∧ (((touched n sl.sqe.body).all fun g => pageResident n (pageOf g)) = true) ∧
      (∀ q ∈ s.staged, q.asn ≠ sl.asn) ∧ (∀ c ∈ s.ctrls, sl.ix ∉ c.aers) ∧ sl.outcome = none ∧
      zeroPieces n (Body.ranges sl.sqe.body) ≠ []) ∧ ∃ (slba nlb : Nat), sl.sqe.body = .writeZeroes slba nlb) ∧
    (∃ (t : Tick) (sl : Slot) (n : Ns) (s : State), (Ready s sl ∧ Alone s sl ∧ checkIo (s.arrive t) sl = none ∧
      s.ns? sl.sqe.nsid = some n ∧ (((touched n sl.sqe.body).all fun g => pageResident n (pageOf g)) = true) ∧
      (∀ q ∈ s.staged, q.asn ≠ sl.asn) ∧ (∀ c ∈ s.ctrls, sl.ix ∉ c.aers) ∧ sl.outcome = none ∧
      zeroPieces n (Body.ranges sl.sqe.body) ≠ []) ∧ ∃ (rs : List (Nat × Nat)), sl.sqe.body = .dsm true rs) ∧
    (∃ (t : Tick) (sl : Slot) (rs : List (Nat × Nat)) (s : State), Ready s sl ∧ checkIo (s.arrive t) sl = none ∧
      (s.ns? sl.sqe.nsid).isSome = true ∧ sl.sqe.body = .dsm false rs) :=
  ⟨⟨5, io 1 (.write 0 2 false), nsOne, 0, 2, false, with_ (io 1 (.write 0 2 false)), by decide +kernel⟩,
    ⟨5, writing, 0, { lba := 0, count := 2 }, with_ writing, by decide +kernel⟩,
    ⟨5, { writing with pieces := [{ lba := 0, count := 2, room := true }] }, nsOne, 0,
      { lba := 0, count := 2, room := true }, [[], []],
      with_ { writing with pieces := [{ lba := 0, count := 2, room := true }] }, by decide +kernel⟩,
    ⟨writing, 0, { lba := 0, count := 2 }, with_ writing, by decide +kernel, ⟨0, 2, false, rfl⟩, by decide +kernel⟩,
    ⟨5, io 1 (.writeZeroes 1 2), nsOne,
      { with_ (io 1 (.writeZeroes 1 2)) with holdup := { on.holdup with proven := true, okStable := true } },
      by decide +kernel, 1, 2, by decide +kernel⟩,
    ⟨5, io 1 (.dsm true [(0, 2)]), nsOne,
      { with_ (io 1 (.dsm true [(0, 2)])) with holdup := { on.holdup with proven := true, okStable := true } },
      by decide +kernel, [(0, 2)], by decide +kernel⟩,
    ⟨5, io 1 (.dsm false [(0, 2)]), [(0, 2)], with_ (io 1 (.dsm false [(0, 2)])), by decide +kernel⟩⟩

theorem witness_FlushAndReservationsComplete :
    (∃ (sl : Slot) (s : State), Ready s sl ∧ Alone s sl ∧ sl.sqe.body = .flush ∧
      (∀ k ∈ namedNs s sl.fn sl.sqe.nsid, checkNs s sl k = none)) ∧
    (∃ (sl : Slot) (n : Ns) (s : State), (Ready s sl ∧ resvCheck s sl = none ∧ s.ns? sl.sqe.nsid = some n) ∧
      ∃ (a k k' : Nat), sl.sqe.body = .resvRegister a k k') ∧
    (∃ (sl : Slot) (n : Ns) (s : State), (Ready s sl ∧ resvCheck s sl = none ∧ s.ns? sl.sqe.nsid = some n) ∧
      ∃ (a ty k p : Nat), sl.sqe.body = .resvAcquire a ty k p) ∧
    (∃ (sl : Slot) (n : Ns) (s : State), (Ready s sl ∧ resvCheck s sl = none ∧ s.ns? sl.sqe.nsid = some n) ∧
      ∃ (a ty k : Nat), sl.sqe.body = .resvRelease a ty k) ∧
    (∃ (sl : Slot) (n : Ns) (s : State), Ready s sl ∧ resvCheck s sl = none ∧ s.ns? sl.sqe.nsid = some n ∧
      sl.sqe.body = .resvReport) :=
  ⟨⟨io 1 .flush, with_ (io 1 .flush), by decide +kernel⟩,
    ⟨io 1 (.resvRegister 0 0 7), nsOne, with_ (io 1 (.resvRegister 0 0 7)), by decide +kernel, 0, 0, 7,
      by decide +kernel⟩,
    ⟨io 1 (.resvAcquire 0 1 7 0), reserved, { with_ (io 1 (.resvAcquire 0 1 7 0)) with nss := [reserved] },
      by decide +kernel, 0, 1, 7, 0, by decide +kernel⟩,
    ⟨io 1 (.resvRelease 0 0 7), reserved, { with_ (io 1 (.resvRelease 0 0 7)) with nss := [reserved] },
      by decide +kernel, 0, 0, 7, by decide +kernel⟩,
    ⟨io 1 .resvReport, reserved, { with_ (io 1 .resvReport) with nss := [reserved] }, by decide +kernel⟩⟩

theorem witness_AdminReadsComplete :
    (∃ (t : Tick) (sl : Slot) (c : Ctrl) (s : State), (Ready s sl ∧ s.ctrl? sl.fn = some c) ∧ ∃ (cns csi : Nat),
      (sl.sqe.body = .identify cns csi) ∧ ∃ (bs : List Byte),
      (identifyData (s.arrive t) c sl.sqe.nsid cns csi = .ok bs) ∧ checkData sl.sqe 4096 = none) ∧
    (∃ (t : Tick) (sl : Slot) (c : Ctrl) (s : State), (Ready s sl ∧ s.ctrl? sl.fn = some c) ∧ ∃ (cns csi : Nat),
      (sl.sqe.body = .identify cns csi) ∧ ∃ (st : Status), identifyData (s.arrive t) c sl.sqe.nsid cns csi = .error st) ∧
    (∃ (t : Tick) (sl : Slot) (c : Ctrl) (s : State), (Ready s sl ∧ s.ctrl? sl.fn = some c) ∧ ∃ (lid off len : Nat),
      (sl.sqe.body = .getLog lid off len) ∧ ∃ (bs : List Byte),
      ((logVendor (s.arrive t) (.ten sl.fn.tenant) lid = some bs ∨ logVendor (s.arrive t) (.ten sl.fn.tenant) lid =
        none ∧ logNvme (s.arrive t) c lid = some bs)) ∧ off ≤ bs.length ∧ off % 4 = 0 ∧ checkData sl.sqe len = none) ∧
    (∃ (t : Tick) (sl : Slot) (c : Ctrl) (s : State), (Ready s sl ∧ s.ctrl? sl.fn = some c) ∧ ∃ (lid off len : Nat),
      sl.sqe.body = .getLog lid off len ∧ logVendor (s.arrive t) (.ten sl.fn.tenant) lid = none ∧
      logNvme (s.arrive t) c lid = none) ∧
    (∃ (sl : Slot) (c : Ctrl) (s : State), (Ready s sl ∧ s.ctrl? sl.fn = some c) ∧ ∃ (code : Nat),
      sl.sqe.body = .selfTest code ∧ (code = 1 ∨ code = 2 ∨ code = 14)) ∧
    (∃ (sl : Slot) (c : Ctrl) (s : State), (Ready s sl ∧ s.ctrl? sl.fn = some c) ∧ ∃ (code : Nat),
      sl.sqe.body = .selfTest code ∧ code = 15) ∧
    (∃ (sl : Slot) (c : Ctrl) (s : State), Ready s sl ∧ s.ctrl? sl.fn = some c ∧ sl.sqe.body = .miSend) ∧
    (∃ (sl : Slot) (c : Ctrl) (s : State), Ready s sl ∧ s.ctrl? sl.fn = some c ∧ sl.sqe.body = .miReceive) ∧
    (∃ (sl : Slot) (c : Ctrl) (s : State), (Ready s sl ∧ s.ctrl? sl.fn = some c) ∧ ∃ (action x : Nat),
      sl.sqe.body = .virtMgmt action x ∧ action ∈ [1, 7, 8, 9]) :=
  ⟨⟨5, ad 0 (.identify 1 0), ctl, with_ (ad 0 (.identify 1 0)), by decide +kernel, 1, 0, by decide +kernel, _, rfl,
      by decide +kernel⟩,
    ⟨5, ad 0 (.identify 0x55 0), ctl, with_ (ad 0 (.identify 0x55 0)), by decide +kernel, 0x55, 0, by decide +kernel,
      stField, by decide +kernel⟩,
    ⟨5, ad 0 (.getLog 1 0 64), ctl, with_ (ad 0 (.getLog 1 0 64)), by decide +kernel, 1, 0, 64, by decide +kernel,
      ((logNvme (with_ (ad 0 (.getLog 1 0 64))) ctl 1)).getD [], .inr ⟨rfl, rfl⟩, by decide +kernel⟩,
    ⟨5, ad 0 (.getLog 0x77 0 64), ctl, with_ (ad 0 (.getLog 0x77 0 64)), by decide +kernel, 0x77, 0, 64,
      by decide +kernel⟩,
    ⟨ad 0 (.selfTest 1), ctl, with_ (ad 0 (.selfTest 1)), by decide +kernel, 1, by decide +kernel⟩,
    ⟨ad 0 (.selfTest 15), ctl, with_ (ad 0 (.selfTest 15)), by decide +kernel, 15, by decide +kernel⟩,
    ⟨ad 0 .miSend, ctl, with_ (ad 0 .miSend), by decide +kernel⟩,
    ⟨ad 0 .miReceive, ctl, with_ (ad 0 .miReceive), by decide +kernel⟩,
    ⟨ad 0 (.virtMgmt 1 0), ctl, with_ (ad 0 (.virtMgmt 1 0)), by decide +kernel, 1, 0, by decide +kernel⟩⟩

theorem witness_NamespaceCommandsComplete :
    (∃ (t : Tick) (sl : Slot) (s : State), (Ready s sl ∧ Alone s sl) ∧ ∃ (bit : Nat) (c : Instr),
      (bit, c) ∈ [(0, Instr.namespaceManagement t sl.ix), (1, .formatNvm t sl.ix), (2, .sanitize t sl.ix)] ∧
      (match c with
        | .namespaceManagement .. => sl.sqe.body = .nsDelete
        | .formatNvm .. => ∃ l, sl.sqe.body = .format l
        | _ => ∃ a, sl.sqe.body = .sanitize a) ∧ adminMay s sl.fn bit = false) ∧
    (∃ (sl : Slot) (s : State), (Ready s sl ∧ Alone s sl) ∧ ∃ (nsze ncap lbaf : Nat),
      (sl.sqe.body = .nsCreate nsze ncap lbaf ∧ adminMay s sl.fn 0 = true ∧ checkData sl.sqe 4096 = none ∧ lbaf ≤ 1) ∧
      let lb := if lbaf = 0 then 4096 else 512
      0 < nsze ∧ ncap ≤ nsze ∧ nsze * lb % 2 ^ 25 = 0 ∧ ncap * lb % 2 ^ 25 = 0 ∧ freeNsids s ≠ []) ∧
    (∃ (sl : Slot) (s : State), (Ready s sl ∧ Alone s sl) ∧ ∃ (attach : Bool) (ids : List Nat) (n : Ns),
      sl.sqe.body = .nsAttach attach ids ∧ s.ns? sl.sqe.nsid = some n ∧ adminMay s sl.fn 0 = true ∧
      n.tenant = sl.fn.tenant ∧ checkData sl.sqe 4096 = none ∧ ids = [cntlid sl.fn] ∧ s.hasFn sl.fn = true ∧
      n.attached.contains sl.fn = !attach) ∧
    (∃ (sl : Slot) (s : State), (Ready s sl ∧ Alone s sl) ∧ ∃ (lbaf : Nat) (n : Ns), sl.sqe.body = .format lbaf ∧
      adminMay s sl.fn 1 = true ∧ lbaf ≤ 1 ∧ s.media.dev ≠ .preserve ∧ s.ns? sl.sqe.nsid = some n ∧
      sl.sqe.nsid ≠ 0xFFFFFFFF ∧ n.tenant = sl.fn.tenant ∧ n.attached.contains sl.fn = true ∧
      opRunning s sl.fn.tenant [sl.sqe.nsid] = none ∧ ioPending s sl.asn [sl.sqe.nsid] = false) ∧
    (∃ (sl : Slot) (s : State), (Ready s sl ∧ Alone s sl) ∧ ∃ (lbaf : Nat) (n : Ns), sl.sqe.body = .format lbaf ∧
      adminMay s sl.fn 1 = true ∧ lbaf ≤ 1 ∧ s.media.dev = .preserve ∧ s.ns? sl.sqe.nsid = some n ∧
      n.tenant = sl.fn.tenant ∧ n.attached.contains sl.fn = true ∧ sl.sqe.nsid ≠ 0xFFFFFFFF) ∧
    (∃ (sl : Slot) (s : State), (Ready s sl ∧ Alone s sl) ∧ ∃ (action : Nat), sl.sqe.body = .sanitize action ∧
      adminMay s sl.fn 2 = true ∧ opRunning s sl.fn.tenant (tenantNs s sl.fn.tenant) = none ∧
      ioPending s sl.asn (tenantNs s sl.fn.tenant) = false ∧ action = 4) ∧
    (∃ (sl : Slot) (s : State), Ready s sl ∧ Alone s sl ∧ sl.sqe.body = .sanitize 1 ∧ adminMay s sl.fn 2 = true) :=
  ⟨⟨5, ad 1 .nsDelete,
      { with_ (ad 1 .nsDelete) with tenants := [{ tenZero with cfg := { TenRec.blank 0 with hostAdmin := 0 } }] },
      by decide +kernel, 0, .namespaceManagement 5 8130, by decide +kernel⟩,
    ⟨ad 0xFFFFFFFF (.nsCreate 8192 8192 0), with_ (ad 0xFFFFFFFF (.nsCreate 8192 8192 0)), by decide +kernel, 8192,
      8192, 0, by decide +kernel, by decide +kernel⟩,
    ⟨ad 1 (.nsAttach true [cntlid fA]),
      { with_ (ad 1 (.nsAttach true [cntlid fA])) with nss := [{ nsOne with attached := [] }] }, by decide +kernel,
      true, [cntlid fA], { nsOne with attached := [] }, by decide +kernel⟩,
    ⟨ad 1 (.format 1), with_ (ad 1 (.format 1)), by decide +kernel, 1, nsOne, by decide +kernel⟩,
    ⟨ad 1 (.format 1), { with_ (ad 1 (.format 1)) with media := { on.media with dev := .preserve } },
      by decide +kernel, 1, nsOne, by decide +kernel⟩,
    ⟨ad 0 (.sanitize 4), with_ (ad 0 (.sanitize 4)), by decide +kernel, 4, by decide +kernel⟩,
    ⟨ad 0 (.sanitize 1), with_ (ad 0 (.sanitize 1)), by decide +kernel⟩⟩

theorem witness_ProgramCommandsComplete :
    (∃ (sl : Slot) (im : List Byte) (s : State), Ready s sl ∧ sl.sqe.body = .loadProgram true im ∧
      im.length ≤ 2 ^ 20 ∧ computeCheck s sl (computeNsid sl.fn.tenant) im.length = none ∧
      (tenantCfg s sl.fn.tenant).opQuota ≠ 0 ∧
      (imagesOf s sl.fn.tenant).length < (tenantCfg s sl.fn.tenant).imageQuota ∧ s.compute.images.length < 1024) ∧
    (∃ (sl : Slot) (k : Nat) (s : State), Ready s sl ∧ Alone s sl ∧ sl.sqe.body = .unloadProgram k ∧
      computeCheck s sl (computeNsid sl.fn.tenant) 0 = none ∧ (image? s sl.fn.tenant k).isSome = true) ∧
    (∃ (sl : Slot) (k : Nat) (on : Bool) (s : State), Ready s sl ∧ Alone s sl ∧ sl.sqe.body = .activate k on ∧
      computeCheck s sl (computeNsid sl.fn.tenant) 0 = none ∧ (image? s sl.fn.tenant k).isSome = true) ∧
    (∃ (t : Tick) (sl : Slot) (k : Nat) (args : List Byte) (data : List (List Byte)) (i : Image) (s : State),
      Ready s sl ∧ sl.sqe.body = .execute k args data ∧
      computeCheck s sl (computeNsid sl.fn.tenant) args.length = none ∧ image? s sl.fn.tenant k = some i ∧
      i.active = true ∧ i.deactivating = false ∧ i.unloading = false ∧ argsOk s sl.fn.tenant i.bytes args = true ∧
      (((List.range (gNProgs i.bytes)).all fun q => (progOf s sl.fn.tenant (gProgId i.bytes q)).isSome) = true) ∧
      s.run? sl.asn = none ∧ firnActs (s.arrive t) ≠ some .work ∧ neverFits s sl.fn.tenant i.bytes = false) :=
  ⟨⟨ad 0x10000 (.loadProgram true [1]), [1], with_ (ad 0x10000 (.loadProgram true [1])), by decide +kernel⟩,
    ⟨ad 0x10000 (.unloadProgram 1), 1, withProg (ad 0x10000 (.unloadProgram 1)) [], by decide +kernel⟩,
    ⟨ad 0x10000 (.activate 1 false), 1, false, withProg (ad 0x10000 (.activate 1 false)) [], by decide +kernel⟩,
    ⟨5, io 0x10000 (.execute 1 (zeros 8 ++ le 4 0xFFFFFFFF ++ zeros 52) []), 1,
      zeros 8 ++ le 4 0xFFFFFFFF ++ zeros 52, [], prog single,
      { withProg (io 0x10000 (.execute 1 (zeros 8 ++ le 4 0xFFFFFFFF ++ zeros 52) [])) single with firn := {} },
      by decide +kernel⟩⟩

theorem witness_MemoryCommandsComplete :
    (∃ (sl : Slot) (rs : List (Nat × Nat)) (s : State), Ready s sl ∧ sl.sqe.body = .rangeSetCreate rs ∧
      computeCheck s sl (computeNsid sl.fn.tenant) (16 * rs.length) = none ∧ rs.length ≤ 16 ∧
      (s.compute.sets.filter (·.tenant == sl.fn.tenant)).length < 64 ∧
      (∀ r ∈ rs, r.1 + r.2 ≤ (tenantCfg s sl.fn.tenant).slmSize)) ∧
    (∃ (sl : Slot) (id : Nat) (s : State), Ready s sl ∧ sl.sqe.body = .rangeSetDelete id ∧
      computeCheck s sl (computeNsid sl.fn.tenant) 0 = none ∧
      ((s.compute.sets.any fun q => q.tenant == sl.fn.tenant && q.id == id) = true) ∧
      ((s.compute.runs.any fun r => r.tenant == sl.fn.tenant && field r.args 8 4 == id) = false)) ∧
    (∃ (sl : Slot) (s : State), (Ready s sl ∧ slmMustWait s sl = false) ∧
      let size := (tenantCfg s sl.fn.tenant).slmSize
      ∃ (o l : Nat), sl.sqe.body = .slmRead o l ∧ computeCheck s sl (memoryNsid sl.fn.tenant) l = none ∧
      o + l ≤ size ∧ slmBad s sl.fn.tenant o l = []) ∧
    (∃ (sl : Slot) (s : State), (Ready s sl ∧ slmMustWait s sl = false) ∧
      let size := (tenantCfg s sl.fn.tenant).slmSize
      ∃ (o : Nat) (d : List Byte), sl.sqe.body = .slmWrite o d ∧
      computeCheck s sl (memoryNsid sl.fn.tenant) d.length = none ∧ o + d.length ≤ size) ∧
    (∃ (sl : Slot) (s : State), (Ready s sl ∧ slmMustWait s sl = false) ∧
      let size := (tenantCfg s sl.fn.tenant).slmSize
      ∃ (o l : Nat) (p : List Byte), sl.sqe.body = .slmFill o l p ∧
      computeCheck s sl (memoryNsid sl.fn.tenant) 0 = none ∧ o + l ≤ size) ∧
    (∃ (sl : Slot) (s : State), (Ready s sl ∧ slmMustWait s sl = false) ∧
      let size := (tenantCfg s sl.fn.tenant).slmSize
      ∃ (a b l : Nat), sl.sqe.body = .slmCopy a b l ∧ computeCheck s sl (memoryNsid sl.fn.tenant) 32 = none ∧
      a + l ≤ size ∧ b + l ≤ size ∧ slmBad s sl.fn.tenant a l = []) :=
  ⟨⟨ad 0x10000 (.rangeSetCreate [(0, 64)]), [(0, 64)], withSlm (ad 0x10000 (.rangeSetCreate [(0, 64)])),
      by decide +kernel⟩,
    ⟨ad 0x10000 (.rangeSetDelete 1), 1,
      { withSlm (ad 0x10000 (.rangeSetDelete 1)) with compute := { on.compute with sets := [⟨0, 1, []⟩] } },
      by decide +kernel⟩,
    ⟨io 0x10001 (.slmRead 0 8), withSlm (io 0x10001 (.slmRead 0 8)), by decide +kernel, 0, 8, by decide +kernel⟩,
    ⟨io 0x10001 (.slmWrite 4 [1, 2]), withSlm (io 0x10001 (.slmWrite 4 [1, 2])), by decide +kernel, 4, [1, 2],
      by decide +kernel⟩,
    ⟨io 0x10001 (.slmFill 0 8 [1, 2]), withSlm (io 0x10001 (.slmFill 0 8 [1, 2])), by decide +kernel, 0, 8, [1, 2],
      by decide +kernel⟩,
    ⟨io 0x10001 (.slmCopy 0 32 8), withSlm (io 0x10001 (.slmCopy 0 32 8)), by decide +kernel, 0, 32, 8,
      by decide +kernel⟩⟩

theorem witness_RunControlComplete :
    (∃ (t : Tick) (asn : Nat) (r : GRun) (asg bufs : List (Nat × Nat × Nat)) (s : State), s.run? asn = some r ∧
      mayRelease (s.arrive t) r = true ∧ placeRun (s.arrive t) r.tenant r.image s.compute.runs = some (asg, bufs) ∧
      releaseFault s r = none ∧ (∀ i < gNNodes r.image, classOut s (gNode r.image i).typ = false)) ∧
    (∃ (pos : Nat) (e : Engine) (asn node rep : Nat) (rest : List (Nat × Nat × Nat)) (r : GRun) (s : State),
      engineAt s pos = some e ∧ s.engine? e.ix = some e ∧ get? pos s.compute.ready = some ((asn, node, rep) :: rest) ∧
      s.serving = true ∧ e.job = none ∧ e.testing = false ∧ s.run? asn = some r) ∧
    (∃ (asn edge lane : Nat) (r : GRun) (c : Chunk) (s : State), (s.run? asn = some r ∧ s.serving = true ∧
      edge < gNEdges r.image) ∧
      let node := (gEdge r.image edge).dst
      let typ := (gNode r.image node).typ
      inLane r.image edge 0 (r.turn edge) = lane ∧ headChunk r edge 0 = some c ∧ c.poison = [] ∧
      typ ∈ [ntHostSink, ntSlmSink, ntCountSink]) ∧
    (∃ (asn edge lane : Nat) (r : GRun) (c : Chunk) (s : State), (s.run? asn = some r ∧ s.serving = true ∧
      edge < gNEdges r.image) ∧
      let node := (gEdge r.image edge).dst
      let typ := (gNode r.image node).typ
      (inLane r.image edge 0 (r.turn edge) = lane ∧ headChunk r edge 0 = some c ∧ c.poison = [] ∧ typ = ntFork) ∧
      let outs := (List.range (gNode r.image node).nout).filterMap (gOut r.image node)
      (∀ o ∈ outs, hasCredit r o 0 = true ∧ (r.lane o 0).backlog = [])) ∧
    (∃ (asn node rep : Nat) (r : GRun) (s : State), s.run? asn = some r ∧ s.serving = true ∧
      r.released.isSome = true ∧ node < gNNodes r.image ∧ (r.rep node rep).state ≠ .ended ∧
      repDone s r node rep = true ∧ (∃ x ∈ r.replicas, x.node = node ∧ x.ix = rep)) ∧
    (∃ (t : Tick) (asn node rep : Nat) (r : GRun) (d : Tick) (sl : Slot) (s : State), s.run? asn = some r ∧
      (r.rep node rep).state = .running ∧ (r.rep node rep).watchdogAt = some d ∧ d ≤ max s.now t ∧
      (s.awaited (nodeEndEvent asn node rep) d && repDone s r node rep) = false ∧
      lowerFails (s.arrive t) asn node = false ∧ s.slot? r.slot = some sl ∧ sl.ix = r.slot ∧ sl.orphan = false ∧
      sl.timers = [] ∧ s.pfail.stopped = false ∧ (s.ctrl? sl.fn).isSome = true ∧ quiet s = true) ∧
    (∃ (t : Tick) (tenant : Nat) (x : Tenant) (d : Tick) (s : State), s.tenant? tenant = some x ∧ x.graceAt = some d ∧
      d ≤ max s.now t ∧ s.pfail.stopped = false) :=
  ⟨⟨5, 5, waitingRun, ((placeRun (withRun waitingRun) 0 waitingRun.image [waitingRun]).getD ([], [])).1,
      ((placeRun (withRun waitingRun) 0 waitingRun.image [waitingRun]).getD ([], [])).2, withRun waitingRun,
      by decide +kernel⟩,
    ⟨0, { eng 0 with job := none }, 5, 1, 0, [], run 0x20 [] [7],
      { withRun (run 0x20 [] [7]) with
        engines := [{ eng 0 with job := none }],
        compute := { on.compute with runs := [run 0x20 [] [7]], ready := [(0, [(5, 1, 0)])] } }, by decide +kernel⟩,
    ⟨5, 1, 0, sinking, ⟨[7, 8], false, []⟩, withRun sinking, by decide +kernel, by decide +kernel⟩,
    ⟨5, 0, 0, run 0x21 [] [7], ⟨[7], false, []⟩, withRun (run 0x21 [] [7]), by decide +kernel, by decide +kernel,
      by decide +kernel⟩,
    ⟨5, 2, 0, endedSink, withRun endedSink, by decide +kernel⟩,
    ⟨9, 5, 1, 0,
      { run 0x20 [] [7] with replicas := [{ node := 1, ix := 0, state := .running, watchdogAt := some 9 }] }, 9,
      { io 0x10000 (.execute 1 [] []) with phase := .running },
      withRun { run 0x20 [] [7] with replicas := [{ node := 1, ix := 0, state := .running, watchdogAt := some 9 }] },
      by decide +kernel⟩,
    ⟨9, 0, { tenZero with graceAt := some 9, draining := true, state := .stopped }, 9,
      { withRun waitingRun with tenants := [{ tenZero with graceAt := some 9, draining := true, state := .stopped }] },
      by decide +kernel⟩⟩

theorem witness_MediaEventsComplete :
    (∃ (t : Tick) (d : DieId) (asn nsid g serial row ch step : Nat) (f : Fetch) (sl : Slot) (slba nlb : Nat) (fua :
        Bool) (s : State), (s.die d).op = some (.read (.host asn nsid g) serial row ch step) ∧
      (s.die d).resetting = false ∧ step ≠ 18 ∧ step ≠ 19 ∧
      (s.media.fetches.find? (·.use == .host asn nsid g)) = some f ∧ f.left = [(row, ch)] ∧ f.inflating = false ∧
      (s.slots.find? (·.asn == asn)) = some sl ∧ s.slot? sl.ix = some sl ∧ sl.sqe.body = .read slba nlb fua ∧
      sl.phase = .media ∧ sl.reads = [g] ∧ sl.lost = none ∧ quiet s = true ∧ firnActs (s.arrive t) ≠ some .still) ∧
    (∃ (t : Tick) (d : DieId) (u₀ : ReadUse) (serial row ch step : Nat) (s : State),
      (s.die d).op = some (.read u₀ serial row ch step) ∧ (s.die d).resetting = false ∧ step < 20 ∧
      firnActs (s.arrive t) ≠ some .still) ∧
    (∃ (asn nsid g : Nat) (f : Fetch) (sl : Slot) (slba nlb : Nat) (fua : Bool) (s : State),
      ((s.media.fetches.find? fun f => f.inflating && f.use.grain == some (nsid, g)) = some f) ∧
      f.use = .host asn nsid g ∧ ((s.units.felts.any fun f => 4 ≤ f.ix && f.inService) = true) ∧
      (s.slots.find? (·.asn == asn)) = some sl ∧ s.slot? sl.ix = some sl ∧ sl.sqe.body = .read slba nlb fua ∧
      sl.phase = .media ∧ sl.reads = [g] ∧ sl.lost = none ∧ quiet s = true) ∧
    (∃ (d : DieId) (num : Nat) (s : State), (s.die d).op = some (.erase num) ∧ (s.die d).resetting = false) ∧
    (∃ (t : Tick) (d : DieId) (o : DieOp) (p : Tick) (s : State), (s.die d).op = some o ∧ (s.die d).pollAt = some p ∧
      p ≤ max s.now t ∧ s.awaited (dieEvent d) p = false ∧ (s.die d).resetting = false) ∧
    (∃ (t : Tick) (d : DieId) (p : Tick) (s : State), (s.die d).pollAt = some p ∧ (s.die d).resetting = true ∧
      p ≤ max s.now t ∧ s.awaited (dieResetEvent d) p = false) ∧
    (∃ (s : State), s.pins.pwrgd = true) ∧
    (∃ (s : State), s.serving = true ∧ 262144 ≤ s.media.delta) ∧
    (∃ (nsid page : Nat) (n : Ns) (s : State), s.ns? nsid = some n ∧ page ∈ n.loading ∧ s.fw.pauseSince = none) ∧
    (∃ (nsid grain inst : Nat) (n : Ns) (p : Staged) (s : State), (s.ns? nsid = some n ∧ n.still = false ∧
      drainable s n grain = some p ∧ (∃ x ∈ s.units.felts, x.ix = inst ∧ inst < 4 ∧ x.inService = true) ∧
      s.fw.pauseSince = none ∧ pinsShort s n grain p = false ∧ s.serving = true ∧ n.key.isSome = true) ∧
      (150 ≤ freeShare s (domainOf grain)) ∧ grainBusy s nsid grain = false ∧ pageResident n (pageOf grain) = true ∧
      mergeReads s n p grain = false ∧ (mergeGrain s n p grain).2.2 = false) :=
  ⟨⟨5, d0, 5, 1, 0, 0, 0, 1, 1, hostFetch, reading, 0, 1, false,
      atRead { id := d0, op := some (.read (.host 5 1 0) 0 0 1 1) } hostFetch, by decide +kernel⟩,
    ⟨5, d0, .host 5 1 0, 0, 0, 1, 1, atRead { id := d0, op := some (.read (.host 5 1 0) 0 0 1 1) } hostFetch,
      by decide +kernel⟩,
    ⟨5, 1, 0, { hostFetch with left := [], inflating := true }, reading, 0, 1, false,
      atRead { id := d0 } { hostFetch with left := [], inflating := true }, by decide +kernel⟩,
    ⟨d0, 7, busy { id := d0, op := some (.erase 7) }, by decide +kernel⟩,
    ⟨9, d0, .erase 7, 9, busy { id := d0, op := some (.erase 7), pollAt := some 9 }, by decide +kernel⟩,
    ⟨9, d0, 9, busy { id := d0, pollAt := some 9, resetting := true }, by decide +kernel⟩,
    ⟨on, by decide +kernel⟩,
    ⟨{ on with media := { on.media with delta := 262144 } }, by decide +kernel⟩,
    ⟨1, 3, { nsOne with loading := [3] }, { on with nss := [{ nsOne with loading := [3] }] }, by decide +kernel⟩,
    ⟨1, 0, 0, nsOne, { asn := 3, nsid := 1, lba := 0, data := List.replicate 8 [7] },
      { on with staged := [{ asn := 3, nsid := 1, lba := 0, data := List.replicate 8 [7] }] }, by decide +kernel,
      by rw [freeShare_all _ _ rfl]; decide, by decide +kernel⟩⟩

theorem witness_UnitCommandsComplete :
    (∃ (t : Tick) (unit asn node rep : Nat) (r : GRun) (e : Nat) (c : Chunk) (s : State), s.run? asn = some r ∧
      gIn r.image node 0 = some e ∧ headChunk r e rep = some c ∧ s.serving = true ∧
      (gNode r.image node).typ = ntSieve ∧ unit < 16 ∧ s.units.sievesOut.contains unit = false ∧
      chunkReady r node rep = true ∧ unitMayServe (s.arrive t) 0 asn = true ∧ c.poison = []) ∧
    (∃ (t : Tick) (inst asn node rep : Nat) (r : GRun) (e : Nat) (c : Chunk) (s : State), (s.run? asn = some r ∧
      gIn r.image node 0 = some e ∧ headChunk r e rep = some c ∧ s.serving = true ∧ chunkReady r node rep = true ∧
      c.poison = [] ∧ (s.units.felts.find? (·.ix == inst)).map (·.inService) = some true) ∧
      let stream := field (gParam r.image (gNode r.image node)) 1 1 = 0
      (gNode r.image node).typ = ntFeltPack ∧ inst < 4 ∧ unitMayServe (s.arrive t) 1 asn = true ∧ ¬ stream) ∧
    (∃ (t : Tick) (inst asn node rep : Nat) (r : GRun) (e : Nat) (c : Chunk) (s : State), (s.run? asn = some r ∧
      gIn r.image node 0 = some e ∧ headChunk r e rep = some c ∧ s.serving = true ∧ chunkReady r node rep = true ∧
      c.poison = [] ∧ (s.units.felts.find? (·.ix == inst)).map (·.inService) = some true) ∧
      let stream := field (gParam r.image (gNode r.image node)) 1 1 = 0
      ((gNode r.image node).typ = ntFeltPack ∧ inst < 4 ∧ unitMayServe (s.arrive t) 1 asn = true ∧ stream) ∧
      ∃ (b : State), feltBind inst asn node rep (s.arrive t) = some b) ∧
    (∃ (t : Tick) (inst asn node rep : Nat) (r : GRun) (e : Nat) (c : Chunk) (s : State), (s.run? asn = some r ∧
      gIn r.image node 0 = some e ∧ headChunk r e rep = some c ∧ s.serving = true ∧ chunkReady r node rep = true ∧
      c.poison = [] ∧ (s.units.felts.find? (·.ix == inst)).map (·.inService) = some true) ∧
      let stream := field (gParam r.image (gNode r.image node)) 1 1 = 0
      (gNode r.image node).typ = ntFeltUnpack ∧ 4 ≤ inst ∧ inst ≤ 7 ∧ unitMayServe (s.arrive t) 2 asn = true ∧
      feltFree s = true ∧ ¬ stream) ∧
    (∃ (t : Tick) (inst asn node rep : Nat) (r : GRun) (e : Nat) (c : Chunk) (s : State), (s.run? asn = some r ∧
      gIn r.image node 0 = some e ∧ headChunk r e rep = some c ∧ s.serving = true ∧ chunkReady r node rep = true ∧
      c.poison = [] ∧ (s.units.felts.find? (·.ix == inst)).map (·.inService) = some true) ∧
      let stream := field (gParam r.image (gNode r.image node)) 1 1 = 0
      ((gNode r.image node).typ = ntFeltUnpack ∧ 4 ≤ inst ∧ inst ≤ 7 ∧ unitMayServe (s.arrive t) 2 asn = true ∧
      feltFree s = true ∧ stream) ∧ ∃ (b : State), feltBind inst asn node rep (s.arrive t) = some b) ∧
    (∃ (t : Tick) (u asn node rep : Nat) (x : Unit8) (r : GRun) (key : List Byte) (ks kg : Nat) (s : State),
      unit? s u = some x ∧ s.run? asn = some r ∧ s.serving = true ∧ x.inService = true ∧ x.job = none ∧
      nextJob (s.arrive t) u = some (asn, node, rep) ∧ ((x.store.find? fun j => j.is asn node rep) = none) ∧
      ((s.units.wrapped.find? fun w => w.2.2.is asn node rep) = none) ∧ jobKey s r node = some (key, ks, kg) ∧
      ((gNode r.image node).typ = ntDigest → field (gParam r.image (gNode r.image node)) 1 1 ≠ 1) ∧ quiet s = true) ∧
    (∃ (t : Tick) (u asn node rep : Nat) (x : Unit8) (r : GRun) (j : Job) (s : State), unit? s u = some x ∧
      s.run? asn = some r ∧ s.serving = true ∧ x.inService = true ∧ x.job = none ∧
      nextJob (s.arrive t) u = some (asn, node, rep) ∧ ((x.store.find? fun j => j.is asn node rep) = some j) ∧
      (j.kslot = 0 ∨ (keySlot s j.kslot).gen = j.kgen) ∧ quiet s = true) ∧
    (∃ (t : Tick) (u : Nat) (x : Unit8) (j : Job) (r : GRun) (e : Nat) (bs : List Byte) (s : State),
      (unit? s u = some x ∧ x.job = some j ∧ s.run? j.asn = some r ∧ gIn r.image j.node 0 = some e ∧
      s.serving = true ∧ x.inService = true ∧ jobReady (s.arrive t) r j.node j.replica = true ∧
      (jobTake r e j.replica (if u < 4 then 64 else 128) = (bs, false)) ∧
      (((jobConsume j.asn e j.replica bs.length (s.arrive t)).run? j.asn).map (fun r => atEnd r e j.replica) = some
        false)) ∧ ∃ (c : Instr), ((u < 4 ∧ c = .cipherUnit t u) ∨ (4 ≤ u ∧ u < 8 ∧ c = .digestBlock t (u - 4)))) :=
  ⟨⟨5, 0, 5, 1, 0, run 0x10 (le 2 1 ++ [0, 0, 0] ++ zeros 235) [7, 8], 0, ⟨[7, 8], false, []⟩,
      withRun (run 0x10 (le 2 1 ++ [0, 0, 0] ++ zeros 235) [7, 8]), by decide +kernel⟩,
    ⟨5, 0, 5, 1, 0, run 0x11 ([0, 1] ++ zeros 22) [7, 8], 0, ⟨[7, 8], false, []⟩,
      withRun (run 0x11 ([0, 1] ++ zeros 22) [7, 8]), by decide +kernel, by decide +kernel⟩,
    ⟨5, 0, 5, 1, 0, run 0x11 (zeros 24) [7, 8], 0, ⟨[7, 8], false, []⟩, withRun (run 0x11 (zeros 24) [7, 8]),
      by decide +kernel, by decide +kernel,
      ((feltBind 0 5 1 0 ((withRun (run 0x11 (zeros 24) [7, 8])).arrive 5))).getD on, by decide +kernel⟩,
    ⟨5, 4, 5, 1, 0, run 0x12 ([0, 1] ++ zeros 22) [7, 8], 0, ⟨[7, 8], false, []⟩,
      withRun (run 0x12 ([0, 1] ++ zeros 22) [7, 8]), by decide +kernel, by decide +kernel⟩,
    ⟨5, 4, 5, 1, 0, run 0x12 (zeros 24) [7, 8], 0, ⟨[7, 8], false, []⟩, withRun (run 0x12 (zeros 24) [7, 8]),
      by decide +kernel, by decide +kernel,
      ((feltBind 4 5 1 0 ((withRun (run 0x12 (zeros 24) [7, 8])).arrive 5))).getD on, by decide +kernel⟩,
    ⟨5, 0, 5, 1, 0, ⟨0, true, none, [], 0⟩, ciphered, keyed.key.take 32, 2, 0,
      { withRun ciphered with units := { on.units with waiting := [(false, 5, 1, 0)], keys := [keyed] } },
      by decide +kernel⟩,
    ⟨5, 0, 5, 1, 0, ⟨0, true, none, [aJob], 0⟩, ciphered, aJob,
      { withRun ciphered with
        units := { on.units with
          lanes := [⟨0, true, none, [aJob], 0⟩],
          waiting := [(false, 5, 1, 0)],
          keys := [keyed] } }, by decide +kernel⟩,
    ⟨5, 0, ⟨0, true, some aJob, [], 0⟩, aJob, ciphered, 0, List.replicate 16 7,
      { withRun ciphered with units := { on.units with lanes := [⟨0, true, some aJob, [], 0⟩], keys := [keyed] } },
      by decide +kernel, .cipherUnit 5 0, by decide +kernel⟩⟩

theorem witness_TwillCommandsComplete :
    (∃ (t : Tick) (asn node : Nat) (r : GRun) (e : Nat) (bs old : List Byte) (s : State),
      outBacklog s asn node 0 = some old ∧ (twPart s r.tenant).bad = [] ∧ TwillReady (s.arrive t) 1 asn node r e bs) ∧
    (∃ (t : Tick) (asn node : Nat) (r : GRun) (e : Nat) (bs old : List Byte) (s : State),
      outBacklog s asn node 0 = some old ∧ (twPart s r.tenant).bad = [] ∧ TwillReady (s.arrive t) 2 asn node r e bs) ∧
    (∃ (t : Tick) (asn node : Nat) (r : GRun) (e : Nat) (bs old : List Byte) (s : State),
      outBacklog s asn node 0 = some old ∧ (twPart s r.tenant).bad = [] ∧ TwillReady (s.arrive t) 3 asn node r e bs) ∧
    (∃ (t : Tick) (asn node : Nat) (r : GRun) (e : Nat) (bs old : List Byte) (s : State),
      outBacklog s asn node 0 = some old ∧ (twPart s r.tenant).bad = [] ∧ TwillReady (s.arrive t) 4 asn node r e bs) ∧
    (∃ (t : Tick) (asn node : Nat) (r : GRun) (e : Nat) (bs old : List Byte) (s : State),
      outBacklog s asn node 0 = some old ∧ (twPart s r.tenant).bad = [] ∧ TwillReady (s.arrive t) 5 asn node r e bs) ∧
    (∃ (t : Tick) (asn node : Nat) (r : GRun) (e : Nat) (bs old : List Byte) (s : State),
      (outBacklog s asn node 0 = some old ∧ (twPart s r.tenant).bad = [] ∧
      field (gParam r.image (gNode r.image node)) 0 4 % 2 = 1) ∧
      let q := twReq bs
      let now := (twPart s r.tenant).entries.find? (·.key == q.key)
      (TwillReady (s.arrive t) 0x10 asn node r e bs) ∧ ∃ (x : TwEntry), now = some x) ∧
    (∃ (t : Tick) (asn node : Nat) (r : GRun) (e : Nat) (bs old : List Byte) (s : State),
      (outBacklog s asn node 0 = some old ∧ (twPart s r.tenant).bad = [] ∧
      field (gParam r.image (gNode r.image node)) 0 4 % 2 = 1) ∧
      let q := twReq bs
      let now := (twPart s r.tenant).entries.find? (·.key == q.key)
      TwillReady (s.arrive t) 0x10 asn node r e bs ∧ now = none ∧ twRoom s r.tenant = true) ∧
    (∃ (t : Tick) (asn node : Nat) (r : GRun) (e : Nat) (bs old : List Byte) (s : State),
      (outBacklog s asn node 0 = some old ∧ (twPart s r.tenant).bad = [] ∧
      field (gParam r.image (gNode r.image node)) 0 4 % 2 = 1) ∧
      let q := twReq bs
      let now := (twPart s r.tenant).entries.find? (·.key == q.key)
      TwillReady (s.arrive t) 0x10 asn node r e bs ∧ now = none ∧ twRoom s r.tenant = false) ∧
    (∃ (t : Tick) (asn node : Nat) (r : GRun) (e : Nat) (bs old : List Byte) (s : State),
      (outBacklog s asn node 0 = some old ∧ (twPart s r.tenant).bad = [] ∧
      field (gParam r.image (gNode r.image node)) 0 4 % 2 = 1) ∧
      let q := twReq bs
      let now := (twPart s r.tenant).entries.find? (·.key == q.key)
      (TwillReady (s.arrive t) 0x11 asn node r e bs) ∧ ∃ (x : TwEntry), now = some x) ∧
    (∃ (t : Tick) (asn node : Nat) (r : GRun) (e : Nat) (bs old : List Byte) (s : State),
      (outBacklog s asn node 0 = some old ∧ (twPart s r.tenant).bad = [] ∧
      field (gParam r.image (gNode r.image node)) 0 4 % 2 = 1) ∧
      let q := twReq bs
      let now := (twPart s r.tenant).entries.find? (·.key == q.key)
      TwillReady (s.arrive t) 0x11 asn node r e bs ∧ now = none ∧ twRoom s r.tenant = true) ∧
    (∃ (t : Tick) (asn node : Nat) (r : GRun) (e : Nat) (bs old : List Byte) (s : State),
      (outBacklog s asn node 0 = some old ∧ (twPart s r.tenant).bad = [] ∧
      field (gParam r.image (gNode r.image node)) 0 4 % 2 = 1) ∧
      let q := twReq bs
      let now := (twPart s r.tenant).entries.find? (·.key == q.key)
      (TwillReady (s.arrive t) 0x12 asn node r e bs) ∧ ∃ (x : TwEntry), now = some x) ∧
    (∃ (t : Tick) (asn node : Nat) (r : GRun) (e : Nat) (bs old : List Byte) (s : State),
      (outBacklog s asn node 0 = some old ∧ (twPart s r.tenant).bad = [] ∧
      field (gParam r.image (gNode r.image node)) 0 4 % 2 = 1) ∧
      let q := twReq bs
      let now := (twPart s r.tenant).entries.find? (·.key == q.key)
      TwillReady (s.arrive t) 0x12 asn node r e bs ∧ now = none) ∧
    (∃ (t : Tick) (asn node : Nat) (r : GRun) (e : Nat) (bs old : List Byte) (s : State),
      (outBacklog s asn node 0 = some old ∧ (twPart s r.tenant).bad = [] ∧
      field (gParam r.image (gNode r.image node)) 0 4 % 2 = 1) ∧
      let q := twReq bs
      let now := (twPart s r.tenant).entries.find? (·.key == q.key)
      (TwillReady (s.arrive t) 0x13 asn node r e bs) ∧ ∃ (x : TwEntry), now = some x) ∧
    (∃ (t : Tick) (asn node : Nat) (r : GRun) (e : Nat) (bs old : List Byte) (s : State),
      (outBacklog s asn node 0 = some old ∧ (twPart s r.tenant).bad = [] ∧
      field (gParam r.image (gNode r.image node)) 0 4 % 2 = 1) ∧
      let q := twReq bs
      let now := (twPart s r.tenant).entries.find? (·.key == q.key)
      TwillReady (s.arrive t) 0x13 asn node r e bs ∧ now = none) ∧
    (∃ (t : Tick) (asn node : Nat) (r : GRun) (e : Nat) (bs : List Byte) (s : State), (s.run? asn = some r ∧
      s.serving = true ∧ (gNode r.image node).typ = ntTwill ∧ s.units.twillIn = true ∧ workPort r node 0 = 1 ∧
      gIn r.image node 1 = some e ∧ chunkReady r node 0 = true ∧ unitMayServe (s.arrive t) 3 asn = true ∧
      twHead r node = some (e, bs, false) ∧ field bs 24 8 = 0) ∧
      let key := unbe (slice bs 0 16)
      (∀ k, (r.rep node 0).bulkLast = some k → k < key) ∧ (twPart s r.tenant).bad = [] ∧
      (((twPart s r.tenant).entries.find? (·.key == key)).isSome = true ∨ twRoom s r.tenant = true)) ∧
    (∃ (s : State), s.boot.life = .running ∧ s.units.twillIn = true) :=
  ⟨⟨5, 5, 1, twAt 1 0 0 9, 0, twBytes 1 0 0 9, [], twOn (twAt 1 0 0 9), by decide +kernel⟩,
    ⟨5, 5, 1, twAt 2 0 0 7, 0, twBytes 2 0 0 7, [], twOn (twAt 2 0 0 7), by decide +kernel⟩,
    ⟨5, 5, 1, twAt 3 0 0 7, 0, twBytes 3 0 0 7, [], twOn (twAt 3 0 0 7), by decide +kernel⟩,
    ⟨5, 5, 1, twAt 4 0 0 5, 0, twBytes 4 0 0 5, [], twOn (twAt 4 0 0 5), by decide +kernel⟩,
    ⟨5, 5, 1, twAt 5 2 0 5, 0, twBytes 5 2 0 5, [], twOn (twAt 5 2 0 5), by decide +kernel⟩,
    ⟨5, 5, 1, twAt 0x10 0 7 9, 0, twBytes 0x10 0 7 9, [], twOn (twAt 0x10 0 7 9), by decide +kernel,
      by decide +kernel, ⟨8, 9, 90⟩, by decide +kernel⟩,
    ⟨5, 5, 1, twAt 0x10 0 7 8, 0, twBytes 0x10 0 7 8, [], twOn (twAt 0x10 0 7 8), by decide +kernel,
      by decide +kernel⟩,
    ⟨5, 5, 1, twAt 0x10 0 7 8, 0, twBytes 0x10 0 7 8, [],
      { twOn (twAt 0x10 0 7 8) with tenants := [{ tenZero with cfg := { TenRec.blank 0 with twillSlots := 0 } }] },
      by decide +kernel, by decide +kernel⟩,
    ⟨5, 5, 1, twAt 0x11 0 7 9, 0, twBytes 0x11 0 7 9, [], twOn (twAt 0x11 0 7 9), by decide +kernel,
      by decide +kernel, ⟨8, 9, 90⟩, by decide +kernel⟩,
    ⟨5, 5, 1, twAt 0x11 0 7 8, 0, twBytes 0x11 0 7 8, [], twOn (twAt 0x11 0 7 8), by decide +kernel,
      by decide +kernel⟩,
    ⟨5, 5, 1, twAt 0x12 0 7 9, 0, twBytes 0x12 0 7 9, [], twOn (twAt 0x12 0 7 9), by decide +kernel,
      by decide +kernel, ⟨8, 9, 90⟩, by decide +kernel⟩,
    ⟨5, 5, 1, twAt 0x12 0 7 8, 0, twBytes 0x12 0 7 8, [], twOn (twAt 0x12 0 7 8), by decide +kernel,
      by decide +kernel⟩,
    ⟨5, 5, 1, twAt 0x13 0 0 9, 0, twBytes 0x13 0 0 9, [], twOn (twAt 0x13 0 0 9), by decide +kernel,
      by decide +kernel, ⟨8, 9, 90⟩, by decide +kernel⟩,
    ⟨5, 5, 1, twAt 0x13 0 0 8, 0, twBytes 0x13 0 0 8, [], twOn (twAt 0x13 0 0 8), by decide +kernel,
      by decide +kernel⟩,
    ⟨5, 5, 1, bulkRun (zeros 15 ++ [7] ++ le 8 70 ++ zeros 8), 1, zeros 15 ++ [7] ++ le 8 70 ++ zeros 8,
      withRun (bulkRun (zeros 15 ++ [7] ++ le 8 70 ++ zeros 8)), by decide +kernel, by decide +kernel⟩,
    ⟨{ on with twill := { on.twill with parts := [{ tenant := 0, entries := twPairs }] } }, by decide +kernel⟩⟩

theorem witness_MailboxChecksInOrder :
    (∃ (fm : Form) (q : Rq) (s : State), isParked s q fm.code = true ∧ mailboxAwake s = true ∧
      waitsBehind s q fm.code ((s.ep q.ep).parked.getD 0) = false) ∧
    (∃ (fm : Form) (q : Rq) (s : State), isParked s q fm.code = false ∧ mailboxAwake s = true ∧ carried s q = true ∧
      q.delivered < 16) ∧
    (∃ (fm : Form) (q : Rq) (s : State), isParked s q fm.code = false ∧ mailboxAwake s = true ∧ carried s q = true ∧
      16 ≤ q.delivered ∧ q.delivered ≠ q.length) ∧
    (∃ (fm : Form) (q : Rq) (s : State), isParked s q fm.code = false ∧ mailboxAwake s = true ∧ carried s q = true ∧
      16 ≤ q.delivered ∧ q.delivered = q.length ∧ epBusy s q = true) ∧
    (∃ (fm : Form) (q : Rq) (s : State), (isParked s q fm.code = false ∧ mailboxAwake s = true ∧ carried s q = true ∧
      16 ≤ q.delivered ∧ q.delivered = q.length ∧ epBusy s q = false ∧ (s.ep q.ep).executing = none) ∧
      ∃ (st : Nat) (body : List Byte), (s.ep q.ep).stored = some (q.seq, fm.code, st, body)) ∧
    (∃ (fm : Form) (q : Rq) (s : State), isParked s q fm.code = false ∧ mailboxAwake s = true ∧ carried s q = true ∧
      16 ≤ q.delivered ∧ q.delivered = q.length ∧ epBusy s q = false ∧ (s.ep q.ep).executing = none ∧
      (∀ y, (s.ep q.ep).stored = some y → ¬ (y.1 = q.seq ∧ y.2.1 = fm.code)) ∧ answersNow s fm.code = false) ∧
    (∃ (fm : Form) (q : Rq) (s : State), isParked s q fm.code = false ∧ mailboxAwake s = true ∧ carried s q = true ∧
      16 ≤ q.delivered ∧ q.delivered = q.length ∧ epBusy s q = false ∧ (s.ep q.ep).executing = none ∧
      (∀ y, (s.ep q.ep).stored = some y → ¬ (y.1 = q.seq ∧ y.2.1 = fm.code)) ∧ answersNow s fm.code = true ∧
      q.length ≠ 16 + fm.body) ∧
    (∃ (fm : Form) (q : Rq) (s : State), isParked s q fm.code = false ∧ mailboxAwake s = true ∧ carried s q = true ∧
      16 ≤ q.delivered ∧ q.delivered = q.length ∧ epBusy s q = false ∧ (s.ep q.ep).executing = none ∧
      (∀ y, (s.ep q.ep).stored = some y → ¬ (y.1 = q.seq ∧ y.2.1 = fm.code)) ∧ answersNow s fm.code = true ∧
      q.length = 16 + fm.body ∧ q.length % 4 = 0 ∧ q.length ≤ 4096 ∧ 1 < q.flags) ∧
    (∃ (fm : Form) (q : Rq) (s : State), isParked s q fm.code = false ∧ mailboxAwake s = true ∧ carried s q = true ∧
      16 ≤ q.delivered ∧ q.delivered = q.length ∧ epBusy s q = false ∧ (s.ep q.ep).executing = none ∧
      (∀ y, (s.ep q.ep).stored = some y → ¬ (y.1 = q.seq ∧ y.2.1 = fm.code)) ∧ answersNow s fm.code = true ∧
      q.length = 16 + fm.body ∧ q.length % 4 = 0 ∧ q.length ≤ 4096 ∧ q.flags ≤ 1 ∧ q.bodyReserved = false ∧
      fm.badField = false ∧ (if fm.device then q.tenant = 0xFFFF else q.tenant ≤ 255) ∧
      fm.roles (roleOf s q.ep) = false) ∧
    (∃ (fm : Form) (q : Rq) (s : State), isParked s q fm.code = false ∧ mailboxAwake s = true ∧ carried s q = true ∧
      16 ≤ q.delivered ∧ q.delivered = q.length ∧ epBusy s q = false ∧ (s.ep q.ep).executing = none ∧
      (∀ y, (s.ep q.ep).stored = some y → ¬ (y.1 = q.seq ∧ y.2.1 = fm.code)) ∧ answersNow s fm.code = true ∧
      q.length = 16 + fm.body ∧ q.length % 4 = 0 ∧ q.length ≤ 4096 ∧ q.flags ≤ 1 ∧ q.bodyReserved = false ∧
      fm.badField = false ∧ (if fm.device then q.tenant = 0xFFFF else q.tenant ≤ 255) ∧
      fm.roles (roleOf s q.ep) = true ∧ notForTenant s q fm (roleOf s q.ep) = false ∧
      waitsBehind s q fm.code (s.now + 1) = true) :=
  ⟨⟨{ code := 0x0101, body := 0, roles := fun _ => true }, dev 0,
      { on with eps := [{ ep := mc, executing := some (dev 0, 0x0101, 9, false), parked := some 3 }] },
      by decide +kernel⟩,
    ⟨{ code := 0x0101, body := 0, roles := fun _ => true }, { dev 0 with delivered := 8 }, on, by decide +kernel⟩,
    ⟨{ code := 0x0101, body := 0, roles := fun _ => true }, { dev 0 with delivered := 20 }, on, by decide +kernel⟩,
    ⟨{ code := 0x0101, body := 0, roles := fun _ => true }, dev 0,
      { on with eps := [{ ep := mc, executing := some (dev 0, 0x0207, 9, false) }] }, by decide +kernel⟩,
    ⟨{ code := 0x0101, body := 0, roles := fun _ => true }, dev 0,
      { on with eps := [{ ep := mc, stored := some (1, 0x0101, 0, [7]) }] }, by decide +kernel, 0, [7],
      by decide +kernel⟩,
    ⟨{ code := 0x0201, body := 8, roles := fun _ => true }, dev 8,
      { on with boot := { on.boot with life := .starting } }, by decide +kernel⟩,
    ⟨{ code := 0x0201, body := 8, roles := fun _ => true }, dev 12, on, by decide +kernel⟩,
    ⟨{ code := 0x0201, body := 8, roles := fun _ => true }, { dev 8 with flags := 2 }, on, by decide +kernel⟩,
    ⟨{ code := 0x0201, body := 8, device := true, roles := fun _ => false }, dev 8, on, by decide +kernel⟩,
    ⟨{ code := 0x0202, body := 8, device := true, roles := fun _ => true }, dev 8,
      { on with eps := [{ ep := .fn fA, executing := some (dev 8, 0x0203, 9, false) }] }, by decide +kernel⟩⟩

theorem witness_MailboxEventsComplete :
    (∃ (t : Tick) (ep : Endpoint) (q : Rq) (op : Nat) (limit : Tick) (s : State),
      (s.ep ep).executing = some (q, op, limit, false) ∧ limit ≤ max s.now t ∧ s.pfail.stopped = false ∧
      (((s.arrive t).replay answerEvents limit).ep ep).executing.map (·.1) = some q) ∧
    (∃ (t : Nat) (ep : Endpoint) (k tn last : Nat) (s : State), (s.ep ep).session = some (k, tn, last) ∧
      last + 900 * ticksPerS ≤ max s.now t) ∧
    (∃ (t : Nat) (ep : Endpoint) (n : List Byte) (at_ : Nat) (s : State), (s.ep ep).nonce = some (n, at_) ∧
      at_ + 60 * ticksPerS ≤ max s.now t) ∧
    (∃ (t : Nat) (n : List Byte) (at_ : Nat) (s : State), s.owner.debugNonce = some (n, at_) ∧
      at_ + 600 * ticksPerS ≤ max s.now t) ∧
    (∃ (t : Tick) (ep : Endpoint) (d : Tick) (s : State), (s.ep ep).lockout = some d ∧ d ≤ max s.now t) ∧
    (∃ (q : Rq) (op body : Nat) (s : State), (Accepted s q op body true ∨ Accepted s q op body false) ∧
      s.boot.life = .running) ∧
    (∃ (f : Fn) (c : Ctrl) (s : State), hostReaches s f = true ∧ s.ctrl? f = some c) :=
  ⟨⟨9, mc, dev 0, 0x0207, 9, { on with eps := [{ ep := mc, executing := some (dev 0, 0x0207, 9, false) }] },
      by decide +kernel⟩,
    ⟨900 * ticksPerS, mc, 1, 0, 0, owned, by decide +kernel⟩,
    ⟨60 * ticksPerS, mc, [], 0, { on with eps := [{ ep := mc, nonce := some ([], 0) }] }, by decide +kernel⟩,
    ⟨600 * ticksPerS, [], 0, { on with owner := { on.owner with debugNonce := some ([], 0) } }, by decide +kernel⟩,
    ⟨5, mc, 5, { on with eps := [{ ep := mc, lockout := some 5 }] }, by decide +kernel⟩,
    ⟨dev 0, 0x9999, 0, on, by decide +kernel⟩,
    ⟨fA, { ctl with devErr := ⟨true, true, 16⟩ }, { on with ctrls := [{ ctl with devErr := ⟨true, true, 16⟩ }] },
      by decide +kernel⟩⟩

theorem witness_TenantRequestsComplete :
    (∃ (t : Tick) (q : Rq) (role tenant : Nat) (s : State), Accepted s q 0x0102 4 false ∧
      roleBad role tenant = false ∧ sessionPlace role tenant q.ep = true ∧
      (((s.ep q.ep).lockout.map fun d => decide (max s.now t < d)).getD false = false)) ∧
    (∃ (t : Tick) (q : Rq) (role tenant : Nat) (s : State), (Accepted s q 0x0102 4 false ∧
      roleBad role tenant = false) ∧ ∃ (d : Tick), (s.ep q.ep).lockout = some d ∧ max s.now t < d) ∧
    (∃ (t : Tick) (q : Rq) (role tenant : Nat) (s : State), (Accepted s q 0x0103 8 false ∧
      roleBad role tenant = false ∧ sessionPlace role tenant q.ep = true) ∧ ∃ (n : List Byte) (at_ : Tick),
      (s.ep q.ep).nonce = some (n, at_) ∧ max s.now t ≤ at_ + 60 * ticksPerS) ∧
    (∃ (q : Rq) (role tenant : Nat) (s : State), Accepted s q 0x0103 8 false ∧ roleBad role tenant = false ∧
      sessionPlace role tenant q.ep = true ∧ (s.ep q.ep).nonce = none) ∧
    (∃ (q : Rq) (s : State), Accepted s q 0x0104 0 false ∧ (s.ep q.ep).session.isSome = true) ∧
    (∃ (tn : Nat) (x : Tenant) (s : State), s.tenant? tn = some x ∧ x.draining = true ∧ drained s tn = true) ∧
    (∃ (q : Rq) (graceMs : Nat) (x : Tenant) (s : State), Accepted s q 0x0303 4 false ∧ roleOf s q.ep = .owner ∧
      graceMs ≤ 60000 ∧ s.tenant? q.tenant = some x ∧ x.state = .running ∧ x.draining = false ∧
      drained s q.tenant = true) ∧
    (∃ (q : Rq) (graceMs : Nat) (x : Tenant) (s : State), Accepted s q 0x0303 4 false ∧ roleOf s q.ep = .owner ∧
      graceMs ≤ 60000 ∧ s.tenant? q.tenant = some x ∧ x.state = .running ∧ x.draining = false ∧
      drained s q.tenant = false) ∧
    (∃ (q : Rq) (x : Tenant) (s : State), Accepted s q 0x0304 0 false ∧ roleOf s q.ep = .owner ∧
      s.tenant? q.tenant = some x ∧ x.state = .stopped ∧ x.draining = false) ∧
    (∃ (q : Rq) (x : Tenant) (s : State), Accepted s q 0x0304 0 false ∧ roleOf s q.ep = .owner ∧
      s.tenant? q.tenant = some x ∧ x.state = .stopped ∧ x.draining = true) ∧
    (∃ (q : Rq) (s : State), (roleOf s q.ep = .owner ∨ roleOf s q.ep = .admin q.tenant) ∧ Accepted s q 0x0305 0 false) ∧
    (∃ (q : Rq) (s : State), (roleOf s q.ep = .owner ∨ roleOf s q.ep = .admin q.tenant) ∧
      Accepted s q 0x0604 0 false ∧ (s.tenant? q.tenant).isSome = true) :=
  ⟨⟨5, rq 4 0, 1, 0, on, by decide +kernel⟩,
    ⟨5, rq 4 0, 2, 0, { on with eps := [{ ep := mc, lockout := some 9 }] }, by decide +kernel, 9, by decide +kernel⟩,
    ⟨5, rq 8 0, 1, 0, { on with eps := [{ ep := mc, nonce := some ([], 0), bulk := [(0, 1)] }] }, by decide +kernel,
      [], 0, by decide +kernel⟩,
    ⟨rq 8 0, 1, 0, on, by decide +kernel⟩,
    ⟨rq 0 0, admin 0, by decide +kernel⟩,
    ⟨1, { tenOne with draining := true, stopRq := some (rq 4 1), state := .stopped, graceAt := some 9 },
      { on with
        tenants := [tenZero, { tenOne with draining := true, stopRq := some (rq 4 1), state := .stopped, graceAt := some 9 }],
        eps := [{ ep := mc, executing := some (rq 4 1, 0x0303, 9, false) }] }, by decide +kernel⟩,
    ⟨rq 4 1, 10, tenOne, owned, by decide +kernel⟩,
    ⟨rq 4 0, 10, tenZero, { owned with slots := [io 1 (.read 0 1 false)] }, by decide +kernel⟩,
    ⟨rq 0 1, { tenOne with state := .stopped },
      { owned with tenants := [tenZero, { tenOne with state := .stopped }] }, by decide +kernel⟩,
    ⟨rq 0 1, { tenOne with state := .stopped, draining := true },
      { owned with tenants := [tenZero, { tenOne with state := .stopped, draining := true }] }, by decide +kernel⟩,
    ⟨rq 0 1, owned, by decide +kernel⟩,
    ⟨rq 0 1, admin 1, by decide +kernel⟩⟩

theorem witness_CredentialAndImageRequestsComplete :
    (∃ (q : Rq) (rec : TenRec) (s : State), Accepted s q 0x0301 260 false ∧ roleOf s q.ep = .owner ∧
      s.settings.commit = none ∧ s.settings.commitQueue = [] ∧ tenRecOk rec = true ∧ rec.tenant = q.tenant ∧
      s.tenant? q.tenant = none) ∧
    (∃ (q : Rq) (x : Tenant) (s : State), Accepted s q 0x0306 4 false ∧
      (roleOf s q.ep = .owner ∨ roleOf s q.ep = .admin q.tenant) ∧ s.tenant? q.tenant = some x ∧
      x.state ≠ .destroying ∧ s.settings.commit = none ∧ s.settings.commitQueue = []) ∧
    (∃ (q : Rq) (x : Tenant) (s : State), (Accepted s q 0x0306 4 false ∧
      (roleOf s q.ep = .owner ∨ roleOf s q.ep = .admin q.tenant) ∧ s.tenant? q.tenant = some x ∧
      x.state ≠ .destroying) ∧ ∃ (c : Nat × SetBody × Commit), s.settings.commit = some c) ∧
    (∃ (q : Rq) (x : Tenant) (s : State), Accepted s q 0x0307 4 false ∧ roleOf s q.ep = .admin q.tenant ∧
      s.tenant? q.tenant = some x ∧ x.state ≠ .destroying ∧ s.settings.commit = none ∧ s.settings.commitQueue = []) ∧
    (∃ (q : Rq) (x : Tenant) (s : State), (Accepted s q 0x0307 4 false ∧ roleOf s q.ep = .admin q.tenant ∧
      s.tenant? q.tenant = some x ∧ x.state ≠ .destroying) ∧ ∃ (c : Nat × SetBody × Commit),
      s.settings.commit = some c) ∧
    (∃ (q : Rq) (x : Tenant) (bulkLen : Nat) (s : State), Accepted s q 0x0601 4 false ∧
      (roleOf s q.ep = .owner ∨ roleOf s q.ep = .admin q.tenant) ∧ s.tenant? q.tenant = some x ∧
      x.state ≠ .destroying ∧ bulkLen ≤ 524288) ∧
    (∃ (q : Rq) (x : Tenant) (id : Nat) (s : State), Accepted s q 0x0602 4 false ∧
      (roleOf s q.ep = .owner ∨ roleOf s q.ep = .admin q.tenant) ∧ s.tenant? q.tenant = some x ∧
      (progOf s q.tenant id).isSome = true) ∧
    (∃ (q : Rq) (x : Tenant) (s : State), Accepted s q 0x0603 0 false ∧
      (roleOf s q.ep = .owner ∨ roleOf s q.ep = .admin q.tenant) ∧ s.tenant? q.tenant = some x ∧ x.progs.length ≤ 72) :=
  ⟨⟨rq 260 2, { TenRec.blank 2 with ports := 1 }, { owned with tenants := [tenZero] }, by decide +kernel⟩,
    ⟨rq 4 1, tenOne, owned, by decide +kernel⟩,
    ⟨rq 4 1, tenOne, { owned with settings := { on.settings with commit := some (1, {}, .live) } }, by decide +kernel,
      (1, {}, .live), by decide +kernel⟩,
    ⟨rq 4 1, tenOne, admin 1, by decide +kernel⟩,
    ⟨rq 4 1, tenOne, { admin 1 with settings := { on.settings with commit := some (1, {}, .live) } },
      by decide +kernel, (1, {}, .live), by decide +kernel⟩,
    ⟨rq 4 1, tenOne, 0, admin 1, by decide +kernel⟩,
    ⟨rq 4 1, { tenOne with progs := [⟨3, []⟩] }, 3,
      { admin 1 with tenants := [tenZero, { tenOne with progs := [⟨3, []⟩] }] }, by decide +kernel⟩,
    ⟨rq 0 1, { tenOne with progs := [⟨3, []⟩] },
      { admin 1 with tenants := [tenZero, { tenOne with progs := [⟨3, []⟩] }] }, by decide +kernel⟩⟩

theorem witness_ErasureRequestsComplete :
    (∃ (q : Rq) (s : State), (s.owner.erasures = []) ∧ ∃ (x : Tenant), Accepted s q 0x0302 0 false ∧
      roleOf s q.ep = .owner ∧ q.tenant ≠ 0 ∧ s.tenant? q.tenant = some x ∧ x.state ≠ .destroying ∧ x.stopRq = none) ∧
    (∃ (q : Rq) (s : State), (s.owner.erasures = []) ∧ ∃ (x : Tenant), Accepted s q 0x0308 0 false ∧
      roleOf s q.ep = .owner ∧ s.tenant? q.tenant = some x ∧ stoppedNow x = true) ∧
    (∃ (q : Rq) (s : State), (s.owner.erasures = [] ∧ Accepted s q 0x0310 4 true) ∧
      ((roleOf s q.ep = .board ∨ ∃ p, roleOf s q.ep = .host ⟨0, p⟩)) ∧ s.owner.cred = [] ∧
      (∀ sl ∈ s.slots, 8128 ≤ sl.ix)) ∧
    (∃ (q : Rq) (s : State), s.owner.erasures = [] ∧ roleOf s q.ep = .owner ∧ s.tenants.all stoppedNow = true ∧
      Accepted s q 0x0311 4 true) ∧
    (∃ (q : Rq) (s : State), s.owner.erasures = [] ∧ roleOf s q.ep = .owner ∧ s.tenants.all stoppedNow = true ∧
      Accepted s q 0x0312 0 true) ∧
    (∃ (q : Rq) (s : State), s.owner.erasures = [] ∧ roleOf s q.ep = .owner ∧ s.tenants.all stoppedNow = true ∧
      Accepted s q 0x0313 0 true) ∧
    (∃ (q : Rq) (s : State), s.owner.erasures = [] ∧ roleOf s q.ep = .owner ∧ s.tenants.all stoppedNow = true ∧
      Accepted s q 0x0315 4 true) ∧
    (∃ (q : Rq) (s : State), s.owner.erasures = [] ∧ Accepted s q 0x0314 0 true ∧ roleOf s q.ep = .owner) :=
  ⟨⟨rq 0 1, owned, by decide +kernel, tenOne, by decide +kernel⟩,
    ⟨rq 0 1, { owned with tenants := [tenZero, { tenOne with state := .stopped }] }, by decide +kernel,
      { tenOne with state := .stopped }, by decide +kernel⟩,
    ⟨dev 4, on, by decide +kernel, .inl rfl, by decide +kernel⟩,
    ⟨dev 4, { owned with tenants := [{ tenZero with state := .stopped }] }, by decide +kernel⟩,
    ⟨dev 0, { owned with tenants := [{ tenZero with state := .stopped }, { tenOne with state := .stopped }] },
      by decide +kernel⟩,
    ⟨dev 0, { owned with tenants := [{ tenZero with state := .stopped }] }, by decide +kernel⟩,
    ⟨dev 4, { owned with tenants := [{ tenZero with state := .stopped }] }, by decide +kernel⟩,
    ⟨dev 0, owned, by decide +kernel⟩⟩

theorem witness_ProgramEndsComplete :
    (∃ (d : DieId) (e : Erasure) (s : State), s.pins.pwrgd = true ∧ s.pfail.step = 0 ∧ s.serving = true ∧
      (s.die d).op = none ∧ s.owner.erasures = [e] ∧ e.step = 3) ∧
    (∃ (d : DieId) (e : Erasure) (s : State), s.pins.pwrgd = true ∧ s.pfail.step = 0 ∧ s.serving = true ∧
      (s.die d).op = none ∧ s.owner.erasures = [e] ∧ e.step = 4 ∧ e.destroys ≠ []) ∧
    (∃ (d : DieId) (e : Erasure) (s : State), s.pins.pwrgd = true ∧ s.pfail.step = 0 ∧ s.serving = true ∧
      (s.die d).op = none ∧ s.owner.erasures = [e] ∧ e.step = 6 ∧ e.kind = .destroy ∧ (s.ep e.q.ep).executing = none ∧
      quiet s = true) ∧
    (∃ (d : DieId) (serial row ch : Nat) (b : Band) (s : State), s.pins.pwrgd = true ∧ s.boot.life ≠ .starting ∧
      s.pfail.step = 0 ∧ (s.die d).op = some (.program serial row ch) ∧ (s.die d).resetting = false ∧
      band? s serial = some b) ∧
    (∃ (d : DieId) (serial row ch : Nat) (b : Band) (p : Placed) (e : MapEntry) (n : Ns) (s : State),
      (s.pins.pwrgd = true ∧ s.boot.life ≠ .starting ∧ s.pfail.step = 0 ∧
      (s.die d).op = some (.program serial row ch) ∧ (s.die d).resetting = false) ∧ (band? s serial = some b) ∧
      (s.media.placed = [p] ∧ p.source = some e ∧ p.run.serial = serial) ∧
      (p.run.pages.all (Band.verified { b with passed := b.passed ++ [(row, ch)] }) = true) ∧ quiet s = true ∧
      s.ns? p.run.nsid = some n ∧ (entryOf n p.run.grain).dealloc = false ∧ (entryOf n p.run.grain).frame = e.frame ∧
      (entryOf n p.run.grain).gen = e.gen) :=
  ⟨⟨d0, ⟨rq 0 1, .destroy, [(1, [])], [], 3⟩,
      { on with owner := { on.owner with erasures := [⟨rq 0 1, .destroy, [(1, [])], [], 3⟩] } }, by decide +kernel⟩,
    ⟨d0, ⟨rq 0 1, .destroy, [(1, [])], [], 4⟩,
      { on with owner := { on.owner with erasures := [⟨rq 0 1, .destroy, [(1, [])], [], 4⟩] } }, by decide +kernel⟩,
    ⟨d0, ⟨rq 0 1, .destroy, [(1, [])], [], 6⟩,
      { on with owner := { on.owner with erasures := [⟨rq 0 1, .destroy, [(1, [])], [], 6⟩] } }, by decide +kernel⟩,
    ⟨d0, 0, 0, 1, band0, atProgram band0, by decide +kernel⟩,
    ⟨d0, 0, 0, 1, bandDone, copied, ⟨32, 1, false, true, 3⟩, { nsOne with map := [(0, ⟨32, 1, false, true, 3⟩)] },
      { atProgram bandDone with
        media := { (atProgram bandDone).media with placed := [copied] },
        nss := [{ nsOne with map := [(0, ⟨32, 1, false, true, 3⟩)] }] }, by decide +kernel, rfl, by decide +kernel,
      copied_verified, by decide +kernel⟩⟩

theorem witness_KeyRequestsComplete :
    (∃ (q : Rq) (slot gen : Nat) (p : KeyPolicy) (s : State), Accepted s q 0x0401 48 false ∧
      roleOf s q.ep = .admin q.tenant ∧ slot ≤ 1023 ∧ gen ≤ 65535 ∧ policyBad p = false ∧
      slotStatus s slot gen q.tenant = none ∧ p.owner = q.tenant ∧ (keySlot s slot).valid = false ∧
      (keySlot s slot).claimed = none ∧ slotsHeld s q.tenant < ((s.tenant? q.tenant).map (·.cfg.keyQuota)).getD 0) ∧
    (∃ (q : Rq) (slot gen : Nat) (p : KeyPolicy) (label : List Byte) (s : State), Accepted s q 0x0402 48 false ∧
      roleOf s q.ep = .admin q.tenant ∧ slot ≤ 1023 ∧ gen ≤ 65535 ∧ policyBad p = false ∧ label.length = 32 ∧
      slotStatus s slot gen q.tenant = none ∧ p.owner = q.tenant ∧ (keySlot s slot).valid = false ∧
      (keySlot s slot).claimed = none ∧ slotsHeld s q.tenant < ((s.tenant? q.tenant).map (·.cfg.keyQuota)).getD 0) ∧
    (∃ (q : Rq) (slot gen : Nat) (b : KeyBlob) (s : State),
      (Accepted s q 0x0403 (48 + (80 + (if b.keyLen = 64 then 64 else 32))) false) ∧ roleOf s q.ep = .admin q.tenant ∧
      slot ≤ 1023 ∧ gen ≤ 65535 ∧ blobBad b = false ∧ slotStatus s slot gen q.tenant = none ∧
      b.policy.owner = q.tenant ∧ (keySlot s slot).valid = false ∧ (keySlot s slot).claimed = none ∧
      slotsHeld s q.tenant < ((s.tenant? q.tenant).map (·.cfg.keyQuota)).getD 0) ∧
    (∃ (q : Rq) (slot gen : Nat) (label : List Byte) (s : State), Accepted s q 0x0404 48 false ∧
      roleOf s q.ep = .admin q.tenant ∧ slot ≤ 1023 ∧ gen ≤ 65535 ∧ label.length = 32 ∧
      slotStatus s slot gen q.tenant = none ∧ (keySlot s slot).valid = true ∧ (keySlot s slot).exportable = true) ∧
    (∃ (q : Rq) (slot gen : Nat) (p : KeyPolicy) (s : State), (Accepted s q 0x0405 48 false ∧
      roleOf s q.ep = .admin q.tenant ∧ slot ≤ 1023 ∧ gen ≤ 65535 ∧ policyBad p = false ∧
      slotStatus s slot gen q.tenant = none) ∧
      let x := keySlot s slot
      x.valid = true ∧ p.owner = x.owner ∧ p.size = x.size ∧ (p.persist → x.persist) ∧ (p.uMedia → x.uMedia) ∧
      (p.uEnc → x.uEnc) ∧ (p.uDec → x.uDec) ∧ (p.uHmac → x.uHmac) ∧ (p.exportable → x.exportable)) ∧
    (∃ (q : Rq) (slot gen : Nat) (s : State), Accepted s q 0x0406 48 false ∧
      (roleOf s q.ep = .admin q.tenant ∨ roleOf s q.ep = .owner) ∧ slot ≤ 1023 ∧ gen ≤ 65535 ∧
      slotStatus s slot gen q.tenant = none) ∧
    (∃ (q : Rq) (slot gen : Nat) (s : State), Accepted s q 0x0407 48 false ∧
      (roleOf s q.ep = .admin q.tenant ∨ roleOf s q.ep = .owner) ∧ slot ≤ 1023 ∧ gen ≤ 65535 ∧
      slotStatus s slot gen q.tenant = none) ∧
    (∃ (q : Rq) (slot gen nsid : Nat) (n : Ns) (s : State), Accepted s q 0x0408 48 false ∧
      roleOf s q.ep = .admin q.tenant ∧ slot ≤ 1023 ∧ gen ≤ 65535 ∧ 1 ≤ nsid ∧ nsid ≤ 1024 ∧
      slotStatus s slot gen q.tenant = none ∧ s.ns? nsid = some n ∧ n.tenant = q.tenant ∧ n.keysrc = 1 ∧
      (keySlot s slot).valid = true ∧ (keySlot s slot).uMedia = true ∧ (keySlot s slot).size = 2) :=
  ⟨⟨rq 48 1, 20, 0, pol, admin 1, by decide +kernel⟩,
    ⟨rq 48 1, 20, 0, pol, List.replicate 32 1, admin 1, by decide +kernel⟩,
    ⟨rq 160 1, 20, 0, blob, admin 1, by decide +kernel⟩,
    ⟨rq 48 1, 20, 0, List.replicate 32 1, keyState, by decide +kernel⟩,
    ⟨rq 48 1, 20, 0, { pol with uEnc := false }, keyState, by decide +kernel, by decide +kernel⟩,
    ⟨rq 48 1, 20, 0, keyState, by decide +kernel⟩,
    ⟨rq 48 1, 20, 0, keyState, by decide +kernel⟩,
    ⟨rq 48 1, 20, 0, 2, mediaNs, mediaState, by decide +kernel⟩⟩

theorem witness_PairsAndHandoverComplete :
    (∃ (i cause : Nat) (s : State), i ≤ 1 ∧ cause ≤ 3 ∧ s.boot.life = .running ∧ s.moraine.fatal = none ∧
      pairOf s i = .serving ∧ pairOf s (1 - i) = .standby) ∧
    (∃ (i cause : Nat) (s : State), i ≤ 1 ∧ cause ≤ 3 ∧ s.boot.life = .running ∧ s.moraine.fatal = none ∧
      pairOf s i = .serving ∧ pairOf s (1 - i) ≠ .standby) ∧
    (∃ (t : Tick) (s : State), s.fw.heartbeatAt ≤ max s.now t ∧ s.boot.life = .running ∧ s.moraine.fatal = none ∧
      pairOf s (servingPair s) = .serving ∧ pairOf s (1 - servingPair s) = .standby) ∧
    (∃ (i : Nat) (s : State), i ≤ 1 ∧ pairOf s i = .reloading) ∧
    (∃ (q : Option Rq) (slot : Option Nat) (s : State), s.fw.handover = some (1, q, slot) ∧
      (fwSlot s (1 - s.fw.active)).isSome = true ∧ pairOf s (1 - servingPair s) = .standby) ∧
    (∃ (q : Option Rq) (slot : Option Nat) (s : State), s.fw.handover = some (1, q, slot)) ∧
    (∃ (q : Option Rq) (slot : Option Nat) (began : Nat) (s : State), s.fw.handover = some (3, q, slot) ∧
      s.fw.pauseSince = some began ∧ s.pfail.stopped = false) ∧
    (∃ (c : Nat) (rest : List Nat) (s : State), s.serving = true ∧ s.fw.microcode = c :: rest) :=
  ⟨⟨0, 1, on, by decide +kernel⟩,
    ⟨0, 1, { on with fw := { on.fw with pair1 := .out } }, by decide +kernel⟩,
    ⟨5, on, by decide +kernel⟩,
    ⟨1,
      { on with
        fw := { on.fw with pair1 := .reloading },
        repair := { on.repair with fenced := [.pair 1], work := [(0x12, 1)] } }, by decide +kernel⟩,
    ⟨some (dev 0), none,
      { on with fw := { on.fw with handover := some (1, some (dev 0), none), slot1 := some ⟨2, 0, 0, [], false⟩ } },
      by decide +kernel⟩,
    ⟨some (dev 0), none,
      { on with
        fw := { on.fw with handover := some (1, some (dev 0), none) },
        eps := [{ ep := mc, executing := some (dev 0, 0x0802, 9, false) }] }, by decide +kernel⟩,
    ⟨some (dev 0), none, 0,
      { on with
        fw := { on.fw with
          handover := some (3, some (dev 0), none),
          pauseSince := some 0,
          slot1 := some ⟨2, 0, 0, [], false⟩ },
        eps := [{ ep := mc, executing := some (dev 0, 0x0802, 9, false) }] }, by decide +kernel⟩,
    ⟨0, [1], { on with fw := { on.fw with microcode := [0, 1] } }, by decide +kernel⟩⟩

theorem witness_FirmwareRequestsComplete :
    (∃ (q : Rq) (offset total : Nat) (data : List Byte) (s : State),
      (roleOf s q.ep ∈ [Role.owner, .board] ∨ hostMay s 3 (roleOf s q.ep) = true) ∧
      chunkFits s offset total data = true ∧ s.fw.trial = none ∧ Accepted s q 0x0801 (8 + data.length) true ∧
      s.fw.handover = none) ∧
    (∃ (q : Rq) (offset total : Nat) (data : List Byte) (s : State),
      (roleOf s q.ep ∈ [Role.owner, .board] ∨ hostMay s 3 (roleOf s q.ep) = true) ∧
      chunkFits s offset total data = true ∧ s.fw.trial = none ∧ Accepted s q 0x0801 (8 + data.length) true ∧
      s.fw.handover.isSome = true) ∧
    (∃ (q : Rq) (offset total : Nat) (data : List Byte) (s : State),
      (roleOf s q.ep ∈ [Role.owner, .board] ∨ hostMay s 3 (roleOf s q.ep) = true) ∧
      chunkFits s offset total data = true ∧ s.fw.trial = none ∧ Accepted s q 0x0805 (8 + data.length) true ∧
      s.fw.handover = none ∧ roleOf s q.ep = .board ∧ q.path = .mctp) ∧
    (∃ (q : Rq) (s : State), (roleOf s q.ep ∈ [Role.owner, .board] ∨ hostMay s 3 (roleOf s q.ep) = true) ∧
      Accepted s q 0x0802 0 true ∧ s.fw.handover = none) ∧
    (∃ (q : Rq) (s : State), (roleOf s q.ep ∈ [Role.owner, .board] ∨ hostMay s 3 (roleOf s q.ep) = true) ∧
      Accepted s q 0x0803 0 true) ∧
    (∃ (q : Rq) (im : FwImage) (s : State), Accepted s q 0x0804 0 true ∧ roleOf s q.ep = .owner ∧
      fwSlot s s.fw.active = some im) ∧
    (∃ (t : Tick) (began : Nat) (im : FwImage) (s : State), s.fw.trial = some began ∧
      24 * ticksPerHour ≤ (s.arrive t).rime.opTicks - began ∧ (∀ x ∈ s.moraine.fatals, x < began) ∧
      fwSlot s s.fw.active = some im) ∧
    (∃ (sl : Slot) (off : Nat) (data : List Byte) (s : State), Ready s sl ∧ sl.sqe.body = .fwDownload off data ∧
      sl.fn.tenant = 0 ∧ adminMay s sl.fn 3 = true ∧ checkData sl.sqe data.length = none) ∧
    (∃ (sl : Slot) (slot ca : Nat) (s : State), Ready s sl ∧ sl.sqe.body = .fwCommit slot ca ∧ sl.fn.tenant = 0 ∧
      adminMay s sl.fn 3 = true ∧ s.fw.handover = none ∧ s.fw.trial = none ∧ slot ≤ 2 ∧ 3 < ca) ∧
    (∃ (sl : Slot) (slot ca : Nat) (s : State), (Ready s sl ∧ sl.sqe.body = .fwCommit slot ca ∧ sl.fn.tenant = 0 ∧
      adminMay s sl.fn 3 = true ∧ s.fw.handover = none ∧ s.fw.trial = none ∧ slot ≤ 2) ∧
      let target := if slot = 0 then 1 - s.fw.active else slot - 1
      target ≠ s.fw.active ∧ ca = 2 ∧ (fwSlot s target).isSome = true) ∧
    (∃ (sl : Slot) (slot ca : Nat) (s : State), (Ready s sl ∧ sl.sqe.body = .fwCommit slot ca ∧ sl.fn.tenant = 0 ∧
      adminMay s sl.fn 3 = true ∧ s.fw.handover = none ∧ s.fw.trial = none ∧ slot ≤ 2) ∧
      let target := if slot = 0 then 1 - s.fw.active else slot - 1
      target ≠ s.fw.active ∧ (ca ≤ 1 ∨ ca = 3)) :=
  ⟨⟨dev 12, 0, 9, [1, 2, 3, 4], on, by decide +kernel⟩,
    ⟨dev 12, 0, 4, [1, 2, 3, 4], { on with fw := { on.fw with handover := some (1, none, none) } }, by decide +kernel⟩,
    ⟨dev 12, 0, 4, [1, 2, 3, 4], on, by decide +kernel⟩,
    ⟨dev 0, on, by decide +kernel⟩,
    ⟨dev 0, on, by decide +kernel⟩,
    ⟨dev 0, ⟨3, 2, 5, [], false⟩, { owned with fw := { on.fw with slot0 := some ⟨3, 2, 5, [], false⟩ } },
      by decide +kernel⟩,
    ⟨5, 0, ⟨3, 2, 5, [], false⟩,
      { on with
        fw := { on.fw with trial := some 0, slot0 := some ⟨3, 2, 5, [], false⟩ },
        rime := { on.rime with opTicks := 24 * ticksPerHour } }, by decide +kernel⟩,
    ⟨ad 0 (.fwDownload 4 [1, 2]), 4, [1, 2], with_ (ad 0 (.fwDownload 4 [1, 2])), by decide +kernel⟩,
    ⟨ad 0 (.fwCommit 0 7), 0, 7, with_ (ad 0 (.fwCommit 0 7)), by decide +kernel⟩,
    ⟨ad 0 (.fwCommit 2 2), 2, 2,
      { with_ (ad 0 (.fwCommit 2 2)) with fw := { on.fw with slot1 := some ⟨3, 2, 5, [], false⟩ } },
      by decide +kernel, by decide +kernel⟩,
    ⟨ad 0 (.fwCommit 0 1), 0, 1, with_ (ad 0 (.fwCommit 0 1)), by decide +kernel, by decide +kernel⟩⟩

theorem witness_RepairRequestsComplete :
    (∃ (q : Rq) (unit : Nat) (e : Engine) (s : State), Accepted s q 0x0903 8 true ∧
      (roleOf s q.ep = .owner ∨ roleOf s q.ep = .board) ∧ unit < 72 ∧ (0x01, unit) ∉ s.repair.work ∧
      s.engine? unit = some e) ∧
    (∃ (q : Rq) (unit : Nat) (e : Engine) (s : State), Accepted s q 0x0903 8 true ∧
      (roleOf s q.ep = .owner ∨ roleOf s q.ep = .board) ∧ unit < 72 ∧ (0x02, unit) ∉ s.repair.work ∧
      s.engine? unit = some e ∧ e.status < 2) ∧
    (∃ (q : Rq) (unit : Nat) (c : DramCh) (s : State), Accepted s q 0x0903 8 true ∧
      (roleOf s q.ep = .owner ∨ roleOf s q.ep = .board) ∧ unit < 4 ∧ (0x03, unit) ∉ s.repair.work ∧
      chan? s unit = some c ∧ c.inService = true) ∧
    (∃ (q : Rq) (unit : Nat) (c : DramCh) (s : State), Accepted s q 0x0903 8 true ∧
      (roleOf s q.ep = .owner ∨ roleOf s q.ep = .board) ∧ unit < 4 ∧ (0x04, unit) ∉ s.repair.work ∧
      chan? s unit = some c ∧ s.tenants.all stoppedNow = true ∧ c.soft ≠ []) ∧
    (∃ (q : Rq) (unit : Nat) (c : DramCh) (s : State), Accepted s q 0x0903 8 true ∧
      (roleOf s q.ep = .owner ∨ roleOf s q.ep = .board) ∧ unit < 4 ∧ (0x04, unit) ∉ s.repair.work ∧
      chan? s unit = some c ∧ s.tenants.all stoppedNow = false) ∧
    (∃ (q : Rq) (unit : Nat) (s : State), Accepted s q 0x0903 8 true ∧
      (roleOf s q.ep = .owner ∨ roleOf s q.ep = .board) ∧ unit < 256 ∧ (0x05, unit) ∉ s.repair.work) ∧
    (∃ (q : Rq) (unit : Nat) (s : State), Accepted s q 0x0903 8 true ∧
      (roleOf s q.ep = .owner ∨ roleOf s q.ep = .board) ∧ 8 ≤ unit ∧ unit ≤ 16 ∧ (0x06, unit) ∉ s.repair.work) ∧
    (∃ (q : Rq) (unit : Nat) (s : State), Accepted s q 0x0903 8 true ∧
      (roleOf s q.ep = .owner ∨ roleOf s q.ep = .board) ∧ unit < 32 ∧ (0x10, unit) ∉ s.repair.work) ∧
    (∃ (q : Rq) (unit : Nat) (s : State), Accepted s q 0x0903 8 true ∧
      (roleOf s q.ep = .owner ∨ roleOf s q.ep = .board) ∧ unit < 2 ∧ (0x11, unit) ∉ s.repair.work) ∧
    (∃ (q : Rq) (unit : Nat) (s : State), Accepted s q 0x0903 8 true ∧
      (roleOf s q.ep = .owner ∨ roleOf s q.ep = .board) ∧ unit < 2 ∧ (0x12, unit) ∉ s.repair.work ∧
      pairOf s unit ≠ .serving) ∧
    (∃ (q : Rq) (unit : Nat) (s : State), Accepted s q 0x0903 8 true ∧
      (roleOf s q.ep = .owner ∨ roleOf s q.ep = .board) ∧ unit < 2 ∧ (0x12, unit) ∉ s.repair.work ∧
      pairOf s unit = .serving) ∧
    (∃ (t : Tick) (q : Rq) (unit : Nat) (s : State), (Accepted s q 0x0903 8 true ∧
      (roleOf s q.ep = .owner ∨ roleOf s q.ep = .board)) ∧ ∃ (k lo hi : Nat) (c : Instr),
      ((k, lo, hi, c) ∈ [(0x01, 0, 72, Instr.calve t q unit), (0x02, 0, 72, .engineTest t q unit), (0x03, 0, 4,
        .dramRetrain t q unit), (0x04, 0, 4, .hppr t q unit), (0x05, 0, 256, .pageIdle t q unit), (0x06, 8, 17,
        .nrrLog2 t q unit), (0x10, 0, 32, .nandRecal t q unit), (0x11, 0, 2, .serdesReeq t q unit), (0x12, 0, 2,
        .pairTest t q unit)]) ∧ lo ≤ unit ∧ unit < hi ∧ (k, unit) ∈ s.repair.work) :=
  ⟨⟨dev 8, 3, (on.engine? 3).getD (eng 0), owned, by decide +kernel⟩,
    ⟨dev 8, 3, (on.engine? 3).getD (eng 0), owned, by decide +kernel⟩,
    ⟨dev 8, 2, { ix := 2, inService := true },
      { owned with repair := { on.repair with chans := [{ ix := 2, inService := true }] } }, by decide +kernel⟩,
    ⟨dev 8, 2, { ix := 2, inService := true, soft := [7] },
      { owned with
        tenants := [],
        repair := { on.repair with chans := [{ ix := 2, inService := true, soft := [7] }] } }, by decide +kernel⟩,
    ⟨dev 8, 2, { ix := 2, inService := true, soft := [7] },
      { owned with repair := { on.repair with chans := [{ ix := 2, inService := true, soft := [7] }] } },
      by decide +kernel⟩,
    ⟨dev 8, 200, owned, by decide +kernel⟩,
    ⟨dev 8, 8, owned, by decide +kernel⟩,
    ⟨dev 8, 31, owned, by decide +kernel⟩,
    ⟨dev 8, 1, owned, by decide +kernel⟩,
    ⟨dev 8, 1, owned, by decide +kernel⟩,
    ⟨dev 8, 0, owned, by decide +kernel⟩,
    ⟨5, dev 8, 1, { owned with repair := { on.repair with work := [(1, 1)] } }, by decide +kernel, 1, 0, 72,
      .calve 5 (dev 8) 1, by simp, by decide +kernel⟩⟩

theorem witness_MemoryErrorsComplete :
    (∃ (ch : Nat) (user : DramUser) (c : DramCh) (s : State), s.boot.life = .running ∧ chan? s ch = some c ∧
      c.inService = true ∧ (user = .readCache ∨ user = .heldTwice true)) ∧
    (∃ (ch : Nat) (user : DramUser) (c : DramCh) (s : State), (s.boot.life = .running ∧ chan? s ch = some c ∧
      c.inService = true) ∧ ∃ (nsid page : Nat) (n : Ns), user = .mapPageClean nsid page ∧ s.ns? nsid = some n ∧
      page ∉ n.dirty ∧ page ∈ n.resident ∧ page ∈ n.written) ∧
    (∃ (ch : Nat) (user : DramUser) (c : DramCh) (s : State), (s.boot.life = .running ∧ chan? s ch = some c ∧
      c.inService = true) ∧ ∃ (tn addr : Nat), user = .slm tn addr ∧ (s.tenant? tn).isSome = true) ∧
    (∃ (ch : Nat) (user : DramUser) (c : DramCh) (s : State), s.boot.life = .running ∧ chan? s ch = some c ∧
      c.inService = true ∧ user = .heldTwice false ∧ s.moraine.fatal = none) ∧
    (∃ (c : DramCh) (s : State), s.repair.chans.find? (·.retraining) = some c ∧ s.pfail.stopped = false) ∧
    (∃ (c : DramCh) (s : State), s.repair.chans.find? (·.retraining) = some c ∧ s.pfail.stopped = true ∧
      s.pfail.step ≠ 1) ∧
    (∃ (ch row hard : Nat) (c : DramCh) (s : State), chan? s ch = some c ∧ c.repairing = some (row, hard)) ∧
    (∃ (cls mcr offset : Nat) (s : State), s.boot.life = .running ∧ cls ≠ mcDram ∧ mcr < (macrosOf cls).1 ∧
      offset < (macrosOf cls).2 ∧ cls ≠ mcTwill) ∧
    (∃ (s : State), s.boot.life = .running) :=
  ⟨⟨2, .readCache, { ix := 2, inService := true },
      { on with repair := { on.repair with chans := [{ ix := 2, inService := true }] } }, by decide +kernel⟩,
    ⟨2, .mapPageClean 1 0, { ix := 2, inService := true },
      { on with repair := { on.repair with chans := [{ ix := 2, inService := true }] } }, by decide +kernel, 1, 0,
      nsOne, by decide +kernel⟩,
    ⟨2, .slm 0 130, { ix := 2, inService := true },
      { on with repair := { on.repair with chans := [{ ix := 2, inService := true }] } }, by decide +kernel, 0, 130,
      by decide +kernel⟩,
    ⟨2, .heldTwice false, { ix := 2, inService := true },
      { on with repair := { on.repair with chans := [{ ix := 2, inService := true }] } }, by decide +kernel⟩,
    ⟨{ ix := 2, inService := true, retraining := true, due := some 3 },
      { on with
        repair := { on.repair with chans := [{ ix := 2, inService := true, retraining := true, due := some 3 }] } },
      by decide +kernel⟩,
    ⟨{ ix := 2, inService := true, retraining := true, due := some 3 },
      { on with
        pfail := { on.pfail with stopped := true, step := 2 },
        repair := { on.repair with chans := [{ ix := 2, inService := true, retraining := true, due := some 3 }] } },
      by decide +kernel⟩,
    ⟨2, 7, 1, { ix := 2, inService := true, repairing := some (7, 1) },
      { on with repair := { on.repair with chans := [{ ix := 2, inService := true, repairing := some (7, 1) }] } },
      by decide +kernel⟩,
    ⟨1, 3, 8, on, by decide +kernel⟩,
    ⟨on, by decide +kernel⟩⟩

theorem witness_ScrubsAndTestsComplete :
    (∃ (q : Rq) (target start count : Nat) (s : State), Accepted s q 0x0901 24 true ∧
      (roleOf s q.ep = .owner ∨ roleOf s q.ep = .board) ∧ scrubOk s target start count = true ∧
      (s.repair.passes.filter (·.state < 2)).length < 8) ∧
    (∃ (q : Rq) (target start count : Nat) (s : State), Accepted s q 0x0901 24 true ∧
      (roleOf s q.ep = .owner ∨ roleOf s q.ep = .board) ∧ scrubOk s target start count = true ∧
      8 ≤ (s.repair.passes.filter (·.state < 2)).length) ∧
    (∃ (p : Pass) (s : State), s.repair.passes.find? (·.state == 1) = some p ∧
      (s.repair.passes.filter (2 ≤ ·.state)).length ≤ 15) ∧
    (∃ (q : Rq) (p : Pass) (s : State), Accepted s q 0x0902 4 true ∧
      (roleOf s q.ep = .owner ∨ roleOf s q.ep = .board) ∧ s.repair.passes.find? (·.id == p.id) = some p) ∧
    (∃ (p : Nat) (e : Engine) (s : State), s.engine? p = some e ∧ e.testing = true ∧ e.ix = p ∧ 23 ≤ e.quanta ∧
      s.firn.ovr = none) ∧
    (∃ (p : Nat) (e : Engine) (s : State), s.engine? p = some e ∧ e.testing = true ∧ e.ix = p ∧ e.quanta < 23 ∧
      s.firn.ovr = none) ∧
    (∃ (p : Nat) (e : Engine) (s : State), s.engine? p = some e ∧ e.testing = true ∧ e.ix = p) ∧
    (∃ (p : Party) (s : State), s.boot.life = .running ∧ partyExists s p = true ∧
      s.repair.reclaimDue.any (·.1 == p) = true) ∧
    (∃ (i : Nat) (s : State), s.boot.life = .running ∧ i < 16 ∧ Party.sieve i ∉ s.repair.fenced ∧
      s.repair.reclaimDue = []) :=
  ⟨⟨dev 24, 1, 8, 16, on, by decide +kernel⟩,
    ⟨dev 24, 1, 8, 16, { on with repair := { on.repair with passes := List.replicate 8 ⟨3, 1, 0, 8, 0, 0, 0, 0⟩ } },
      by decide +kernel⟩,
    ⟨⟨3, 1, 0, 8, 1, 0, 0, 0⟩,
      { on with repair := { on.repair with passes := [⟨3, 1, 0, 8, 1, 0, 0, 0⟩, ⟨4, 1, 0, 8, 0, 0, 0, 0⟩] } },
      by decide +kernel⟩,
    ⟨dev 4, ⟨3, 1, 0, 8, 2, 1, 0, 0⟩, { on with repair := { on.repair with passes := [⟨3, 1, 0, 8, 2, 1, 0, 0⟩] } },
      by decide +kernel⟩,
    ⟨0, { tested with quanta := 23 }, { on with engines := [{ tested with quanta := 23 }] }, by decide +kernel⟩,
    ⟨0, tested, { on with engines := [tested] }, by decide +kernel⟩,
    ⟨0, tested, { on with engines := [tested] }, by decide +kernel⟩,
    ⟨.channel 3, { on with repair := { on.repair with fenced := [.channel 3], reclaimDue := [(.channel 3, 9)] } },
      by decide +kernel⟩,
    ⟨3, on, by decide +kernel⟩⟩

theorem witness_ViewsComplete :
    (∃ (q : Rq) (offset count : Nat) (s : State), (Accepted s q 0x0106 12 false ∧ count ≤ 4072) ∧
      let f : Fn := ⟨q.tenant, match q.ep with | .fn g => g.port | .mctp .. => .a⟩
      offset + count ≤ windowBytes f) ∧
    (∃ (t : Tick) (q : Rq) (lid offset count : Nat) (bs : List Byte) (s : State), Accepted s q 0x0106 12 false ∧
      count ≤ 4072 ∧ 0xC0 ≤ lid ∧ lid ≤ 0xC7 ∧ logVendor (s.arrive t) .owner lid = some bs ∧
      offset + count ≤ bs.length) ∧
    (∃ (q : Rq) (count : Nat) (s : State), Accepted s q 0x0701 8 false ∧ count ≤ 127) ∧
    (∃ (q : Rq) (s : State), Accepted s q 0x0702 0 true ∧ roleOf s q.ep = .owner) ∧
    (∃ (q : Rq) (offset count : Nat) (d : Dump) (s : State), (Accepted s q 0x0703 8 true ∧ roleOf s q.ep = .owner ∧
      count ≤ 4072 ∧ s.moraine.dump = some d) ∧ offset + count ≤ dumpLength d) ∧
    (∃ (t : Tick) (s : State), telemetryDue (s.arrive t) = true) :=
  ⟨⟨rq 12 0, 0x100, 8, owned, by decide +kernel, by decide +kernel⟩,
    ⟨5, rq 12 0, 0xC7, 0, 8, ((logVendor (owned.arrive 5) .owner 0xC7)).getD [], owned, by decide +kernel⟩,
    ⟨rq 8 0, 5,
      { owned with rime := { on.rime with ring := [(⟨4, 0, 0, 0, 0x0501, none, 0, true, 0, [], 0, [], 0⟩, false)] } },
      by decide +kernel⟩,
    ⟨dev 0, owned, by decide +kernel⟩,
    ⟨dev 8, 4, 8, ⟨false, 1, 1, 1, 1, 1, 1, 1, 0, []⟩,
      { owned with moraine := { on.moraine with dump := some ⟨false, 1, 1, 1, 1, 1, 1, 1, 0, []⟩ } },
      by decide +kernel, Nat.le_trans (by decide) (Nat.le_add_right _ _)⟩,
    ⟨5, on, by decide +kernel⟩⟩

theorem witness_RegisterWritesComplete :
    (∃ (f : Fn) (c : Ctrl) (s : State), (s.ctrl? f = some c ∧ hostReaches s f = true) ∧ ∃ (v : Word),
      16 ≤ v.toNat % 8192 ∧ v.toNat % 8192 ≤ 4096 ∧ v.toNat % 4 = 0 ∧ c.mbx.busy = false) ∧
    (∃ (f : Fn) (c : Ctrl) (s : State), (s.ctrl? f = some c ∧ hostReaches s f = true) ∧ ∃ (v : Word),
      16 ≤ v.toNat % 8192 ∧ v.toNat % 8192 ≤ 4096 ∧ v.toNat % 4 = 0 ∧ c.mbx.busy = true) ∧
    (∃ (f : Fn) (c : Ctrl) (s : State), (s.ctrl? f = some c ∧ hostReaches s f = true) ∧ ∃ (v : Word),
      (v.toNat % 8192 < 16 ∨ 4096 < v.toNat % 8192 ∨ v.toNat % 4 ≠ 0) ∧ c.devErr.regErr = false) ∧
    (∃ (f : Fn) (c : Ctrl) (s : State), (s.ctrl? f = some c ∧ hostReaches s f = true) ∧ ∃ (v : Word),
      v.toNat / 2 % 4096 ≤ 2048) ∧
    (∃ (f : Fn) (c : Ctrl) (s : State), (s.ctrl? f = some c ∧ hostReaches s f = true) ∧ ∃ (o : Nat), 0x1000 ≤ o ∧
      o < 0x2000 ∧ o % 4 = 0) ∧
    (∃ (f : Fn) (c : Ctrl) (s : State), (s.ctrl? f = some c ∧ hostReaches s f = true) ∧ ∃ (v : Word),
      v.toNat.testBit 16 = false ∧ v.toNat % 65536 ≠ 0) ∧
    (∃ (f : Fn) (c : Ctrl) (s : State), (s.ctrl? f = some c ∧ hostReaches s f = true) ∧ ∃ (v : Word),
      v.toNat.testBit 16 = true) ∧
    (∃ (f : Fn) (c : Ctrl) (s : State), (s.ctrl? f = some c ∧ hostReaches s f = true) ∧ ∃ (v : Word),
      v.toNat.testBit 16 = false ∧ v.toNat % 65536 = 0 ∧ epochFunction s f = true ∧ c.devErr.regErr = false) ∧
    (∃ (f : Fn) (c : Ctrl) (s : State), (s.ctrl? f = some c ∧ hostReaches s f = true) ∧ ∃ (o : Nat), o % 4 = 0 ∧
      o ∉ [0, 4, 8, 12, 0x3020, 0x3024, 0x3028, 0x8000] ∧ ¬ (0x1000 ≤ o ∧ o < 0x2000)) ∧
    (∃ (f : Fn) (c : Ctrl) (s : State), s.ctrl? f = some c ∧ hostReaches s f = true ∧ c.en = false) ∧
    (∃ (f : Fn) (c : Ctrl) (s : State), (s.ctrl? f = some c ∧ hostReaches s f = true) ∧ ∃ (o : Nat), o % 4 = 0 ∧
      o ∉ [0x0C, 0x10, 0x14, 0x24, 0x28, 0x2C, 0x30, 0x34]) ∧
    (∃ (f : Fn) (c : Ctrl) (s : State), (s.ctrl? f = some c ∧ hostReaches s f = true) ∧
      ∃ o ∈ [0x14, 0x24, 0x28, 0x2C, 0x30, 0x34], c.en = true) ∧
    (∃ (f : Fn) (c : Ctrl) (s : State), (s.ctrl? f = some c ∧ hostReaches s f = true) ∧ ∃ (o : Nat), o % 4 = 0 ∧
      o < 2049 * 16 ∧ c.msixPending = []) :=
  ⟨⟨fA, ctl, on, by decide +kernel, 20, by decide +kernel⟩,
    ⟨fA, { ctl with mbx := { busy := true } }, { on with ctrls := [{ ctl with mbx := { busy := true } }] },
      by decide +kernel, 20, by decide +kernel⟩,
    ⟨fA, ctl, on, by decide +kernel, 3, by decide +kernel⟩,
    ⟨fA, ctl, on, by decide +kernel, 0x103, by decide +kernel⟩,
    ⟨fA, ctl, on, by decide +kernel, 0x1004, by decide +kernel⟩,
    ⟨fA, ctl, { on with firn := { on.firn with plan := { Plan.blank with source := 2 } } }, by decide +kernel, 7,
      by decide +kernel⟩,
    ⟨fA, ctl, { on with firn := { on.firn with plan := { Plan.blank with source := 2 } } }, by decide +kernel,
      0x10007, by decide +kernel⟩,
    ⟨fA, ctl, { on with firn := { on.firn with plan := { Plan.blank with source := 2 } } }, by decide +kernel, 0,
      by decide +kernel⟩,
    ⟨fA, ctl, on, by decide +kernel, 0x3000, by decide +kernel⟩,
    ⟨fA, { ctl with en := false }, { on with ctrls := [{ ctl with en := false }] }, by decide +kernel⟩,
    ⟨fA, ctl, on, by decide +kernel, 0x1C, by decide +kernel⟩,
    ⟨fA, ctl, on, by decide +kernel, _, .tail _ (.head _), by decide +kernel⟩,
    ⟨fA, ctl, on, by decide +kernel, 0x24, by decide +kernel⟩⟩

theorem witness_SidebandComplete :
    (∃ (b p e : Nat) (s : State), sidebandOpen s (.mctp b p e) = true) ∧
    (∃ (ep : Endpoint) (s : State), (sidebandOpen s ep = true) ∧ (∀ f, ep = .fn f → f.tenant = 0)) ∧
    (∃ (ep : Endpoint) (s : State), (sidebandOpen s ep = true) ∧ ((∀ f, ep = .fn f → f.tenant = 0)) ∧ ∃ (a b : Bool),
      (a && b) = false) ∧
    (∃ (ep : Endpoint) (s : State), (sidebandOpen s ep = true) ∧ ((∀ f, ep = .fn f → f.tenant = 0)) ∧ ∃ (slot : Nat),
      slot ≠ 0) ∧
    (∃ (ep : Endpoint) (s : State), (sidebandOpen s ep = true) ∧ ((∀ f, ep = .fn f → f.tenant = 0)) ∧ ∃ (ix : Nat),
      (ix ≤ 8 ∨ ix = 0xFF)) :=
  ⟨⟨0, 0, 8, on, by decide +kernel⟩,
    ⟨mc, on, by decide +kernel, fun _ h => by simp [mc] at h⟩,
    ⟨mc, on, by decide +kernel, fun _ h => by simp [mc] at h, true, false, by decide +kernel⟩,
    ⟨mc, on, by decide +kernel, fun _ h => by simp [mc] at h, 1, by decide +kernel⟩,
    ⟨mc, on, by decide +kernel, fun _ h => by simp [mc] at h, 0, by decide +kernel⟩⟩

end Sys2Proof.Tests
end

/-! Proofs about single Colmus instructions (file 07): what landing writes leave alone, what one issue answers, and from
these the reads of an accumulator, the branches and the return. -/

namespace Sys2Proof.Machine

/-! ### What landing writes leave alone -/

/-- A part of an engine that neither a single landing write nor the list of flights touches stays while writes land. -/
theorem landTo_keeps {α : Type} (part : Engine → α) (hone : ∀ e f, part (landOne e f) = part e)
    (hflight : ∀ (e : Engine) fl, part { e with flight := fl } = part e) (c : Nat) (e : Engine) :
    part (landTo c e) = part e := by
  have hfold : ∀ (fl : List Flight) (y : Engine), part (fl.foldl landOne y) = part y := by
    intro fl
    induction fl with
    | nil => exact fun _ => rfl
    | cons f fl ih => exact fun y => (ih _).trans (hone y f)
  exact (hfold _ _).trans (hflight e _)

@[simp] theorem landTo_ix (c : Nat) (e : Engine) : (landTo c e).ix = e.ix :=
  landTo_keeps Engine.ix (fun _ f => by unfold landOne; cases f.reg <;> rfl) (fun _ _ => rfl) c e

@[simp] theorem landTo_job (c : Nat) (e : Engine) : (landTo c e).job = e.job :=
  landTo_keeps Engine.job (fun _ f => by unfold landOne; cases f.reg <;> rfl) (fun _ _ => rfl) c e

@[simp] theorem landTo_pc (c : Nat) (e : Engine) : (landTo c e).pc = e.pc :=
  landTo_keeps Engine.pc (fun _ f => by unfold landOne; cases f.reg <;> rfl) (fun _ _ => rfl) c e

@[simp] theorem landTo_cycle (c : Nat) (e : Engine) : (landTo c e).cycle = e.cycle :=
  landTo_keeps Engine.cycle (fun _ f => by unfold landOne; cases f.reg <;> rfl) (fun _ _ => rfl) c e

@[simp] theorem landTo_loops (c : Nat) (e : Engine) : (landTo c e).loops = e.loops :=
  landTo_keeps Engine.loops (fun _ f => by unfold landOne; cases f.reg <;> rfl) (fun _ _ => rfl) c e

@[simp] theorem landTo_delay (c : Nat) (e : Engine) : (landTo c e).delay = e.delay :=
  landTo_keeps Engine.delay (fun _ f => by unfold landOne; cases f.reg <;> rfl) (fun _ _ => rfl) c e

section AtIssue
variable (x : Engine) (regs : List Reg) (accum : Option Nat) (barrier : Bool)

@[simp] theorem atIssue_ix : (atIssue x regs accum barrier).ix = x.ix := landTo_ix ..

@[simp] theorem atIssue_job : (atIssue x regs accum barrier).job = x.job := landTo_job ..

@[simp] theorem atIssue_pc : (atIssue x regs accum barrier).pc = x.pc := landTo_pc ..

@[simp] theorem atIssue_loops : (atIssue x regs accum barrier).loops = x.loops := landTo_loops ..

@[simp] theorem atIssue_delay : (atIssue x regs accum barrier).delay = x.delay := landTo_delay ..

/-- Waiting to issue leads neither into a delay slot nor to the end of a loop body. -/
theorem freeOfSlots_atIssue {x : Engine} (h : freeOfSlots x) : freeOfSlots (atIssue x regs accum barrier) := by
  obtain ⟨hdelay, hlast⟩ := h
  refine ⟨(atIssue_delay ..).trans hdelay, ?_⟩
  rw [← hlast, atIssue_pc, atBodyLast, atBodyLast, atIssue_loops]

end AtIssue

/-! ### Looking up an engine that was replaced -/

theorem ix_of_engine {s : State} {p : Nat} {x : Engine} (h : s.engine? p = some x) : x.ix = p := by
  simpa using List.find?_some h

/-- Replacing engine `p` by an engine of the same number is what a lookup of `p` then gives. -/
theorem engine_setEngine_const {s : State} {p : Nat} {x y : Engine} (h : s.engine? p = some x) (hy : y.ix = p) :
    (s.setEngine p fun _ => y).engine? p = some y := by
  have hguard : (s.setEngine p fun _ => y) = s.setEngine p fun c => if c.ix = p then y else c := by
    unfold State.setEngine
    congr 2
    funext c
    by_cases hc : c.ix = p <;> simp only [hc, if_true, if_false]
  have hix : ∀ c : Engine, (if c.ix = p then y else c).ix = c.ix := by
    intro c
    split
    · next hc => exact hy.trans hc.symm
    · rfl
  rw [hguard, engine_setEngine s p _ hix, h, Option.map_some, if_pos (ix_of_engine h)]

/-! ### What one issue answers -/

section Issue
variable {s : State} {p : Nat} {x : Engine} {w : Word} {regs : List Reg} {accum : Option Nat} {barrier : Bool}
  {body : Engine → State → Act}

/-- A reserved bit or value traps before the instruction waits for anything (R288). -/
theorem issue_reserved (h : StandsAt s p x w) :
    issue p w false true regs accum barrier body s = trapEngine x trReserved 0 s := by
  obtain ⟨hx, hruns, hword⟩ := h
  simp [issue, hx, hruns, hword]

theorem passes_of_freeOfSlots (ctl : Bool) (hfree : freeOfSlots x) :
    (ctl && (x.delay.isSome || atBodyLast x x.pc)) = false := by
  obtain ⟨hdelay, hlast⟩ := hfree
  rw [hdelay, hlast, Option.isSome_none, Bool.or_self, Bool.and_false]

/-- An instruction whose body traps, with any cause but POISON, only traps. -/
theorem issue_trap {ctl : Bool} {cause addr : Nat} (h : StandsAt s p x w) (hfree : freeOfSlots x)
    (hbody : body (atIssue x regs accum barrier) s = .trap cause addr) (hcause : cause ≠ trPoison) :
    issue p w ctl false regs accum barrier body s = trapEngine (atIssue x regs accum barrier) cause addr s := by
  obtain ⟨hx, hruns, hword⟩ := h
  have hopen := passes_of_freeOfSlots ctl hfree
  unfold atIssue at hbody ⊢
  simp [issue, hx, hruns, hword, hopen, hbody, hcause]

/-- An instruction whose body leaves the state and the engine to its effect advances the engine by that effect. -/
theorem issue_done {ctl : Bool} {fx : Fx} (h : StandsAt s p x w) (hfree : freeOfSlots x)
    (hbody : body (atIssue x regs accum barrier) s = .done (atIssue x regs accum barrier) fx s) :
    issue p w ctl false regs accum barrier body s =
      s.setEngine p fun _ => advance fx (atIssue x regs accum barrier) := by
  obtain ⟨hx, hruns, hword⟩ := h
  have hopen := passes_of_freeOfSlots ctl hfree
  unfold atIssue at hbody ⊢
  simp [issue, hx, hruns, hword, hopen, hbody]

end Issue

/-! ### Where an engine stands after its instruction -/

/-- Away from the end of the innermost loop's body no loop counts. -/
theorem countLoops_of_not_last {e : Engine} (h : atBodyLast e e.pc = false) :
    countLoops e.pc e.loops = (e.loops, none) := by
  unfold atBodyLast at h
  cases hl : e.loops with
  | nil => rfl
  | cons l ls =>
    rw [hl] at h
    rw [countLoops, if_pos (by simpa using h)]

@[simp] theorem advance_ix (fx : Fx) (e : Engine) : (advance fx e).ix = e.ix := by
  unfold advance
  simp only [landTo_ix]
  repeat' split
  all_goals rfl

@[simp] theorem advance_cycle (fx : Fx) (e : Engine) : (advance fx e).cycle = e.cycle + fx.cost := by
  simp only [advance, landTo_cycle]
  repeat' split
  all_goals rfl

theorem advance_pc_of_target {fx : Fx} {e : Engine} {t : Nat} (hnow : fx.delayed = false) (ht : fx.target = some t) :
    (advance fx e).pc = t := by
  simp [advance, hnow, ht]

theorem advance_pc_of_no_target {fx : Fx} {e : Engine} (hfree : freeOfSlots e) (hnow : fx.delayed = false)
    (ht : fx.target = none) (hopen : fx.open_ = none) : (advance fx e).pc = e.pc + 4 := by
  obtain ⟨hdelay, hlast⟩ := hfree
  simp [advance, hnow, ht, hopen, hdelay, countLoops_of_not_last hlast]

theorem advance_pc_of_delayed {fx : Fx} {e : Engine} (hfree : freeOfSlots e) (hlater : fx.delayed = true) :
    (advance fx e).pc = e.pc + 4 := by
  obtain ⟨-, hlast⟩ := hfree
  simp [advance, hlater, countLoops_of_not_last hlast]

theorem advance_delay_of_delayed {fx : Fx} {e : Engine} (hlater : fx.delayed = true) :
    (advance fx e).delay = some (fx.target, 2) := by
  simp [advance, hlater]

/-! ### ACCRD (R294) -/

theorem ofInt_toInt_eq_setWidth (v : BitVec 72) : BitVec.ofInt 32 v.toInt = v.setWidth 32 :=
  BitVec.signExtend_eq_setWidth_of_le v (by decide)

/-- The rounding bit and SAT are read from the immediate as its bits 6 and 8:7. -/
theorem accRead_of_imm (acc : BitVec 72) (imm : BitVec 18) (hsat : imm.toNat / 128 < 3) :
    let amount := imm.toNat % 64
    let v := (if imm.getLsbD 6 = true ∧ 1 ≤ amount then acc + BitVec.twoPow 72 (amount - 1) else acc).sshiftRight amount
    accRead acc amount (imm.toNat / 64 % 2 == 1) (imm.toNat / 128 % 4) =
      if imm.toNat / 128 = 0 then v.setWidth 32
      else if imm.toNat / 128 = 1 then BitVec.ofInt 32 (max (-2147483648) (min 2147483647 v.toInt))
      else BitVec.ofInt 32 (max (-32768) (min 32767 v.toInt)) := by
  intro amount v
  have hrnd : (imm.toNat / 64 % 2 == 1) = imm.getLsbD 6 := by
    rw [BitVec.getLsbD, Nat.testBit_eq_decide_div_mod_eq]
    rfl
  have hsum : (if (imm.getLsbD 6 && decide (amount ≥ 1)) = true then acc + BitVec.ofNat 72 (2 ^ (amount - 1)) else acc)
      = if imm.getLsbD 6 = true ∧ 1 ≤ amount then acc + BitVec.twoPow 72 (amount - 1) else acc := by
    have htwo : BitVec.ofNat 72 (2 ^ (amount - 1)) = BitVec.twoPow 72 (amount - 1) :=
      BitVec.eq_of_toNat_eq (by rw [BitVec.toNat_ofNat, BitVec.toNat_twoPow])
    simp only [Bool.and_eq_true, decide_eq_true_eq, htwo, ge_iff_le]
  have hcases : imm.toNat / 128 = 0 ∨ imm.toNat / 128 = 1 ∨ imm.toNat / 128 = 2 := by omega
  simp only [accRead, hrnd, hsum]
  obtain h0 | h1 | h2 := hcases
  · rw [h0]; exact ofInt_toInt_eq_setWidth v
  · rw [h1]; rfl
  · rw [h2]; rfl

/-- ACCRD with a reserved bit or value is refused by `issue`'s reserved test. -/
theorem accrd_traps {p : Nat} {f : IFmt} {s : State} {x : Engine} (h : StandsAt s p x (encI 0x1D f))
    (hbad : 4 ≤ f.s.toNat ∨ 512 ≤ f.imm.toNat ∨ f.imm.toNat / 128 % 4 = 3) :
    exec (.accrd p f) s = .next (trapEngine x trReserved 0 s) := by
  have hrsv : (f.s.toNat ≥ 4 || f.imm.toNat / 128 % 4 == 3 || f.imm.toNat / 512 != 0) = true := by
    simp only [Bool.or_eq_true, decide_eq_true_eq, beq_iff_eq, bne_iff_ne]
    omega
  change execAccrd p f s = _
  rw [execAccrd, hrsv, issue_reserved h]

theorem accrd_writesOnly {p : Nat} {f : IFmt} (hs : f.s.toNat < 4) (himm : f.imm.toNat < 512)
    (hsat : f.imm.toNat / 128 < 3) :
    WritesOnly (.accrd p f) p (encI 0x1D f) [.d f.d.toNat, .acc f.s.toNat] none false fun e =>
      [wr (.d f.d.toNat) 2 (accRead (rdAcc e f.s.toNat) (f.imm.toNat % 64) (f.imm.toNat / 64 % 2 == 1)
        (f.imm.toNat / 128 % 4))] := by
  have hrsv : (f.s.toNat ≥ 4 || f.imm.toNat / 128 % 4 == 3 || f.imm.toNat / 512 != 0) = false := by
    simp only [Bool.or_eq_false_iff, decide_eq_false_iff_not, beq_eq_false_iff_ne, bne_eq_false_iff_eq]
    omega
  refine writesOnly_of_issue (fun s => ?_) (fun _ => rfl)
  change execAccrd p f s = _
  rw [execAccrd, hrsv, Nat.mod_eq_of_lt hs]

/-- Settles O16: the reserved test traps (R288), and otherwise the one write of ACCRD, of latency two (R280), carries the
value `accRead` gives. That the rounding sum wraps modulo 2^72 is the model's choice (log entry 66). -/
theorem colmusAccumulatorRead : Obligations.ColmusAccumulatorRead := by
  unfold Obligations.ColmusAccumulatorRead
  intro p f s x h
  refine ⟨accrd_traps h, fun hs himm hsat => ?_⟩
  have hvalue := accRead_of_imm (rdAcc (atIssue x [.d f.d.toNat, .acc f.s.toNat] none false) f.s.toNat) f.imm hsat
  exact (accrd_writesOnly hs himm hsat s x h).trans (by simp only [hvalue])

/-! ### B and JR (R284, R297) -/

theorem targetFault_misaligned {t : Nat} (h : t % 4 ≠ 0) : targetFault t = some trMisaligned := if_pos h

theorem targetFault_access {t : Nat} (h : t % 4 = 0) (hhigh : 0x10000 ≤ t) : targetFault t = some trAccess := by
  simp [targetFault, h, hhigh]

theorem targetFault_none {t : Nat} (h : t % 4 = 0) (hlow : t < 0x10000) : targetFault t = none := by
  simp [targetFault, h, hlow]

/-- No target fault is a POISON trap. -/
theorem targetFault_ne_poison {t c : Nat} (h : targetFault t = some c) : c ≠ trPoison := by
  unfold targetFault at h
  split at h
  · rw [← Option.some.inj h]; decide
  · split at h
    · rw [← Option.some.inj h]; decide
    · cases h

/-- The effect of a branch that issues: its target when it is taken, after two delay slots in open mode, and at the cost
of three cycles in product mode (R284). -/
def branchFx (openMode : Bool) (target : Option Nat) : Fx :=
  { target, branch := target.isSome, delayed := openMode, cost := if !openMode && target.isSome then 3 else 1 }

section Branch
variable {s : State} {p : Nat} {x : Engine} {w : Word} {regs : List Reg} {taken : Engine → Bool} {target : Engine → Nat}

theorem branchBody_trap {e : Engine} {c : Nat} (hslot : e.openMode = true → slotHoldsLast e = false)
    (htaken : taken e = true) (hfault : targetFault (target e) = some c) :
    branchBody taken target e s = .trap c (target e) := by
  have hno : (e.openMode && slotHoldsLast e) = false := by simpa using hslot
  simp [branchBody, hno, htaken, hfault]

theorem branchBody_done {e : Engine} (hslot : e.openMode = true → slotHoldsLast e = false)
    (hok : taken e = true → target e % 4 = 0 ∧ target e < 0x10000) :
    branchBody taken target e s = .done e (branchFx e.openMode (if taken e then some (target e) else none)) s := by
  have hno : (e.openMode && slotHoldsLast e) = false := by simpa using hslot
  rw [branchBody, hno]
  cases htaken : taken e with
  | false => cases e.openMode <;> rfl
  | true =>
    obtain ⟨halign, hlow⟩ := hok htaken
    rw [targetFault_none halign hlow]
    cases e.openMode <;> rfl

/-- In product mode a branch goes to its target in three cycles or to the next address in one. -/
theorem advance_branchFx_product {e : Engine} (hfree : freeOfSlots e) (target : Option Nat) :
    (advance (branchFx false target) e).pc = target.getD (e.pc + 4) ∧
      (advance (branchFx false target) e).cycle = e.cycle + if target.isSome then 3 else 1 := by
  refine ⟨?_, advance_cycle ..⟩
  cases target with
  | none => exact advance_pc_of_no_target hfree rfl rfl rfl
  | some t => exact advance_pc_of_target rfl rfl

/-- In open mode a branch goes on at the next address and leaves two delay slots. -/
theorem advance_branchFx_open {e : Engine} (hfree : freeOfSlots e) (target : Option Nat) :
    (advance (branchFx true target) e).pc = e.pc + 4 ∧ (advance (branchFx true target) e).delay = some (target, 2) :=
  ⟨advance_pc_of_delayed hfree rfl, advance_delay_of_delayed rfl⟩

/-- A branch that is taken to a target that breaks R297 traps with that fault's cause, in both modes. -/
theorem issue_branch_traps {c : Nat} (h : StandsAt s p x w) (hfree : freeOfSlots x)
    (hslot : (atIssue x regs none false).openMode = true → slotHoldsLast (atIssue x regs none false) = false)
    (htaken : taken (atIssue x regs none false) = true)
    (hfault : targetFault (target (atIssue x regs none false)) = some c) :
    issue p w true false regs none false (branchBody taken target) s =
      trapEngine (atIssue x regs none false) c (target (atIssue x regs none false)) s :=
  issue_trap h hfree (branchBody_trap hslot htaken hfault) (targetFault_ne_poison hfault)

/-- Where a branch that does not trap leaves its engine. -/
theorem issue_branch_goes_on (h : StandsAt s p x w) (hfree : freeOfSlots x) {e : Engine}
    (he : e = atIssue x regs none false) (hslot : e.openMode = true → slotHoldsLast e = false)
    (hok : taken e = true → target e % 4 = 0 ∧ target e < 0x10000) :
    ∃ y, (issue p w true false regs none false (branchBody taken target) s).engine? p = some y ∧
      (e.openMode = false → y.pc = (if taken e then target e else e.pc + 4) ∧
        y.cycle = e.cycle + (if taken e then 3 else 1)) ∧
      (e.openMode = true → y.pc = e.pc + 4 ∧ y.delay = some (if taken e then some (target e) else none, 2)) := by
  subst he
  have hfree' := freeOfSlots_atIssue regs none false hfree
  rw [issue_done h hfree (branchBody_done hslot hok)]
  refine ⟨_, engine_setEngine_const h.1 (by simpa using ix_of_engine h.1), fun hmode => ?_, fun hmode => ?_⟩
  · rw [hmode]
    obtain ⟨hpc, hcycle⟩ := advance_branchFx_product hfree' (if taken (atIssue x regs none false) then
      some (target (atIssue x regs none false)) else none)
    rw [hpc, hcycle]
    cases taken (atIssue x regs none false) <;> exact ⟨rfl, rfl⟩
  · rw [hmode]
    exact advance_branchFx_open hfree' _

end Branch

/-- B with a condition that is not reserved is the issue of a branch. -/
theorem exec_b {p : Nat} {f : BFmt} {s : State} {x : Engine} (hx : s.engine? p = some x) (hcond : f.cond ≠ 15) :
    exec (.b p f) s = .next (issue p (encB f) true false [.flags] none false
      (branchBody (fun y => condHolds y f.cond.toNat)
        fun y => (BitVec.ofNat 32 y.pc + (f.imm.signExtend 32 <<< 2)).toNat) s) := by
  have hrsv : (f.cond == 15) = false := by simpa using hcond
  change execB p f s = _
  simp only [execB, hx, hrsv, Option.map_some, Option.getD_some, Bool.false_and]

/-- JR without a reserved bit is the issue of a branch that is always taken. -/
theorem exec_jr {p : Nat} {f : RFmt} {s : State} {x : Engine} (hx : s.engine? p = some x) (hrsv : f.rsv = 0)
    (hd : f.d = 0) (ht : f.t = 0) :
    exec (.jr p f) s = .next (issue p (encR 0x29 0 f) true false [.a f.s.toNat] none false
      (branchBody (fun _ => true) fun y => (rdA y f.s.toNat).toNat) s) := by
  have hzero : (f.rsv != 0 || f.d != 0 || f.t != 0) = false := by simp [hrsv, hd, ht]
  change execJr p f s = _
  simp only [execJr, hx, hzero, Option.map_some, Option.getD_some, Bool.false_and]

/-- Settles O21: B and JR are the issue of a branch, which traps on its target's fault and otherwise goes on as its mode
says. -/
theorem colmusBranchTargets : Obligations.ColmusBranchTargets := by
  unfold Obligations.ColmusBranchTargets
  refine ⟨fun p f s x h hfree hcond => ?_, fun p f s x h hfree hrsv hd ht => ?_⟩
  · intro e target hslot
    rw [Completes, exec_b h.1 hcond]
    refine ⟨fun htaken hmis => ?_, fun htaken halign hhigh => ?_, fun hok => ?_⟩
    · exact congrArg _ (issue_branch_traps h hfree hslot htaken (targetFault_misaligned hmis))
    · exact congrArg _ (issue_branch_traps h hfree hslot htaken (targetFault_access halign hhigh))
    · exact ⟨_, rfl, issue_branch_goes_on h hfree rfl hslot hok⟩
  · intro e target hslot
    rw [Completes, exec_jr h.1 hrsv hd ht]
    refine ⟨fun hmis => ?_, fun halign hhigh => ?_, fun halign hlow => ?_⟩
    · exact congrArg _ (issue_branch_traps h hfree hslot rfl (targetFault_misaligned hmis))
    · exact congrArg _ (issue_branch_traps h hfree hslot rfl (targetFault_access halign hhigh))
    · exact ⟨_, rfl, issue_branch_goes_on h hfree rfl hslot fun _ => ⟨halign, hlow⟩⟩

/-! ### RET (R302) -/

/-- The mask that the frame's first word names; its upper half is ignored. -/
def retMask (s : State) (e : Engine) : BitVec 16 := (frameRead s e (rdA e 15).toNat).setWidth 16

/-- The return address, the frame's second word. -/
def retAddress (s : State) (e : Engine) : Nat := (frameRead s e ((rdA e 15).toNat + 4)).toNat

section Ret
variable {s : State} {e : Engine}

/-- A return address that breaks R297 traps before anything is restored. -/
theorem retBody_trap {c : Nat} (hslim : e.slim.toNat ≤ (rdA e 15).toNat) (halign : (rdA e 15).toNat % 4 = 0)
    (hhead : frameFault s e (rdA e 15).toNat 8 true = none) (hfault : targetFault (retAddress s e) = some c) :
    retBody e s = .trap c (retAddress s e) := by
  unfold retAddress at hfault ⊢
  simp [retBody, Nat.not_lt.mpr hslim, halign, hhead, hfault]

/-- A frame that can be read in full is restored and passed by A15. -/
theorem retBody_done (hslim : e.slim.toNat ≤ (rdA e 15).toNat) (halign : (rdA e 15).toNat % 4 = 0)
    (hhead : frameFault s e (rdA e 15).toNat 8 true = none) (hfault : targetFault (retAddress s e) = none)
    (hframe : frameFault s e (rdA e 15).toNat (frameLen (retMask s e)) true = none) :
    retBody e s = .done e
      { writes := frameRestore (retMask s e) (fun i => frameRead s e ((rdA e 15).toNat + 4 * i)) ++
          [wr (.a 15) 1 (BitVec.ofNat 32 ((rdA e 15).toNat + frameLen (retMask s e)))]
        cost := 2 + frameLen (retMask s e) / 4, target := some (retAddress s e) } s := by
  unfold retAddress at hfault ⊢
  unfold retMask at hframe ⊢
  simp [retBody, Nat.not_lt.mpr hslim, halign, hhead, hfault, hframe]

end Ret

theorem exec_ret (p : Nat) (s : State) :
    exec (.ret p 0) s = .next (issue p (encRet 0) true false [] none true retBody s) := rfl

/-- Settles O22: RET is an issue behind a barrier, whose body traps on the return address's fault or restores the frame. -/
theorem colmusReturn : Obligations.ColmusReturn := by
  unfold Obligations.ColmusReturn
  intro p s x h hfree e sp mask back hslim halign hhead
  have traps : ∀ {c}, targetFault back = some c → exec (.ret p 0) s = .next (trapEngine e c back s) := fun hfault =>
    (exec_ret p s).trans <| congrArg _ <|
      issue_trap h hfree (retBody_trap hslim halign hhead hfault) (targetFault_ne_poison hfault)
  refine ⟨fun hmis => ?_, fun hback hhigh => ?_, fun hback hlow hframe => ?_⟩
  · exact traps (targetFault_misaligned hmis)
  · exact traps (targetFault_access hback hhigh)
  · exact (exec_ret p s).trans <| congrArg _ <|
      issue_done h hfree (retBody_done hslim halign hhead (targetFault_none hback hlow) hframe)

end Sys2Proof.Machine
